-- ==== Sys2Proof/Word.lean ====
section
/-! DEFINITION. The widths and the number types of the part: bus words, bytes, sample codes, trim
codes, wrapping counts, and the numbers of lines, links, pairs, receivers, slots and profiles. -/

namespace Sys2Proof

/-- One byte of the exchange area. -/
abbrev Byte := BitVec 8

/-- A 32-bit register, bus address, cabinet time or 32-bit count. -/
abbrev Word := BitVec 32

/-- A 16-bit wrapping count: issue, accepted, completion, written, taken and update counts. -/
abbrev Count := BitVec 16

/-- A sample code as it stands on a link: 12 bits, two's complement, -2048 to 2047 (R1). -/
abbrev Code := BitVec 12

/-- A trim code, 0 to 127 (R107). -/
abbrev TrimCode := BitVec 7

/-- Lines are numbered 0 to 63. -/
abbrev LineNo := Fin 64

/-- Links A to D. -/
abbrev LinkNo := Fin 4

/-- The pair position of a line on its link. -/
abbrev PairNo := Fin 16

/-- Receivers DR0 to DR7. -/
abbrev RcvNo := Fin 8

/-- Order slots 0 to 15. -/
abbrev SlotNo := Fin 16

/-- Profiles 0 to 7. -/
abbrev ProfNo := Fin 8

end Sys2Proof
end

