-- ==== Sys2Proof/Syntax.lean ====
section
/-! DEFINITION. The commands of the part: one constructor for each row of the opcode table, with
what the outside gives along with it (a register value, a front end's reply, the powers of a block,
the bus's part in a master access). -/

namespace Sys2Proof

/-- The seven registers (11.1). -/
inductive Reg where
  | id | ctrl | stat | abase | awin | attn | faddr
  deriving DecidableEq, Repr

/-- What a SAMPLE-REPLY carries (R1). -/
structure Sample where
  vt : Code
  vr : Code
  i : Code
  overrange : Bool
  surge : Bool
  testRange : Bool
  deriving DecidableEq, Repr

/-- The power of the input of a receiver at each of the eight frequencies over a detection block, in dBm and
before any rounding (R53; log 45): the low group and the high group, each in the order of rising frequency. -/
structure BlockPowers where
  l697 : Rat
  l770 : Rat
  l852 : Rat
  l941 : Rat
  h1209 : Rat
  h1336 : Rat
  h1477 : Rat
  h1633 : Rat
  deriving DecidableEq, Repr

/-- What a front end may answer on a link (8.1). -/
inductive Reply where
  | probe (pairCount : Nat) (revision : Byte)
  | sample (pair : PairNo) (x : Sample)
  | ack
  | nak
  deriving DecidableEq, Repr

/-- The bus's part in a step that makes master accesses: the bytes the cabinet controller has
written into its memory since the step before (they are there for every read of this step), and the
bus address, if any, that draws an error response or none within 64 microseconds (R175). -/
structure Bus where
  ctl : List (Nat × Byte)
  bad : Option Word
  deriving DecidableEq, Repr

/-- The publish paces (R167). -/
inductive Pace where
  | s8 | s2 | ms500 | ms125
  deriving DecidableEq, Repr

/-- The commands: the rows of the opcode table, in its order. -/
inductive Instr where
  | pinReset
  | softReset (v : Word)
  | runSet (v : Word) (bus : Bus)
  | startingEnd (bus : Bus)
  | runClear (v : Word)
  | stoppingEnd (bus : Bus)
  | haltClear (v : Word)
  | statClear (v : Word)
  | registerWrite (r : Reg) (v : Word) (bus : Bus)
  | attnWrite (bus : Bus)
  | pollTick (bus : Bus)
  | sweepEnd (bus : Bus)
  | completion (slot : SlotNo) (bus : Bus)
  | imageRewrite (bus : Bus)
  | rewriteEnd (bus : Bus)
  | headerRewrite (bus : Bus)
  | masterAccessFailure (addr : Word)
  | paceTick (pace : Pace)
  | scanPeriodStart
  | sampleReply (link : LinkNo) (pair : PairNo) (x : Sample)
  | interdigitCompletion (link : LinkNo) (pair : PairNo) (x : Sample)
  | longBreakCompletion (link : LinkNo) (pair : PairNo) (x : Sample)
  | clear (link : LinkNo) (pair : PairNo) (x : Sample)
  | lockoutClear (link : LinkNo) (pair : PairNo) (x : Sample)
  | firstDigitTimeout (link : LinkNo) (pair : PairNo) (x : Sample)
  | dialEndTimeout (link : LinkNo) (pair : PairNo) (x : Sample)
  | surveyCompletion (link : LinkNo) (pair : PairNo) (x : Sample)
  | quietDelay (link : LinkNo) (pair : PairNo) (x : Sample)
  | decisionEnd (link : LinkNo) (pair : PairNo) (x : Sample)
  | phaseComplete (link : LinkNo) (pair : PairNo) (x : Sample)
  | exchangeTimeout (link : LinkNo)
  | linkLoss (link : LinkNo)
  | unmatchedReply (link : LinkNo) (r : Reply)
  | probeTimer (link : LinkNo)
  | idleProbe (link : LinkNo)
  | probeReply (link : LinkNo) (pairCount : Nat) (revision : Byte)
  | surgeHoldExpiry (link : LinkNo)
  | trimReply (link : LinkNo) (ack : Bool)
  | relayReply (link : LinkNo) (ack : Bool)
  | tapConnectReply (link : LinkNo) (ack : Bool)
  | tapDisconnectReply (link : LinkNo) (ack : Bool)
  | tapClearAllReply (link : LinkNo) (ack : Bool)
  | guardEnd (k : RcvNo)
  | blockEnd (k : RcvNo) (powers : BlockPowers)
  | toneAcceptance (k : RcvNo) (powers : BlockPowers)
  | gapEnd (k : RcvNo) (powers : BlockPowers)
  | checkEnd (k : RcvNo)
  | listenExpiry (slot : SlotNo)
  | traceExpiry
  | warbleHalf
  deriving DecidableEq, Repr

end Sys2Proof
end

