-- ==== Sys2Proof/Machine/Records.lean ====
section
/-! DEFINITION. The records of the twelve blocks as plain data: the named states of the manual as
inductive types, each record as a structure with the fields its chapter lists. -/

namespace Sys2Proof.Machine

/-! ### Lines -/

/-- A line's service (11.5, Codes). -/
inductive Service where
  | parked | active | calibrating | testing
  deriving DecidableEq, Repr

/-- A line's supervision state (2.1). `brk` is BREAK. -/
inductive Sup where
  | none | settling | onHook | seized | dialling | held | brk | lockout | fault | unsensed | suspended
  deriving DecidableEq, Repr

/-- The break return state (2.1). -/
inductive Ret where
  | seized | dialling | held
  deriving DecidableEq, Repr

/-- Line classes and fault kinds (R13, 11.5). `opn` is OPEN; `none` is NONE. -/
inductive Cls where
  | none | opn | leak | closed | short | ground | foreign
  deriving DecidableEq, Repr

/-- Symbols of digit entries (R41). The first sixteen are the keypad symbols (R57). -/
inductive Symbol where
  | digit (d : Fin 10) | star | hash | a | b | c | d | flash | invalid
  deriving DecidableEq, Repr

/-- Sources of digit entries (R41). -/
inductive Source where
  | pulse | tone | hook
  deriving DecidableEq, Repr

/-- A digit entry (R41). -/
structure DigitEntry where
  symbol : Symbol
  source : Source
  pulses : Nat
  loss : Bool
  time : Word
  deriving DecidableEq, Repr

/-- A fault record (5.2). `active` is ACTIVE; clear, the record is RESTORED. -/
structure FaultRec where
  active : Bool
  first : Cls
  latest : Cls
  occurrences : Nat
  firstTime : Word
  latestTime : Word
  peak : Int
  deriving DecidableEq, Repr

/-- Trim ranges (R107). -/
inductive TrimRange where
  | fine | coarse
  deriving DecidableEq, Repr

/-- Causes of a FAILED calibration (6.2). -/
inductive FailCause where
  | outOfRange | frontEndRefused
  deriving DecidableEq, Repr

/-- Causes of an INTERRUPTED calibration (6.2). -/
inductive IntCause where
  | cancelled | lineChanged | linkLost | stopped | halted
  deriving DecidableEq, Repr

/-- The status of a calibration record, with its cause (6.2). -/
inductive CalStatus where
  | none | valid | override
  | failed (cause : FailCause)
  | interrupted (cause : IntCause)
  deriving DecidableEq, Repr

/-- A calibration record (6.2). -/
structure CalRec where
  range : TrimRange
  code : TrimCode
  status : CalStatus
  s1 : Int
  time : Word
  deriving DecidableEq, Repr

/-- The steps of a calibration (R112, R115, R117). FRAME_WAIT holds which replies are awaited. -/
inductive CalStep where
  | frameWait (relay trim : Bool)
  | settle | dwell | commit | restoring
  deriving DecidableEq, Repr

/-- The calibration context of a line in progress (R111). `toActive` is the return service ACTIVE;
`kept` is the code K of R114. -/
structure CalCtx where
  slot : SlotNo
  toActive : Bool
  savedRange : TrimRange
  savedCode : TrimCode
  settleScans : Nat
  d : Nat
  trialRange : TrimRange
  trialCode : TrimCode
  kept : TrimCode
  decision : Nat
  step : CalStep
  s1 : Option Int
  sum : Int
  settleCount : Nat
  dwellCount : Nat
  deriving DecidableEq, Repr

/-- Minimum, maximum and sum of one quantity of a survey; empty until its first sample (R18). -/
structure SurveyStat where
  min : Int
  max : Int
  sum : Int
  deriving DecidableEq, Repr

/-- The survey context of a line (R18). `stats` is empty until the first ACCEPTED scan. -/
structure SurveyCtx where
  slot : SlotNo
  n : Nat
  result : Nat
  stats : Option (SurveyStat × SurveyStat × SurveyStat)
  accepted : Nat
  held : Nat
  missing : Nat
  overrange : Nat
  deriving DecidableEq, Repr

/-- A line's scan rate (8.7). -/
inductive Rate where
  | full | quiet
  deriving DecidableEq, Repr

/-- The part-owned fields of a line image other than the counts, the measurement fields and the digit
array (11.5): what a rewrite compares with the values last written (R165). -/
structure ImageFields where
  service : Service
  sup : Sup
  accepted : Cls
  receiver : Option RcvNo
  profile : ProfNo
  trace : Bool
  phase : Nat
  lost : Nat
  cal : CalRec
  fault : Option FaultRec
  deriving DecidableEq, Repr

/-- A line's record in the line table. -/
structure LineRec where
  service : Service
  profile : ProfNo
  aVt : Int
  aVr : Int
  aI : Int
  seedPending : Bool
  candidate : Option Cls
  run : Nat
  accepted : Cls
  age : Nat
  measTime : Word
  sup : Sup
  ret : Option Ret
  b : Nat
  make : Nat
  firstDigit : Nat
  dialEnd : Nat
  pulses : Nat
  pulseSeen : Bool
  receiver : Option RcvNo
  queue : List DigitEntry
  lost : Nat
  lossPending : Bool
  written : Count
  taken : Count
  update : Count
  image : ImageFields
  measWritten : Word
  changePending : Bool
  pacePending : Bool
  fault : Option FaultRec
  cal : CalRec
  calCtx : Option CalCtx
  rate : Rate
  quiet : Nat
  survey : Option SurveyCtx
  trace : Bool
  deriving DecidableEq, Repr

/-! ### Links -/

/-- Link states (8.2). -/
inductive LinkState where
  | down | up | lost
  deriving DecidableEq, Repr

/-- Relay configurations (8.1). -/
inductive RelayCfg where
  | normal | zero | feedOff | testTR | testTG | testRG | traceMetallic | traceLongitudinal
  deriving DecidableEq, Repr

/-- Who takes the reply to a TRIM: the search or commit of a calibration, or the calibration record
(R109). -/
inductive TrimOwner where
  | calibration | record
  deriving DecidableEq, Repr

/-- Who takes the reply to a RELAY (R141). -/
inductive RelayOwner where
  | recovery | calibration | test | trace
  deriving DecidableEq, Repr

/-- Frames from the part to a front end (8.1). The control frames carry the block that placed them. -/
inductive Frame where
  | probe
  | sample (pair : PairNo)
  | trim (pair : PairNo) (range : TrimRange) (code : TrimCode) (owner : TrimOwner)
  | relay (pair : PairNo) (cfg : RelayCfg) (owner : RelayOwner)
  | tapConnect (pair : PairNo) (k : RcvNo)
  | tapDisconnect (k : RcvNo)
  | tapClearAll
  deriving DecidableEq, Repr

/-- The key of a control frame (R140). -/
inductive FrameKey where
  | trim (pair : PairNo)
  | relay (pair : PairNo)
  | tap (k : RcvNo)
  | clearAll
  deriving DecidableEq, Repr

/-- The steps of a test phase, and RESTORING (5.5, R102). -/
inductive TestStep where
  | relayWait | settle | dwell | restoring
  deriving DecidableEq, Repr

/-- The result of one of phases 2 to 4 (R98, R99). -/
structure OhmResult where
  v : Int
  i : Int
  r : Nat
  high : Bool
  deriving DecidableEq, Repr

/-- Test verdicts (R101, R103, R105). -/
inductive Verdict where
  | none | pass | failForeign | failInsulation | loop | relayRefused
  deriving DecidableEq, Repr

/-- The insulation test context of a link (R95). `sumA` is the phase's voltage sum (Vt in phase 1),
`sumB` its other sum (Vr in phase 1, I later). -/
structure TestCtx where
  line : LineNo
  slot : SlotNo
  toActive : Bool
  settleScans : Nat
  m : Nat
  passLimit : Nat
  foreignLimit : Nat
  result : Nat
  phase : Nat
  step : TestStep
  settleCount : Nat
  dwellCount : Nat
  sumA : Int
  sumB : Int
  phasesDone : Nat
  p1 : Option (Int × Int)
  p2 : Option OhmResult
  p3 : Option OhmResult
  p4 : Option OhmResult
  held : Nat
  missing : Nat
  mismatch : Nat
  deriving DecidableEq, Repr

/-- A link record (8.2), with the exchange outstanding (R134) and what is left to send in the scan
period (R141, R143). `controlOver` says that no more control frames go out in this period. -/
structure LinkRec where
  state : LinkState
  pairCount : Nat
  revision : Byte
  failRun : Nat
  surgeTime : Word
  surgeOn : Bool
  queue : List Frame
  retry : Option Frame
  restored : Vector Bool 16
  probeTime : Word
  idleTime : Word
  exchange : Option Frame
  controlMade : Nat
  controlOver : Bool
  toSample : List PairNo
  test : Option TestCtx
  deriving DecidableEq, Repr

/-! ### Receivers and their pool -/

/-- Who made a line join the waiting list (4.2). -/
inductive Origin where
  | supervision | listen
  deriving DecidableEq, Repr

/-- Out reasons (4.1). -/
inductive OutReason where
  | hostRequest | tapRefused | checkFailed
  deriving DecidableEq, Repr

/-- An entry of the waiting list (4.2). -/
structure WaitEntry where
  line : LineNo
  cls : Fin 2
  tag : Option SlotNo
  origin : Origin
  deriving DecidableEq, Repr

/-- Where bus k was, or may still be, connected (4.1). -/
structure Tap where
  link : LinkNo
  pair : PairNo
  deriving DecidableEq, Repr

/-- Connect phases (4.1). GUARD holds the time the guard started (R76). -/
inductive ConnectPhase where
  | queued | sent
  | guarding (since : Word)
  deriving DecidableEq, Repr

/-- Release phases (4.1). -/
inductive ReleasePhase where
  | awaitConnectAck | awaitDisconnectAck
  deriving DecidableEq, Repr

/-- A receiver's service state with the fields present in it (4.1). The entry a receiver was granted
from carries its attached line, LISTEN tag, priority class and origin. In CHECKING the prior state is
OUT_OF_SERVICE with the reason, or FREE. -/
inductive RcvState where
  | free
  | connecting (e : WaitEntry) (tap : Tap) (phase : ConnectPhase)
  | listening (e : WaitEntry) (tap : Tap)
  | releasing (tap : Tap) (phase : ReleasePhase) (outRequested : Bool)
  | checking (prior : Option OutReason)
  | stranded (tap : Tap) (outRequested : Bool)
  | outOfService (reason : OutReason)
  deriving DecidableEq, Repr

/-- Detection states with their block counters (3.1). -/
inductive DetState where
  | quiet
  | pending (held : Symbol) (run : Nat)
  | on (held : Symbol) (miss : Bool)
  | gap (run : Nat)
  deriving DecidableEq, Repr

/-- A receiver's detection record (3.1). -/
structure Det where
  state : DetState
  began : Option Word
  deriving DecidableEq, Repr

/-! ### Profiles -/

/-- Pulse numberings (R38). -/
inductive Numbering where
  | direct | offset | inverse
  deriving DecidableEq, Repr

/-- The thresholds of a profile (7.2). -/
structure Thresholds where
  iOn : Int
  iOff : Int
  iLeak : Int
  vShort : Int
  vsNom : Int
  vGnd : Int
  vFpos : Int
  vFneg : Int
  deriving DecidableEq, Repr

/-- The eight levels of a detection block, in dBm (R53): the low group and the high group, each in the order of
rising frequency. -/
structure BlockLevels where
  l697 : Int
  l770 : Int
  l852 : Int
  l941 : Int
  h1209 : Int
  h1336 : Int
  h1477 : Int
  h1633 : Int
  deriving DecidableEq, Repr

/-- The tone limits of a profile that do not depend on time (7.2). -/
structure ToneLimits where
  min : Int
  max : Int
  forward : Int
  reverse : Int
  deriving DecidableEq, Repr

/-- The millisecond form of a profile: the fields as a staging block holds them (R122, 7.2). -/
structure Profile where
  shift : Nat
  numbering : Nat
  flags : Nat
  cls : Nat
  thr : Thresholds
  hook : Nat
  fault : Nat
  restore : Nat
  breakMin : Nat
  breakMax : Nat
  flashMin : Nat
  flashMax : Nat
  clearMin : Nat
  interdigit : Nat
  firstDigit : Nat
  dialEnd : Nat
  tone : ToneLimits
  toneOn : Nat
  toneOff : Nat
  quietCode : Nat
  pace : Nat
  deriving DecidableEq, Repr

/-- The converted form of a profile: times in scans or detection blocks (R122, R124). `quiet` is
none for "never". -/
structure Conv where
  shift : Nat
  numbering : Numbering
  toneDial : Bool
  releaseOnPulse : Bool
  releaseAtDialEnd : Bool
  cls : Fin 2
  thr : Thresholds
  hook : Nat
  fault : Nat
  restore : Nat
  breakMin : Nat
  breakMax : Nat
  flashMin : Nat
  flashMax : Nat
  clearMin : Nat
  interdigit : Nat
  firstDigit : Nat
  dialEnd : Nat
  tone : ToneLimits
  toneOn : Nat
  toneOff : Nat
  quiet : Option Nat
  pace : Option Pace
  deriving DecidableEq, Repr

/-- An installed profile (R122). -/
structure ProfEntry where
  ms : Profile
  conv : Conv
  valid : Bool
  deriving DecidableEq, Repr

/-- The scan periods (R142). -/
inductive Period where
  | ms2 | ms4 | ms8
  deriving DecidableEq, Repr

/-! ### Tone generator -/

/-- A channel of the generator (R148). -/
structure Channel where
  n : Nat
  level : Nat
  deriving DecidableEq, Repr

/-- A sine tone: its frequency in Hz, exactly, and its level in dBm (R148). -/
structure SineTone where
  hz : Rat
  dbm : Int
  deriving DecidableEq, Repr

/-- Where the generator's output goes (R148). -/
inductive GenOutput where
  | silent | testBus | loopback
  deriving DecidableEq, Repr

/-- Trace steps (R150, R151, R154). TONE holds the time it began. -/
inductive TraceStep where
  | relayWait
  | tone (since : Word)
  | restoring
  deriving DecidableEq, Repr

/-- Warble rates (9.2). -/
inductive WarbleRate where
  | hz4 | hz8 | hz16
  deriving DecidableEq, Repr

/-- The trace context (R150). `halves` counts the warble halves made since the tone began (R151). -/
structure TraceCtx where
  line : LineNo
  slot : SlotNo
  na : Nat
  nb : Nat
  level : Nat
  rate : WarbleRate
  longitudinal : Bool
  expiry : Word
  step : TraceStep
  halves : Nat
  deriving DecidableEq, Repr

/-- The check context (R155). `records` has one record slot for each digit. -/
structure CheckCtx where
  rcv : RcvNo
  slot : SlotNo
  digits : List Symbol
  level : Nat
  removeOnFail : Bool
  onBlocks : Nat
  offBlocks : Nat
  records : List (Option Symbol)
  position : Nat
  deriving DecidableEq, Repr

/-- The generator's context; its user is none, TRACE or CHECK with it (9.1). -/
inductive GenCtx where
  | none
  | trace (c : TraceCtx)
  | check (c : CheckCtx)
  deriving DecidableEq, Repr

/-- The generator's record (9.1). -/
structure GenRec where
  chA : Channel
  chB : Channel
  output : GenOutput
  ctx : GenCtx
  deriving DecidableEq, Repr

/-! ### Exchange engine -/

/-- Exchange states (11.2). -/
inductive Exch where
  | stopped | starting | running | stopping | halted
  deriving DecidableEq, Repr

/-- Order outcomes (R178). -/
inductive OrderOutcome where
  | done | failed | aborted | refused
  deriving DecidableEq, Repr

/-- Order reasons (11.5, Codes). -/
inductive Reason where
  | none | badKind | badLine | badParam | badAddress | lineBusy | resourceBusy | profileInvalid
  | overridden | faultPresent | nothingToCancel | cancelled | stopped | restart | linkLost
  | lineChanged | lineCleared | loopDetected | noReceiver
  deriving DecidableEq, Repr

/-- The tally of a CALIBRATE (R120). -/
structure Tally where
  taken : Nat
  valid : Nat
  failed : Nat
  interrupted : Nat
  badLine : Nat
  overridden : Nat
  lineBusy : Nat
  deriving DecidableEq, Repr

/-- The context of a LISTEN (R83). -/
structure ListenCtx where
  line : LineNo
  expiry : Word
  count : Nat
  last : Option RcvNo
  deriving DecidableEq, Repr

/-- An order in flight, by kind (R177). The contexts of the others stand with their blocks. -/
inductive Flight where
  | survey (n : LineNo)
  | calibrate (t : Tally)
  | insulation (l : LinkNo)
  | listen (c : ListenCtx)
  | check
  | trace
  deriving DecidableEq, Repr

/-- A completion that is due: what the engine has still to write (R178). The result buffer, where
there is one, is its offset and its bytes as fields of one, two or four bytes: width and value. -/
structure Completion where
  outcome : OrderOutcome
  reason : Reason
  detail : List Byte
  result : Option (Nat × List (Nat × Int))
  deriving DecidableEq, Repr

/-- What the engine keeps of a slot: its accepted copy, its completion copy, the order in flight, the
completion due (R176 to R178). -/
structure SlotRec where
  accepted : Count
  completion : Count
  flight : Option Flight
  due : Option Completion
  deriving DecidableEq, Repr

/-- A rewrite between its odd and its even write (R164). -/
structure Rewrite where
  line : LineNo
  moved : Nat
  notable : Bool
  deriving DecidableEq, Repr

end Sys2Proof.Machine
end

