-- ==== Sys2Proof/Machine/Codes.lean ====
section
/-! DEFINITION. The codes under which names stand in the exchange area: each by its position in the
list of 11.5, starting at 0. -/

namespace Sys2Proof.Machine

/-- Service codes. -/
def codeService : Service → Nat
  | .parked => 0 | .active => 1 | .calibrating => 2 | .testing => 3

/-- Supervision codes. -/
def codeSup : Sup → Nat
  | .none => 0 | .settling => 1 | .onHook => 2 | .seized => 3 | .dialling => 4 | .held => 5
  | .brk => 6 | .lockout => 7 | .fault => 8 | .unsensed => 9 | .suspended => 10

/-- Class and fault kind codes. -/
def codeCls : Cls → Nat
  | .none => 0 | .opn => 1 | .leak => 2 | .closed => 3 | .short => 4 | .ground => 5 | .foreign => 6

/-- Calibration range codes. -/
def codeRange : TrimRange → Nat
  | .fine => 0 | .coarse => 1

/-- Calibration status codes. -/
def codeStatus : CalStatus → Nat
  | .none => 0 | .valid => 1 | .override => 2 | .failed _ => 3 | .interrupted _ => 4

/-- Calibration cause codes. -/
def codeCause : CalStatus → Nat
  | .failed .outOfRange => 1
  | .failed .frontEndRefused => 2
  | .interrupted .cancelled => 3
  | .interrupted .lineChanged => 4
  | .interrupted .linkLost => 5
  | .interrupted .stopped => 6
  | .interrupted .halted => 7
  | .none => 0
  | .valid => 0
  | .override => 0

/-- Symbol codes. -/
def codeSymbol : Symbol → Nat
  | .digit d => d.1
  | .star => 10 | .hash => 11 | .a => 12 | .b => 13 | .c => 14 | .d => 15
  | .flash => 16 | .invalid => 17

/-- The keypad symbol of a code, 0 to 15 (R155). -/
def keypadOf (n : Nat) : Option Symbol :=
  if h : n < 10 then some (.digit ⟨n, h⟩)
  else if n = 10 then some .star
  else if n = 11 then some .hash
  else if n = 12 then some .a
  else if n = 13 then some .b
  else if n = 14 then some .c
  else if n = 15 then some .d
  else none

/-- Source codes. -/
def codeSource : Source → Nat
  | .pulse => 0 | .tone => 1 | .hook => 2

/-- Link state codes. -/
def codeLink : LinkState → Nat
  | .down => 0 | .up => 1 | .lost => 2

/-- Receiver state codes. -/
def codeRcv : RcvState → Nat
  | .free => 0
  | .connecting _ _ _ => 1
  | .listening _ _ => 2
  | .releasing _ _ _ => 3
  | .checking _ => 4
  | .stranded _ _ => 5
  | .outOfService _ => 6

/-- Out reason codes. -/
def codeOut : OutReason → Nat
  | .hostRequest => 1 | .tapRefused => 2 | .checkFailed => 3

/-- Generator user codes. -/
def codeUser : GenCtx → Nat
  | .none => 0 | .trace _ => 1 | .check _ => 2

/-- Exchange state codes. -/
def codeExch : Exch → Nat
  | .stopped => 0 | .starting => 1 | .running => 2 | .stopping => 3 | .halted => 4

/-- Outcome codes. -/
def codeOutcome : OrderOutcome → Nat
  | .done => 1 | .failed => 2 | .aborted => 3 | .refused => 4

/-- Reason codes. -/
def codeReason : Reason → Nat
  | .none => 0 | .badKind => 1 | .badLine => 2 | .badParam => 3 | .badAddress => 4 | .lineBusy => 5
  | .resourceBusy => 6 | .profileInvalid => 7 | .overridden => 8 | .faultPresent => 9
  | .nothingToCancel => 10 | .cancelled => 11 | .stopped => 12 | .restart => 13 | .linkLost => 14
  | .lineChanged => 15 | .lineCleared => 16 | .loopDetected => 17 | .noReceiver => 18

/-- Test verdict codes. -/
def codeVerdict : Verdict → Nat
  | .none => 0 | .pass => 1 | .failForeign => 2 | .failInsulation => 3 | .loop => 4 | .relayRefused => 5

end Sys2Proof.Machine
end

