-- ==== Sys2Proof/Config.lean ====
section
/-! DEFINITION. The constants the manual fixes: layout offsets of the exchange area (11.5), register
values, and the intervals and limits of the chapters. The manual leaves no value of an effect open,
so there is no free value here. -/

namespace Sys2Proof.Config

/-- ID register (11.1). -/
def idWord : Word := 0x4C530640#32

/-- CTRL after a reset (R172). -/
def ctrlReset : Word := 0x00000210#32

/-- The bits of CTRL that are named; the others read 0, and SOFT_RESET reads 0 (11.1, R169). -/
def ctrlMask : Word := 0x00001737#32

/-- Offset of order slot 0 (11.5). -/
def slotBase : Nat := 0x100

/-- Offset of staging block 0 (11.5). -/
def stagingBase : Nat := 0x500

/-- Offset of the image of line 0 (11.5). -/
def imageBase : Nat := 0x900

/-- Size of a line image (11.5). -/
def imageSize : Nat := 384

/-- Start of the free region (R171). -/
def freeBase : Nat := 0x6900

/-- Offset of the digit array in an image (11.5). -/
def digitArray : Nat := 0x78

/-- Offset of the taken count in an image (11.5). -/
def takenOffset : Nat := 0x178

/-- A digit queue holds 16 entries (R158). -/
def queueMax : Nat := 16

/-- A digit array holds 32 entries (10.2). -/
def arrayMax : Nat := 32

/-- The surge hold lasts 100 ms (R5). -/
def surgeMs : Nat := 100

/-- The tap guard lasts 16 ms (R76). -/
def guardMs : Nat := 16

/-- A detection block lasts 10 ms (R51). -/
def blockMs : Nat := 10

/-- PROBE interval and idle limit, 250 ms (R136, R138). -/
def probeMs : Nat := 250

/-- Control exchanges per scan period (R141). -/
def controlMax : Nat := 4

/-- Consecutive timeouts that lose a link (R138). -/
def failMax : Nat := 3

/-- The quiet counter saturates here (R144). -/
def quietMax : Nat := 33554431

/-- A 16-bit counter saturates here. -/
def max16 : Nat := 65535

/-- The first-digit and dial-end counters saturate here (2.1). -/
def max17 : Nat := 131071

/-- The highest resistance reported, in kilohms (R99). -/
def ohmMax : Nat := 50000

/-- A tip-ring resistance below this is a loop, in kilohms (R100). -/
def loopOhm : Nat := 20

end Sys2Proof.Config
end

