-- ==== Sys2Proof/Machine/Convert.lean ====
section
/-! DEFINITION. Profiles: the default profile, the conversion from milliseconds to scans (R124), and
the fifteen constraints (R125). -/

namespace Sys2Proof.Machine

/-- The scan period in milliseconds (R142). -/
def Period.ms : Period → Nat
  | .ms2 => 2
  | .ms4 => 4
  | .ms8 => 8

/-- ceil(a / b) for a positive b. -/
def ceilDiv (a b : Nat) : Nat := (a + b - 1) / b

/-- Milliseconds to scans, clamped to 1 to 65,535 (R124). -/
def toScans (p : Period) (ms : Nat) : Nat :=
  min (max (ceilDiv ms p.ms) 1) 65535

/-- Seconds to scans, exact and not clamped (R124). -/
def secondsToScans (p : Period) (sec : Nat) : Nat := sec * 1000 / p.ms

/-- Milliseconds to detection blocks, never below 1 (R58, R124). -/
def toBlocks (ms : Nat) : Nat := max (ceilDiv ms 10) 1

/-- The delay in seconds of a quiet delay code; none is "never" (8.7). -/
def quietSeconds (code : Nat) : Option Nat :=
  if code = 0 then none
  else if code ≤ 60 then some code
  else if code ≤ 120 then some ((code - 60) * 10)
  else if code ≤ 180 then some ((code - 120) * 60)
  else some ((code - 180) * 600)

/-- The pulse numbering of a code (11.5, Staging block). -/
def numberingOf (code : Nat) : Numbering :=
  if code = 1 then .offset else if code = 2 then .inverse else .direct

/-- The publish pace of a code; none is off (11.5, Staging block). -/
def paceOf (code : Nat) : Option Pace :=
  if code = 1 then some .s8
  else if code = 2 then some .s2
  else if code = 3 then some .ms500
  else if code = 4 then some .ms125
  else none

/-- The interval of a publish pace in milliseconds (R167). -/
def paceMs : Pace → Nat
  | .s8 => 8000
  | .s2 => 2000
  | .ms500 => 500
  | .ms125 => 125

/-- A filter shift above 4 is taken as 4 (R126). -/
def clampShift (k : Nat) : Nat := min k 4

/-- The converted form of a profile at a period (R124). -/
def convert (p : Period) (f : Profile) : Conv where
  shift := clampShift f.shift
  numbering := numberingOf f.numbering
  toneDial := f.flags.testBit 0
  releaseOnPulse := f.flags.testBit 1
  releaseAtDialEnd := f.flags.testBit 2
  cls := if f.cls = 1 then 1 else 0
  thr := f.thr
  hook := toScans p f.hook
  fault := toScans p f.fault
  restore := toScans p f.restore
  breakMin := toScans p f.breakMin
  breakMax := toScans p f.breakMax
  flashMin := toScans p f.flashMin
  flashMax := toScans p f.flashMax
  clearMin := toScans p f.clearMin
  interdigit := toScans p f.interdigit
  firstDigit := secondsToScans p f.firstDigit
  dialEnd := secondsToScans p f.dialEnd
  tone := f.tone
  toneOn := toBlocks f.toneOn
  toneOff := toBlocks f.toneOff
  quiet := (quietSeconds f.quietCode).map (secondsToScans p)
  pace := paceOf f.pace

/-- `x` lies from `lo` to `hi`, inclusive. -/
def inRange (lo hi x : Int) : Bool := decide (lo ≤ x) && decide (x ≤ hi)

/-- The fifteen constraints of R125 at a period, in order: number and whether it holds. -/
def constraints (p : Period) (f : Profile) : List (Nat × Bool) :=
  let c := convert p f
  let t := f.thr
  [ (1, inRange (-2048) 2047 t.iOn && inRange (-2048) 2047 t.iOff &&
        inRange (-2048) 2047 t.iLeak && inRange (-2048) 2047 t.vShort),
    (2, inRange (-2048) 2045 t.vFpos && inRange (-2047) 2047 t.vFneg),
    (3, inRange (-4096) 4094 t.vsNom && inRange 0 8190 t.vGnd),
    (4, inRange 1 255 f.firstDigit && inRange 1 255 f.dialEnd),
    (5, decide (f.numbering ≤ 2) && decide (f.cls ≤ 1) && decide (f.flags < 8) && decide (f.pace ≤ 4)),
    (6, inRange (-64) 6 f.tone.min && inRange (-64) 6 f.tone.max && inRange 0 70 f.tone.forward &&
        inRange 0 70 f.tone.reverse && inRange 0 2550 f.toneOn && inRange 0 2550 f.toneOff),
    (7, decide (c.hook < c.breakMin)),
    (8, decide (c.breakMin ≤ c.breakMax)),
    (9, decide (c.breakMax < c.flashMin)),
    (10, decide (c.flashMin ≤ c.flashMax)),
    (11, decide (c.flashMax < c.clearMin)),
    (12, decide (c.hook < c.interdigit)),
    (13, decide (t.iLeak < t.iOff)),
    (14, decide (t.iOff ≤ t.iOn)),
    (15, decide (t.vFneg < t.vsNom)) ]

/-- The number of the first constraint that fails, if any (R125). -/
def firstFailing (p : Period) (f : Profile) : Option Nat :=
  ((constraints p f).find? (fun c => !c.2)).map Prod.fst

/-- A profile is valid at a period when no constraint fails (R125). -/
def validAt (p : Period) (f : Profile) : Bool := (firstFailing p f).isNone

/-- The installed form of a profile at a period, with its validity mark (R122). -/
def install (p : Period) (f : Profile) : ProfEntry :=
  { ms := f, conv := convert p f, valid := validAt p f }

/-- The default profile (7.2). -/
def defaultProfile : Profile where
  shift := 2
  numbering := 0
  flags := 7
  cls := 0
  thr := { iOn := 300, iOff := 240, iLeak := 40, vShort := 12, vsNom := -384, vGnd := 96,
           vFpos := 48, vFneg := -480 }
  hook := 8
  fault := 500
  restore := 2000
  breakMin := 20
  breakMax := 120
  flashMin := 200
  flashMax := 800
  clearMin := 1000
  interdigit := 200
  firstDigit := 20
  dialEnd := 8
  tone := { min := -25, max := 0, forward := 6, reverse := 4 }
  toneOn := 40
  toneOff := 40
  quietCode := 30
  pace := 0

end Sys2Proof.Machine
end

