-- ==== Sys2Proof/Machine/State.lean ====
section
/-! DEFINITION. The state of the part as plain data, its faults and refusals, and the state after pin
reset. -/

namespace Sys2Proof.Machine

/-- What stops the machine. No rule of the manual stops the part; a failed master access halts the
exchange, which is a state (R175). -/
inductive Fault where
  /-- Raised by a command whose bus operand places a controller's byte at an address that the 32-bit
  local bus does not have (log 28). Safe: the machine stops where no such access exists. -/
  | noSuchAddress
  deriving DecidableEq, Repr

/-- Why a command has no meaning. -/
inductive Refusal where
  /-- Raised by an arm of exec whose command has no meaning yet. Safe. No arm raises it now. -/
  | notModelled (mnemonic : String)
  deriving DecidableEq, Repr

/-- The state of the part. -/
structure State where
  time : Word
  ctrl : Word
  event : Bool
  busErr : Bool
  periodHeld : Bool
  abase : Word
  awin : BitVec 3
  faddr : Word
  exch : Exch
  latchBase : Word
  latchWin : BitVec 3
  latchBig : Bool
  sweeping : Bool
  sweepAgain : Bool
  rewriteList : List LineNo
  rewriting : Option Rewrite
  headerUpdate : Count
  headerPending : Bool
  changeCount : Word
  protocolErrors : Nat
  slots : Vector SlotRec 16
  period : Period
  periodCount : Word
  periodEnd : Word
  pollIn : Nat
  economy : Bool
  lines : Vector LineRec 64
  links : Vector LinkRec 4
  rcvs : Vector RcvState 8
  dets : Vector Det 8
  waiting : List WaitEntry
  rotation : RcvNo
  profiles : Vector ProfEntry 8
  gen : GenRec
  mem : List Host.Cell
  pending : List Instr
  deriving DecidableEq, Repr

/-- A line's calibration record after pin reset (R108). -/
def CalRec.reset : CalRec :=
  { range := .coarse, code := 64, status := .none, s1 := 0, time := 0 }

/-- The image fields of a line as reset leaves the line; what they read as "last written" before the
first full write (log 23). -/
def ImageFields.reset : ImageFields :=
  { service := .parked, sup := .none, accepted := .none, receiver := none, profile := 0,
    trace := false, phase := 0, lost := 0, cal := CalRec.reset, fault := none }

/-- A line's record after pin reset (R7, R22, R68, R89, R108, R122, R144, R148, R158 to R160, R164). -/
def LineRec.reset : LineRec :=
  { service := .parked, profile := 0, aVt := 0, aVr := 0, aI := 0, seedPending := false,
    candidate := none, run := 0, accepted := .none, age := 0, measTime := 0,
    sup := .none, ret := none, b := 0, make := 0, firstDigit := 0, dialEnd := 0, pulses := 0,
    pulseSeen := false, receiver := none, queue := [], lost := 0, lossPending := false,
    written := 0, taken := 0, update := 0, image := ImageFields.reset, measWritten := 0,
    changePending := false, pacePending := false, fault := none, cal := CalRec.reset,
    calCtx := none, rate := .full, quiet := 0, survey := none, trace := false }

/-- A link record after a reset, the first PROBE sent (R135, R136). -/
def LinkRec.reset : LinkRec :=
  { state := .down, pairCount := 16, revision := 0, failRun := 0, surgeTime := 0, surgeOn := false,
    queue := [], retry := none, restored := Vector.replicate 16 false, probeTime := 0, idleTime := 0,
    exchange := some .probe, controlMade := 0, controlOver := true, toSample := [], test := none }

/-- A receiver's detection record when it does not listen (R50, R52). -/
def Det.reset : Det := { state := .quiet, began := none }

/-- The generator after a reset (R148). -/
def GenRec.reset : GenRec :=
  { chA := { n := 0, level := 0 }, chB := { n := 0, level := 0 }, output := .silent, ctx := .none }

/-- A slot's record after a reset: no order in flight (R172); the copies are log 23. -/
def SlotRec.reset : SlotRec := { accepted := 0, completion := 0, flight := none, due := none }

/-- The state right after pin reset (R172 and the reset rules of the chapters), no command waiting
and nothing written in the controller's memory. -/
def State.reset : State :=
  { time := 0, ctrl := Config.ctrlReset, event := false, busErr := false, periodHeld := false,
    abase := 0, awin := 0, faddr := 0, exch := .stopped,
    latchBase := 0, latchWin := 0, latchBig := false,
    sweeping := false, sweepAgain := false, rewriteList := [], rewriting := none,
    headerUpdate := 0, headerPending := false, changeCount := 0, protocolErrors := 0,
    slots := Vector.replicate 16 SlotRec.reset,
    period := .ms4, periodCount := 0, periodEnd := 0, pollIn := 4000, economy := false,
    lines := Vector.replicate 64 LineRec.reset,
    links := Vector.replicate 4 LinkRec.reset,
    rcvs := Vector.replicate 8 RcvState.free,
    dets := Vector.replicate 8 Det.reset,
    waiting := [], rotation := 7,
    profiles := Vector.replicate 8 (install .ms4 defaultProfile),
    gen := GenRec.reset, mem := [], pending := [] }

end Sys2Proof.Machine
end

