-- ==== Sys2Proof/Machine/Ops.lean ====
section
/-! DEFINITION. The named operations over the records and the memory: reading and updating one line,
link, receiver, detection record, slot or profile; the bytes of the exchange area; cabinet time;
rounding and saturation. -/

namespace Sys2Proof.Machine

/-! ### Numbers -/

/-- One more, stopping at `max`. -/
def satInc (max x : Nat) : Nat := min (x + 1) max

/-- An integer divided by a positive count, rounded to the nearest with ties away from zero (R20,
R98). -/
def roundDiv (x : Int) (n : Nat) : Int :=
  let q : Nat := (2 * x.natAbs + n) / (2 * n)
  if x < 0 then -(q : Int) else (q : Int)

/-- Milliseconds of cabinet time since `since`, modulo 2^32 (R5). -/
def elapsed (now since : Word) : Nat := (now - since).toNat

/-- Cabinet time `ms` milliseconds after `t`. -/
def afterMs (t : Word) (ms : Nat) : Word := t + BitVec.ofNat 32 ms

/-- Cabinet time has reached `expiry`, which lies less than 2^31 ms from now. -/
def reached (now expiry : Word) : Bool := decide ((now - expiry).toNat < 2 ^ 31)

/-! ### Lines, links and pairs -/

/-- Line n belongs to link floor(n / 16). -/
def linkOf (n : LineNo) : LinkNo := ⟨n.1 / 16, by omega⟩

/-- The pair position of a line, n mod 16. -/
def pairOf (n : LineNo) : PairNo := ⟨n.1 % 16, by omega⟩

/-- The line at a pair of a link. -/
def lineAt (l : LinkNo) (p : PairNo) : LineNo := ⟨16 * l.1 + p.1, by omega⟩

/-- All lines, ascending. -/
def allLines : List LineNo := List.finRange 64

/-- All links, A to D. -/
def allLinks : List LinkNo := List.finRange 4

/-- All pairs, ascending. -/
def allPairs : List PairNo := List.finRange 16

/-- All receivers, DR0 to DR7. -/
def allRcvs : List RcvNo := List.finRange 8

/-- All slots, ascending. -/
def allSlots : List SlotNo := List.finRange 16

/-- All profiles, ascending. -/
def allProfs : List ProfNo := List.finRange 8

/-- The lines of a link, ascending. -/
def linesOf (l : LinkNo) : List LineNo := allPairs.map (lineAt l)

/-! ### Records -/

/-- The record of a line. -/
def State.line (s : State) (n : LineNo) : LineRec := s.lines[n.1]'n.2

/-- Change the record of a line. -/
def State.modLine (s : State) (n : LineNo) (f : LineRec → LineRec) : State :=
  { s with lines := s.lines.set n.1 (f (s.line n)) n.2 }

/-- The record of a link. -/
def State.link (s : State) (l : LinkNo) : LinkRec := s.links[l.1]'l.2

/-- Change the record of a link. -/
def State.modLink (s : State) (l : LinkNo) (f : LinkRec → LinkRec) : State :=
  { s with links := s.links.set l.1 (f (s.link l)) l.2 }

/-- The service record of a receiver. -/
def State.rcv (s : State) (k : RcvNo) : RcvState := s.rcvs[k.1]'k.2

/-- The detection record of a receiver. -/
def State.det (s : State) (k : RcvNo) : Det := s.dets[k.1]'k.2

/-- Set the detection record of a receiver. -/
def State.setDet (s : State) (k : RcvNo) (d : Det) : State :=
  { s with dets := s.dets.set k.1 d k.2 }

/-- Move a receiver to a service state in which it does not listen: its detection is reset in the
same event (R50, R52). -/
def State.setRcv (s : State) (k : RcvNo) (r : RcvState) : State :=
  { s with rcvs := s.rcvs.set k.1 r k.2, dets := s.dets.set k.1 Det.reset k.2 }

/-- Move a receiver to LISTENING or CHECKING: its first block begins now (R51). -/
def State.startListening (s : State) (k : RcvNo) (r : RcvState) : State :=
  { s with rcvs := s.rcvs.set k.1 r k.2,
           dets := s.dets.set k.1 { state := .quiet, began := some s.time } k.2 }

/-- What the engine keeps of a slot. -/
def State.slot (s : State) (k : SlotNo) : SlotRec := s.slots[k.1]'k.2

/-- Change what the engine keeps of a slot. -/
def State.modSlot (s : State) (k : SlotNo) (f : SlotRec → SlotRec) : State :=
  { s with slots := s.slots.set k.1 (f (s.slot k)) k.2 }

/-- An installed profile. -/
def State.profile (s : State) (n : ProfNo) : ProfEntry := s.profiles[n.1]'n.2

/-- The converted profile of a line (R11, R24, R58). -/
def State.conv (s : State) (n : LineNo) : Conv := (s.profile (s.line n).profile).conv

/-- A link is UP. -/
def linkUp (s : State) (l : LinkNo) : Bool := decide ((s.link l).state = .up)

/-- A line is absent: its pair is not equipped on its front end (R136). -/
def absent (s : State) (n : LineNo) : Bool :=
  decide ((s.link (linkOf n)).pairCount = 8) && decide (8 ≤ (pairOf n).1)

/-- The line that a byte of a slot names, if it is 0 to 63 and not absent: the check BAD_LINE of the
orders. -/
def presentLine (s : State) (b : Nat) : Option LineNo :=
  if h : b < 64 then
    if absent s ⟨b, h⟩ then none else some ⟨b, h⟩
  else none

/-- The surge hold of a link is in force: its indication is set and its 100 ms are not over (R5). -/
def surgeInForce (s : State) (l : LinkNo) : Bool :=
  (s.link l).surgeOn && decide (elapsed s.time (s.link l).surgeTime < Config.surgeMs)

/-- The surge hold of a link is in force for a block that ends now. At 100 ms exactly the indication alone
decides, so that the block end or the expiry may be taken first (R55; log 19). -/
def surgeAtBlock (s : State) (l : LinkNo) : Bool :=
  (s.link l).surgeOn && decide (elapsed s.time (s.link l).surgeTime ≤ Config.surgeMs)

/-! ### Exchange area bytes -/

/-- What an address that is not listed reads as (log 4). -/
def unlisted : Byte := 0

/-- Read one byte. -/
def memRead : List Host.Cell → Nat → Byte
  | [], _ => unlisted
  | (k, v) :: t, a => if k = a then v else memRead t a

/-- Write one byte, keeping the canonical form. -/
def memWrite : List Host.Cell → Nat → Byte → List Host.Cell
  | [], a, v => if v = unlisted then [] else [(a, v)]
  | (k, w) :: t, a, v =>
    if a < k then (if v = unlisted then (k, w) :: t else (a, v) :: (k, w) :: t)
    else if a = k then (if v = unlisted then t else (a, v) :: t)
    else (k, w) :: memWrite t a v

/-- Write bytes at rising addresses of the 32-bit bus. -/
def memWriteBytes (m : List Host.Cell) (a : Nat) : List Byte → List Host.Cell
  | [] => m
  | v :: t => memWriteBytes (memWrite m (a % 2 ^ 32) v) (a + 1) t

/-- Read `n` bytes at rising addresses of the 32-bit bus. -/
def memReadBytes (m : List Host.Cell) (a : Nat) : Nat → List Byte
  | 0 => []
  | n + 1 => memRead m (a % 2 ^ 32) :: memReadBytes m (a + 1) n

/-- The canonical form: addresses strictly rising and on the 32-bit bus, no byte that an unlisted
address reads as. -/
abbrev memWf (m : List Host.Cell) : Prop :=
  m.Pairwise (fun x y => x.1 < y.1) ∧ ∀ c ∈ m, c.2 ≠ unlisted ∧ c.1 < 2 ^ 32

/-- The bytes the cabinet controller has written (log 5). -/
def controllerWrites (m : List Host.Cell) (w : List (Nat × Byte)) : List Host.Cell :=
  w.foldl (fun m c => memWrite m c.1 c.2) m

/-- A value as `n` bytes, least significant first. -/
def toBytesLE (x : Nat) : Nat → List Byte
  | 0 => []
  | n + 1 => BitVec.ofNat 8 x :: toBytesLE (x / 256) n

/-- A value as `n` bytes in the latched byte order, in address order (R169). -/
def toBytes (big : Bool) (n : Nat) (x : Nat) : List Byte :=
  if big then (toBytesLE x n).reverse else toBytesLE x n

/-- The value of bytes, least significant first. -/
def ofBytesLE : List Byte → Nat
  | [] => 0
  | b :: t => b.toNat + 256 * ofBytesLE t

/-- The value of bytes in address order under a byte order (R169). -/
def ofBytes (big : Bool) (l : List Byte) : Nat :=
  if big then ofBytesLE l.reverse else ofBytesLE l

/-- A signed value in two's complement on `n` bytes (11.5). -/
def encodeInt (n : Nat) (x : Int) : Nat := (x % (2 ^ (8 * n) : Nat)).toNat

/-- The signed value of a field of `n` bytes (11.5). -/
def decodeInt (n : Nat) (x : Nat) : Int :=
  if x < 2 ^ (8 * n - 1) then (x : Int) else (x : Int) - (2 ^ (8 * n) : Nat)

end Sys2Proof.Machine
end

