-- ==== Sys2Proof/Machine/Flags.lean ====
section
/-! DEFINITION. The indications and the marks: STAT and the interrupt line, the registers as read, the
fields of an image and the items of the header, the pending marks that a change sets (R165), and the
end of an order (R178). -/

namespace Sys2Proof.Machine

/-! ### Registers -/

/-- RUN (R169). -/
def run (s : State) : Bool := s.ctrl.getLsbD 0

/-- IRQ_EN (R169). -/
def irqEn (s : State) : Bool := s.ctrl.getLsbD 1

/-- BYTE_ORDER; set, the most significant byte stands at the lowest address (R169). -/
def byteOrder (s : State) : Bool := s.ctrl.getLsbD 2

/-- The period that a SCAN_PERIOD code names: 2, 4, 8 and 8 ms (R142). -/
def periodOfCode (code : Nat) : Period :=
  if code = 0 then .ms2 else if code = 1 then .ms4 else .ms8

/-- The period that CTRL names (R142). -/
def namedPeriod (c : Word) : Period := periodOfCode ((c >>> 4).toNat % 4)

/-- POOL_SELECT; set, it is ROTATE (R74, R169). -/
def rotate (s : State) : Bool := s.ctrl.getLsbD 12

/-- Sweeps per second that the POLL_RATE code of a CTRL value gives (R169). -/
def pollRate (c : Word) : Nat := 4 ^ (min ((c >>> 8).toNat % 8) 4 + 1)

/-- The interval of poll ticks under a CTRL value, in 256ths of a millisecond, a unit in which every rate's
interval is whole (R169). -/
def pollInterval (c : Word) : Nat := 256000 / pollRate c

/-- A poll tick falls in the present millisecond of cabinet time (R169). -/
def pollDue (s : State) : Bool := decide (s.pollIn < 256)

/-- The poll tick falls: the next one comes an interval later, by the code read now (R169). -/
def pollTicked (s : State) : State := { s with pollIn := s.pollIn + pollInterval s.ctrl }

/-- The size of the window of an AWIN code (R171). -/
def windowSize (code : BitVec 3) : Nat := 32768 * 2 ^ (min code.toNat 5)

/-- ABASE as it reads: the bits below the window size are zero (R171, log 8). -/
def maskedBase (base : Word) (code : BitVec 3) : Word :=
  BitVec.ofNat 32 (base.toNat / windowSize code * windowSize code)

/-- The interrupt line: IRQ_EN and (EVENT or BUS_ERR), with no memory of its own (R170). -/
def irqLine (s : State) : Bool := irqEn s && (s.event || s.busErr)

/-- The code of the period in use in STAT (R170). -/
def codePeriod : Period → Nat
  | .ms4 => 0
  | .ms2 => 1
  | .ms8 => 2

/-- 1 for true. -/
def bit (b : Bool) : Nat := if b then 1 else 0

/-- STAT as it reads (11.1, R170). -/
def statWord (s : State) : Word :=
  BitVec.ofNat 32 (codeExch s.exch + 16 * bit s.event + 32 * bit s.busErr + 64 * bit s.periodHeld
    + 256 * codePeriod s.period
    + 4096 * bit (linkUp s 0) + 8192 * bit (linkUp s 1) + 16384 * bit (linkUp s 2)
    + 32768 * bit (linkUp s 3))

/-- What a read of a register returns (11.1). A read changes nothing. -/
def readReg (r : Reg) (s : State) : Word :=
  match r with
  | .id => Config.idWord
  | .ctrl => s.ctrl
  | .stat => statWord s
  | .abase => maskedBase s.abase s.awin
  | .awin => s.awin.setWidth 32
  | .attn => 0
  | .faddr => s.faddr

/-! ### What the exchange area shows -/

/-- The insulation test phase a line's image shows: 0 none, 1 to 4, 5 RESTORING (R106). -/
def testPhase (s : State) (n : LineNo) : Nat :=
  match (s.link (linkOf n)).test with
  | some c => if c.line = n then (if c.step = .restoring then 5 else c.phase) else 0
  | none => 0

/-- The part-owned fields of a line's image as they now stand (11.5). -/
def imageOf (s : State) (n : LineNo) : ImageFields :=
  let r := s.line n
  { service := r.service, sup := r.sup, accepted := r.accepted, receiver := r.receiver,
    profile := r.profile, trace := r.trace, phase := testPhase s n, lost := r.lost,
    cal := r.cal, fault := r.fault }

/-- The attached line shown for a receiver; 0xFF means none (R88, 11.5). -/
def shownLine : RcvState → Nat
  | .connecting e _ _ => e.line.1
  | .listening e _ => e.line.1
  | _ => 0xFF

/-- The out reason shown for a receiver (R88). -/
def shownReason : RcvState → Nat
  | .outOfService r => codeOut r
  | _ => 0

/-- The out-requested mark of a receiver (4.1). -/
def outRequested : RcvState → Bool
  | .releasing _ _ o => o
  | .stranded _ o => o
  | _ => false

/-- The header's items below the cabinet time: the period in use and the protocol error count, each as
offset, width, value. -/
def headerLow (s : State) : List (Nat × Nat × Nat) :=
  [(0x07, 1, s.period.ms), (0x0A, 2, s.protocolErrors)]

/-- The header's items above the cabinet time, from 0x10 on: offset, width, value. -/
def headerHigh (s : State) : List (Nat × Nat × Nat) :=
  [(0x10, 4, s.changeCount.toNat)]
  ++ (allLinks.map fun l =>
        [(0x14 + 4 * l.1, 1, codeLink (s.link l).state), (0x15 + 4 * l.1, 1, (s.link l).pairCount),
         (0x16 + 4 * l.1, 1, (s.link l).revision.toNat), (0x17 + 4 * l.1, 1, 0)]).flatten
  ++ (allRcvs.map fun k =>
        [(0x24 + 4 * k.1, 1, codeRcv (s.rcv k)), (0x25 + 4 * k.1, 1, shownLine (s.rcv k)),
         (0x26 + 4 * k.1, 1, shownReason (s.rcv k)), (0x27 + 4 * k.1, 1, bit (outRequested (s.rcv k)))]).flatten
  ++ [(0x44, 1, s.waiting.length), (0x45, 1, codeUser s.gen.ctx), (0x46, 1, bit s.economy)]

/-- The items whose change marks the header (R165, R180). -/
def headerItems (s : State) : List (Nat × Nat × Nat) := headerLow s ++ headerHigh s

/-! ### Pending marks -/

/-- A step changed a part-owned field of a line's image, or an entry joined its digit queue (R165). -/
def imageChanged (before after : State) (n : LineNo) : Bool :=
  decide (imageOf before n ≠ imageOf after n)
  || decide ((before.line n).queue.length < (after.line n).queue.length)

/-- Mark an image change pending; while RUNNING it joins the rewrite list, at most once (R165). -/
def markImage (s : State) (n : LineNo) : State :=
  let s := s.modLine n fun r => { r with changePending := true }
  if s.exch = .running ∧ n ∉ s.rewriteList then { s with rewriteList := s.rewriteList ++ [n] } else s

/-- Mark an image pace pending; while RUNNING it joins the rewrite list, at most once (R165, R167). -/
def markPace (s : State) (n : LineNo) : State :=
  let s := s.modLine n fun r => { r with pacePending := true }
  if s.exch = .running ∧ n ∉ s.rewriteList then { s with rewriteList := s.rewriteList ++ [n] } else s

/-- Take lines in turn. What each one's turn changes in its image is marked before the next line's turn, so
that the lines join the rewrite list in the order in which they first change (R165). -/
def eachLine (f : State → LineNo → State) (l : List LineNo) (s : State) : State :=
  l.foldl (fun s n => if imageChanged s (f s n) n then markImage (f s n) n else f s n) s

/-- The marks that one step sets, from the state before it to the state after (R165, log 12): the
images whose fields it changed and that are not listed yet, in ascending line number, and the header. A step
that changes several lines in stages marks them as it goes, by setReceiver, eachLine, or this operation at
each stage, so that few are left to the end. -/
def markChanges (before after : State) : State :=
  let s := allLines.foldl (fun s n => if imageChanged before after n then markImage s n else s) after
  if headerItems before ≠ headerItems after ∨ before.exch ≠ after.exch then
    { s with headerPending := true }
  else s

/-! ### The end of an order -/

/-- Ten detail bytes, those not given being 0 (11.5). -/
def detail (l : List Nat) : List Byte :=
  (l.map (BitVec.ofNat 8) ++ List.replicate 10 0).take 10

/-- A block ends the order of a slot (R178): the completion falls due while the exchange is RUNNING
or STOPPING, and is not written in any other state. -/
def endOrder (s : State) (k : SlotNo) (c : Completion) : State :=
  if s.exch = .running ∨ s.exch = .stopping then
    s.modSlot k fun r => { r with flight := none, due := some c }
  else
    s.modSlot k fun r => { r with flight := none }

/-- End an order with an outcome, a reason and detail bytes, and no result buffer. -/
def finish (s : State) (k : SlotNo) (o : OrderOutcome) (r : Reason) (d : List Nat) : State :=
  endOrder s k { outcome := o, reason := r, detail := detail d, result := none }

/-- Refuse an order at its dispatch (R177). -/
def refuse (s : State) (k : SlotNo) (r : Reason) (d : List Nat) : State := finish s k .refused r d

/-- Complete an order DONE, which carries no reason (R178). -/
def complete (s : State) (k : SlotNo) (d : List Nat) : State := finish s k .done .none d

/-- Take an order into flight (R177). -/
def takeFlight (s : State) (k : SlotNo) (f : Flight) : State :=
  s.modSlot k fun r => { r with flight := some f }

/-- The two detail bytes of a 16-bit count, in the latched byte order (11.5). -/
def detail16 (s : State) (x : Nat) : List Nat := (toBytes s.latchBig 2 x).map BitVec.toNat

end Sys2Proof.Machine
end

