-- ==== Sys2Proof/Machine/Faults.lean ====
section
/-! DEFINITION. Fault records: filtered and derived values (R9, R12), the measure of a kind and the
peak (R91), fault events (R90) and restorations (R92). -/

namespace Sys2Proof.Machine

/-- A filtered value, floor(A / 16) (R9). -/
def filtered (a : Int) : Int := a / 16

/-- Filtered tip voltage. -/
def vtF (r : LineRec) : Int := filtered r.aVt

/-- Filtered ring voltage. -/
def vrF (r : LineRec) : Int := filtered r.aVr

/-- Filtered loop current. -/
def iF (r : LineRec) : Int := filtered r.aI

/-- Differential voltage (R12). -/
def vd (r : LineRec) : Int := vtF r - vrF r

/-- Sum voltage (R12). -/
def vs (r : LineRec) : Int := vtF r + vrF r

/-- The measure of a fault kind on a line's present values under thresholds (R91). -/
def measure (t : Thresholds) (k : Cls) (r : LineRec) : Int :=
  match k with
  | .foreign => max (max (vtF r) (vrF r) - t.vFpos) (t.vFneg - min (vtF r) (vrF r))
  | .ground => vs r - t.vsNom
  | .short => vd r
  | .leak => iF r
  | .none => 0
  | .opn => 0
  | .closed => 0

/-- `new` is worse than `old` for a kind: smaller for SHORT, larger for the others (R91). -/
def worse (k : Cls) (new old : Int) : Bool :=
  if k = .short then decide (new < old) else decide (old < new)

/-- The peak raised by a measure (R91). -/
def raisePeak (k : Cls) (new old : Int) : Int := if worse k new old then new else old

/-- A fault record after a fault event of a kind at a time, with the scan's measure (R90). -/
def recordFault (kind : Cls) (t : Word) (m : Int) : Option FaultRec → FaultRec
  | none =>
    { active := true, first := kind, latest := kind, occurrences := 1, firstTime := t, latestTime := t,
      peak := m }
  | some f =>
    { f with active := true, latest := kind, occurrences := satInc 255 f.occurrences, latestTime := t,
             peak := if kind = f.latest then raisePeak kind m f.peak else m }

/-- A major or minor fault event on a line at this scan (R90). -/
def faultEvent (s : State) (n : LineNo) (kind : Cls) : State :=
  let t := (s.conv n).thr
  s.modLine n fun r => { r with fault := some (recordFault kind s.time (measure t kind r) r.fault) }

/-- A restoration: an ACTIVE record becomes RESTORED (R92). -/
def restoreFault (s : State) (n : LineNo) : State :=
  s.modLine n fun r => { r with fault := r.fault.map fun f => { f with active := false } }

/-- The restoration that an acceptance of OPEN hands while the record is minor and ACTIVE (R92). -/
def restoreMinor (s : State) (n : LineNo) : State :=
  s.modLine n fun r =>
    { r with fault := r.fault.map fun f => if f.latest = .leak then { f with active := false } else f }

/-- The peak update of a classified scan while the record is ACTIVE (R91). -/
def updatePeak (s : State) (n : LineNo) : State :=
  let t := (s.conv n).thr
  s.modLine n fun r =>
    { r with fault := r.fault.map fun f =>
        if f.active then { f with peak := raisePeak f.latest (measure t f.latest r) f.peak } else f }

end Sys2Proof.Machine
end

