-- ==== Sys2Proof/Machine/Frames.lean ====
section
/-! DEFINITION. The control queue of a link: keys, placing and withdrawing frames (R140), and the
frames that recovery places (R137). -/

namespace Sys2Proof.Machine

/-- The key of a control frame; PROBE and SAMPLE are no control frames (R140). The line of a TRIM or
RELAY key is the pair's line on the link. -/
def keyOf : Frame → Option FrameKey
  | .probe => none
  | .sample _ => none
  | .trim p _ _ _ => some (.trim p)
  | .relay p _ _ => some (.relay p)
  | .tapConnect _ k => some (.tap k)
  | .tapDisconnect k => some (.tap k)
  | .tapClearAll => some .clearAll

/-- Place a frame in a queue: in place of a queued frame of the same key, else at the tail (R140). -/
def queuePlace (f : Frame) : List Frame → List Frame
  | [] => [f]
  | g :: t => if keyOf g = keyOf f then f :: t else g :: queuePlace f t

/-- Offer a control frame to a link: it is placed while the link is UP and refused otherwise
(R140). -/
def placeFrame (s : State) (l : LinkNo) (f : Frame) : State :=
  if linkUp s l then s.modLink l fun r => { r with queue := queuePlace f r.queue } else s

/-- Withdraw a queued frame; those behind it keep their order (R140). -/
def withdrawFrame (s : State) (l : LinkNo) (f : Frame) : State :=
  s.modLink l fun r => { r with queue := r.queue.erase f }

/-- Place a TRIM for a line (R107, R140). -/
def placeTrim (s : State) (n : LineNo) (range : TrimRange) (code : TrimCode) (o : TrimOwner) : State :=
  placeFrame s (linkOf n) (.trim (pairOf n) range code o)

/-- Place a RELAY for a line (R96, R140). -/
def placeRelay (s : State) (n : LineNo) (cfg : RelayCfg) (o : RelayOwner) : State :=
  placeFrame s (linkOf n) (.relay (pairOf n) cfg o)

/-- The present pairs of a link of a pair count, ascending (R137). -/
def presentPairs (count : Nat) : List PairNo := allPairs.filter fun p => decide (p.1 < count)

/-- The recovery frames of a link: TAP CLEAR ALL, a RELAY NORMAL for each present pair, a TRIM for
each present pair with its calibration record's trim (R137). -/
def recoveryFrames (s : State) (l : LinkNo) (count : Nat) : List Frame :=
  .tapClearAll
  :: ((presentPairs count).map fun p => Frame.relay p .normal .recovery)
  ++ ((presentPairs count).map fun p =>
        let c := (s.line (lineAt l p)).cal
        Frame.trim p c.range c.code .record)

end Sys2Proof.Machine
end

