-- ==== Sys2Proof/Machine/Operands.lean ====
section
/-! DEFINITION. The operands of the orders: the fields of an order slot and of a staging block, read
from their bytes in the latched byte order (11.5). -/

namespace Sys2Proof.Machine

/-- The value of `n` bytes of a block at an offset. -/
def fieldAt (big : Bool) (bytes : List Byte) (off n : Nat) : Nat :=
  ofBytes big ((bytes.drop off).take n)

/-- The controller-owned fields of an order slot as one read returned them (R177, 11.5). -/
structure OrderRead where
  bytes : List Byte
  big : Bool
  deriving DecidableEq, Repr

/-- Issue count. -/
def issueOf (o : OrderRead) : Nat := fieldAt o.big o.bytes 0x00 2

/-- Kind. -/
def kindOf (o : OrderRead) : Nat := fieldAt o.big o.bytes 0x02 1

/-- Flag bit 0: override for SET TRIM, remove on fail for RECEIVER CHECK (log 22). -/
def flagOf (o : OrderRead) : Bool := (fieldAt o.big o.bytes 0x03 1).testBit 0

/-- Line field. -/
def lineOf (o : OrderRead) : Nat := fieldAt o.big o.bytes 0x04 1

/-- Target field. -/
def targetOf (o : OrderRead) : Nat := fieldAt o.big o.bytes 0x05 1

/-- Line mask: bit n for line n. -/
def maskOf (o : OrderRead) : Nat := fieldAt o.big o.bytes 0x08 8

/-- Result offset. -/
def resultOf (o : OrderRead) : Nat := fieldAt o.big o.bytes 0x10 4

/-- A one-byte parameter; offsets are counted from 0x14. -/
def param8 (o : OrderRead) (off : Nat) : Nat := fieldAt o.big o.bytes (0x14 + off) 1

/-- A two-byte parameter; offsets are counted from 0x14. -/
def param16 (o : OrderRead) (off : Nat) : Nat := fieldAt o.big o.bytes (0x14 + off) 2

/-- A result offset is valid when it is a multiple of 64 and its 64 bytes lie in the free region
(R171). -/
def resultValid (s : State) (off : Nat) : Bool :=
  decide (off % 64 = 0) && decide (Config.freeBase ≤ off) && decide (off + 64 ≤ windowSize s.latchWin)

/-- A staging block's fields, the filter shift clamped (R126, 11.5). -/
def readProfile (big : Bool) (b : List Byte) : Profile :=
  let u8 := fun off => fieldAt big b off 1
  let u16 := fun off => fieldAt big b off 2
  let s8 := fun off => decodeInt 1 (u8 off)
  let s16 := fun off => decodeInt 2 (u16 off)
  { shift := clampShift (u8 0x00), numbering := u8 0x01, flags := u8 0x02, cls := u8 0x03,
    thr := { iOn := s16 0x04, iOff := s16 0x06, iLeak := s16 0x08, vShort := s16 0x0A,
             vsNom := s16 0x0C, vGnd := s16 0x0E, vFpos := s16 0x10, vFneg := s16 0x12 },
    hook := u16 0x14, fault := u16 0x16, restore := u16 0x18,
    breakMin := u16 0x1A, breakMax := u16 0x1C, flashMin := u16 0x1E, flashMax := u16 0x20,
    clearMin := u16 0x22, interdigit := u16 0x24,
    firstDigit := u8 0x26, dialEnd := u8 0x27,
    tone := { min := s8 0x28, max := s8 0x29, forward := u8 0x2A, reverse := u8 0x2B },
    toneOn := u16 0x2C, toneOff := u16 0x2E, quietCode := u8 0x30, pace := u8 0x31 }

end Sys2Proof.Machine
end

