-- ==== Sys2Proof/Machine/Pool.lean ====
section
/-! DEFINITION. The pool controller: the waiting list (4.2), grants (4.3), the replies to TAP frames
(4.4, 4.5), releases (R78), stranding and its end (R80, R81), LISTEN (4.8) and RECEIVER SERVICE
(4.9). -/

namespace Sys2Proof.Machine

/-! ### Waiting list -/

/-- Place an entry at the tail of its class (R71). -/
def insertTail (e : WaitEntry) (l : List WaitEntry) : List WaitEntry :=
  l.takeWhile (fun x => decide (e.cls ≤ x.cls)) ++ e :: l.dropWhile (fun x => decide (e.cls ≤ x.cls))

/-- Place an entry at the head of its class (R71). -/
def insertHead (e : WaitEntry) (l : List WaitEntry) : List WaitEntry :=
  l.takeWhile (fun x => decide (e.cls < x.cls)) ++ e :: l.dropWhile (fun x => decide (e.cls < x.cls))

/-- The entry of a line on the waiting list. -/
def entryOf (s : State) (n : LineNo) : Option WaitEntry :=
  s.waiting.find? fun e => decide (e.line = n)

/-- Remove a line from the waiting list (R72). -/
def removeWaiting (s : State) (n : LineNo) : State :=
  { s with waiting := s.waiting.filter fun e => decide (e.line ≠ n) }

/-- Set a line's receiver field; only the pool does (2.15). The change marks the line's image where it is made:
a line whose receiver is released joins the rewrite list before the lines that a grant then serves, and those
join it in the order of their grants (R165, R49, R73). -/
def setReceiver (s : State) (n : LineNo) (k : Option RcvNo) : State :=
  if (s.line n).receiver = k then s else markImage (s.modLine n fun r => { r with receiver := k }) n

/-- Change the context of the LISTEN of a slot. -/
def modListen (s : State) (t : SlotNo) (f : ListenCtx → ListenCtx) : State :=
  s.modSlot t fun r =>
    { r with flight := match r.flight with
        | some (.listen c) => some (.listen (f c))
        | x => x }

/-! ### Grants -/

/-- A receiver is FREE. -/
def isFree (s : State) (k : RcvNo) : Bool := decide (s.rcv k = .free)

/-- The receivers in the order in which the pool looks for a FREE one: from DR0 under LOWEST, after
the rotation pointer under ROTATE (R74). -/
def grantOrder (s : State) : List RcvNo :=
  if rotate s then allRcvs.map fun i => s.rotation + 1 + i else allRcvs

/-- The receiver that the next grant takes (R74). -/
def chooseRcv (s : State) : Option RcvNo := (grantOrder s).find? (isFree s)

/-- The tap of a line: its link and pair. -/
def tapOf (n : LineNo) : Tap := { link := linkOf n, pair := pairOf n }

/-- Grant receiver k to the line of an entry, which has left the list (R73). -/
def grant (s : State) (e : WaitEntry) (k : RcvNo) : State :=
  let s := s.setRcv k (.connecting e (tapOf e.line) .queued)
  let s := { s with rotation := k }
  let s := match e.tag with
    | some t => modListen s t fun c => { c with last := some k }
    | none => s
  let s := setReceiver s e.line (some k)
  placeFrame s (linkOf e.line) (.tapConnect (pairOf e.line) k)

/-- The grant test, with fuel: each round takes one FREE receiver (R73). -/
def grantLoop : Nat → State → State
  | 0, s => s
  | fuel + 1, s =>
    match s.waiting, chooseRcv s with
    | e :: rest, some k => grantLoop fuel (grant { s with waiting := rest } e k)
    | _, _ => s

/-- The grant test: while the list is non-empty and some receiver is FREE, it grants (R73). Eight
receivers give at most eight grants. -/
def grantTest (s : State) : State := grantLoop 8 s

/-- A join handed by supervision at seizure or flash (R48, R71): no effect for a line that is on the
list or holds a receiver. -/
def join (s : State) (n : LineNo) : State :=
  if (s.line n).receiver = none ∧ entryOf s n = none then
    let e : WaitEntry := { line := n, cls := (s.conv n).cls, tag := none, origin := .supervision }
    grantTest { s with waiting := insertTail e s.waiting }
  else s

/-! ### Release -/

/-- The entry that a CONNECTING or LISTENING receiver was granted from. -/
def grantedEntry : RcvState → Option WaitEntry
  | .connecting e _ _ => some e
  | .listening e _ => some e
  | _ => none

/-- The state of a receiver that is let go: FREE, or OUT_OF_SERVICE with HOST_REQUEST if out is
requested (R78, R79). -/
def freedState (out : Bool) : RcvState := if out then .outOfService .hostRequest else .free

/-- Stages 1 to 3 of a release of receiver k, without the grant test that may follow (R78). -/
def releaseRcv (s : State) (k : RcvNo) (out : Bool) : State :=
  match s.rcv k with
  | .connecting e tap ph =>
    let s := setReceiver s e.line none
    if linkUp s tap.link then
      match ph with
      | .queued => (withdrawFrame s tap.link (.tapConnect tap.pair k)).setRcv k (freedState out)
      | .sent => s.setRcv k (.releasing tap .awaitConnectAck out)
      | .guarding _ =>
        placeFrame (s.setRcv k (.releasing tap .awaitDisconnectAck out)) tap.link (.tapDisconnect k)
    else s.setRcv k (.stranded tap out)
  | .listening e tap =>
    let s := setReceiver s e.line none
    if linkUp s tap.link then
      placeFrame (s.setRcv k (.releasing tap .awaitDisconnectAck out)) tap.link (.tapDisconnect k)
    else s.setRcv k (.stranded tap out)
  | _ => s

/-- A release of receiver k, then the grant test if the receiver goes FREE (R78). -/
def release (s : State) (k : RcvNo) : State := grantTest (releaseRcv s k false)

/-- The detail of a LISTEN: digit count and last receiver (R84, 11.5). -/
def listenDetail (s : State) (c : ListenCtx) : List Nat :=
  detail16 s c.count ++ [match c.last with | some k => k.1 | none => 0xFF]

/-- The LISTEN in flight in a slot. -/
def listenOf (s : State) (t : SlotNo) : Option ListenCtx :=
  match (s.slot t).flight with
  | some (.listen c) => some c
  | _ => none

/-- End the LISTEN of a slot with an outcome (R84). -/
def finishListen (s : State) (t : SlotNo) (o : OrderOutcome) (r : Reason) : State :=
  match listenOf s t with
  | some c => finish s t o r (listenDetail s c)
  | none => s

/-- The LISTEN tag under which a line waits or holds its receiver. -/
def tagOfLine (s : State) (n : LineNo) : Option SlotNo :=
  match (s.line n).receiver with
  | some k => (grantedEntry (s.rcv k)).bind WaitEntry.tag
  | none => (entryOf s n).bind WaitEntry.tag

/-- A surrender (R49): the line's receiver is released whatever it was granted for, the line leaves
the list, and a LISTEN on the line ends ABORTED, LINE_CLEARED (R72, R84). -/
def surrender (s : State) (n : LineNo) : State :=
  let tag := tagOfLine s n
  let s := match (s.line n).receiver with
    | some k => release s k
    | none => s
  let s := removeWaiting s n
  match tag with
  | some t => finishListen s t .aborted .lineCleared
  | none => s

/-- A policy release (R49): a receiver without a LISTEN tag is released, an entry without one leaves
the list; a LISTEN is kept. -/
def policyRelease (s : State) (n : LineNo) : State :=
  match tagOfLine s n with
  | some _ => s
  | none =>
    match (s.line n).receiver with
    | some k => release s k
    | none => removeWaiting s n

/-! ### Replies to TAP frames -/

/-- The link controller takes a TAP CONNECT of receiver k for sending (R75). -/
def tapTaken (s : State) (k : RcvNo) : State :=
  match s.rcv k with
  | .connecting e tap .queued => s.setRcv k (.connecting e tap .sent)
  | _ => s

/-- The reply to a TAP CONNECT of receiver k (R76, R79). -/
def tapConnectAnswered (s : State) (k : RcvNo) (ack : Bool) : State :=
  match s.rcv k with
  | .connecting e tap .sent =>
    if ack then s.setRcv k (.connecting e tap (.guarding s.time))
    else
      let s := s.setRcv k (.outOfService .tapRefused)
      let s := setReceiver s e.line none
      grantTest { s with waiting := insertHead e s.waiting }
  | .releasing tap .awaitConnectAck out =>
    if ack then
      placeFrame (s.setRcv k (.releasing tap .awaitDisconnectAck out)) tap.link (.tapDisconnect k)
    else s.setRcv k (.outOfService .tapRefused)
  | _ => s

/-- The reply to a TAP DISCONNECT of receiver k (R79). -/
def tapDisconnectAnswered (s : State) (k : RcvNo) (ack : Bool) : State :=
  match s.rcv k with
  | .releasing tap .awaitDisconnectAck out =>
    if ack then grantTest (s.setRcv k (freedState out)) else s.setRcv k (.stranded tap out)
  | _ => s

/-- A receiver is STRANDED with its tap on link l, and its out-requested mark. -/
def strandedOn (l : LinkNo) : RcvState → Option Bool
  | .stranded tap out => if tap.link = l then some out else none
  | _ => none

/-- The reply to a recovery's TAP CLEAR ALL on link l: all receivers stranded there, then one grant
test (R81). -/
def tapClearAnswered (s : State) (l : LinkNo) (ack : Bool) : State :=
  grantTest <| allRcvs.foldl (fun s k =>
    match strandedOn l (s.rcv k) with
    | some out => s.setRcv k (if ack then freedState out else .outOfService .tapRefused)
    | none => s) s

/-- Link l is lost: receiver k, if tied to it, becomes STRANDED (R80). -/
def strandRcv (l : LinkNo) (s : State) (k : RcvNo) : State :=
  match s.rcv k with
  | .connecting e tap _ =>
    if tap.link = l then (setReceiver s e.line none).setRcv k (.stranded tap false) else s
  | .listening e tap =>
    if tap.link = l then (setReceiver s e.line none).setRcv k (.stranded tap false) else s
  | .releasing tap _ out => if tap.link = l then s.setRcv k (.stranded tap out) else s
  | _ => s

/-- Link l is lost: every receiver tied to it is stranded (R80). -/
def strandAll (s : State) (l : LinkNo) : State := allRcvs.foldl (strandRcv l) s

/-- The end of the 16 ms guard of receiver k, if it stands and has run out (R77). -/
def guardEnds (s : State) (k : RcvNo) : State :=
  match s.rcv k with
  | .connecting e tap (.guarding since) =>
    if Config.guardMs ≤ elapsed s.time since then s.startListening k (.listening e tap) else s
  | _ => s

/-! ### LISTEN -/

/-- A LISTEN is in flight on a line, waiting or served. -/
def listening (s : State) (n : LineNo) : Bool :=
  allSlots.any fun t => match listenOf s t with
    | some c => decide (c.line = n)
    | none => false

/-- The LISTEN order (R83). -/
def orderListen (s : State) (k : SlotNo) (o : OrderRead) : State :=
  match presentLine s (lineOf o) with
  | none => refuse s k .badLine []
  | some n =>
    if ¬((s.line n).service = .active ∧ (s.line n).sup = .held) then refuse s k .lineBusy []
    else if (s.line n).receiver ≠ none then refuse s k .lineBusy []
    else if listening s n then refuse s k .lineBusy []
    else
      let seconds := min (max (param16 o 0) 1) 600
      let c : ListenCtx :=
        { line := n, expiry := afterMs s.time (seconds * 1000), count := 0, last := none }
      let s := takeFlight s k (.listen c)
      let s :=
        if (entryOf s n).isSome then
          { s with waiting := s.waiting.map fun e =>
              if e.line = n then { e with tag := some k } else e }
        else
          let e : WaitEntry := { line := n, cls := (s.conv n).cls, tag := some k, origin := .listen }
          { s with waiting := insertTail e s.waiting }
      grantTest s

/-- The receiver held under the LISTEN of slot t. -/
def rcvOfTag (s : State) (t : SlotNo) : Option RcvNo :=
  allRcvs.find? fun k => decide ((grantedEntry (s.rcv k)).bind WaitEntry.tag = some t)

/-- What the end of the LISTEN of slot t does to the pool: a receiver held is released; else the tag
leaves the entry, and an entry of origin LISTEN leaves the list (R72, R84). -/
def dropListen (s : State) (t : SlotNo) : State :=
  match rcvOfTag s t with
  | some k => release s k
  | none =>
    { s with waiting := s.waiting.filterMap fun e =>
        if e.tag = some t then
          (match e.origin with
            | .listen => none
            | .supervision => some { e with tag := none })
        else some e }

/-- Expiry of the LISTEN of slot t (R84). -/
def expireListen (s : State) (t : SlotNo) : State :=
  match rcvOfTag s t with
  | some _ => finishListen (dropListen s t) t .done .none
  | none => finishListen (dropListen s t) t .failed .noReceiver

/-- The LISTEN of slot t is cancelled or stopped (R84). -/
def abortListen (s : State) (t : SlotNo) (r : Reason) : State :=
  finishListen (dropListen s t) t .aborted r

/-- A digit delivered by receiver k counts toward the LISTEN it serves (R82). -/
def countDigit (s : State) (k : RcvNo) : State :=
  match (grantedEntry (s.rcv k)).bind WaitEntry.tag with
  | some t => modListen s t fun c => { c with count := satInc Config.max16 c.count }
  | none => s

/-! ### RECEIVER SERVICE -/

/-- RECEIVER SERVICE OUT of a CONNECTING or LISTENING receiver (R86). -/
def serviceOutBusy (s : State) (k : RcvNo) (e : WaitEntry) : State :=
  let s := releaseRcv s k true
  grantTest { s with waiting := insertHead e s.waiting }

/-- The effect of RECEIVER SERVICE OUT on a receiver that is not CHECKING (R85). -/
def serviceOut (s : State) (k : RcvNo) : State :=
  match s.rcv k with
  | .free => s.setRcv k (.outOfService .hostRequest)
  | .connecting e _ _ => serviceOutBusy s k e
  | .listening e _ => serviceOutBusy s k e
  | .releasing tap ph _ => s.setRcv k (.releasing tap ph true)
  | .stranded tap _ => s.setRcv k (.stranded tap true)
  | .outOfService _ => s
  | .checking _ => s

/-- The effect of RECEIVER SERVICE IN (R85). -/
def serviceIn (s : State) (k : RcvNo) : State :=
  match s.rcv k with
  | .outOfService _ => grantTest (s.setRcv k .free)
  | _ => s

/-- A receiver is CHECKING. -/
def isChecking : RcvState → Bool
  | .checking _ => true
  | _ => false

/-- The RECEIVER SERVICE order (R85): request 0 is OUT, 1 is IN. The detail carries the receiver's service
state after the order, which a refusal leaves as it was. -/
def orderReceiverService (s : State) (k : SlotNo) (o : OrderRead) : State :=
  if h : targetOf o < 8 then
    let j : RcvNo := ⟨targetOf o, h⟩
    if param8 o 0 = 0 then
      if isChecking (s.rcv j) then refuse s k .resourceBusy [codeRcv (s.rcv j)]
      else
        let s := serviceOut s j
        complete s k [codeRcv (s.rcv j)]
    else if param8 o 0 = 1 then
      let s := serviceIn s j
      complete s k [codeRcv (s.rcv j)]
    else refuse s k .badParam [codeRcv (s.rcv j)]
  else refuse s k .badParam []

end Sys2Proof.Machine
end

