-- ==== Sys2Proof/Machine/Supervise.lean ====
section
/-! DEFINITION. The supervision engine (chapter 2): entries to its states, digit entries (R41, R159),
the three stages of an accepted scan (R23), and the delivery of a tone digit (R40). With them the
scan rate and quiet counter that entries to and departures from ON_HOOK move (R145, R147). -/

namespace Sys2Proof.Machine

/-! ### Helpers -/

/-- The call states: SEIZED, DIALLING, HELD and BREAK (2.1). -/
def isCall : Sup → Bool
  | .seized => true
  | .dialling => true
  | .held => true
  | .brk => true
  | _ => false

/-- FOREIGN, GROUND and SHORT: the major fault classes (5.1). -/
def isFaultCls : Cls → Bool
  | .short => true
  | .ground => true
  | .foreign => true
  | _ => false

/-- OPEN and LEAK: the loop is open. -/
def isOpenCls : Cls → Bool
  | .opn => true
  | .leak => true
  | _ => false

/-- CLOSED and SHORT: the line is accepted as looped (R14). -/
def isLoopCls : Cls → Bool
  | .closed => true
  | .short => true
  | _ => false

/-- The state that a break return state names. -/
def retSup : Ret → Sup
  | .seized => .seized
  | .dialling => .dialling
  | .held => .held

/-- The state to which a break of this line returns. -/
def returnState (r : LineRec) : Sup := (r.ret.map retSup).getD .held

/-- The current CLOSED run c (R15). -/
def closedRun (r : LineRec) : Nat := if r.candidate = some .closed then r.run else 0

/-- The open interval so far, b - c (2.6). -/
def openLength (r : LineRec) : Nat := r.b - closedRun r

/-- All supervision counters and the pulse count at 0, the return state removed. -/
def clearCounters (r : LineRec) : LineRec :=
  { r with b := 0, make := 0, firstDigit := 0, dialEnd := 0, pulses := 0, ret := none }

/-- The line returns to FULL rate with its quiet counter at 0 (R145). -/
def setFull (s : State) (n : LineNo) : State :=
  s.modLine n fun r => { r with rate := .full, quiet := 0 }

/-- The quiet counter is held: the line has a survey context, or is CALIBRATING or TESTING (R144). -/
def quietHeld (r : LineRec) : Bool :=
  r.survey.isSome || decide (r.service = .calibrating) || decide (r.service = .testing)

/-- The scheduler ceases to schedule a line: a SAMPLE that its link has still to send in this period is not
sent (R129, R131). -/
def unschedule (s : State) (n : LineNo) : State :=
  s.modLink (linkOf n) fun r => { r with toSample := r.toSample.filter fun p => decide (p ≠ pairOf n) }

/-- A line that was in a call state hands the pool a surrender (R49). -/
def leaveCall (s : State) (n : LineNo) (was : Sup) : State :=
  if isCall was then surrender s n else s

/-! ### Digit entries -/

/-- A completed entry joins the tail of the line's digit queue, or is lost while the queue holds 16
(R41, R158, R159). -/
def pushEntry (r : LineRec) (sym : Symbol) (src : Source) (n : Nat) (t : Word) : LineRec :=
  if Config.queueMax ≤ r.queue.length then
    { r with lost := satInc Config.max16 r.lost, lossPending := true }
  else
    { r with queue := r.queue ++ [{ symbol := sym, source := src, pulses := n, loss := r.lossPending,
                                    time := t }],
             lossPending := false }

/-- Supervision completes an entry at this cabinet time (R41). -/
def queueEntry (s : State) (n : LineNo) (sym : Symbol) (src : Source) (p : Nat) : State :=
  s.modLine n fun r => pushEntry r sym src p s.time

/-- The symbol of a pulse count under a numbering (R38). -/
def pulseSymbol (num : Numbering) (n : Nat) : Symbol :=
  if n = 0 ∨ 10 < n then .invalid
  else match num with
    | .direct => .digit ⟨n % 10, by omega⟩
    | .offset => .digit ⟨(n - 1) % 10, by omega⟩
    | .inverse => .digit ⟨(10 - n) % 10, by omega⟩

/-- The completion of a pulse digit: its four steps (R37, R39). -/
def completeDigit (s : State) (n : LineNo) : State :=
  let r := s.line n
  let p := s.conv n
  let s := queueEntry s n (pulseSymbol p.numbering r.pulses) .pulse r.pulses
  let s := s.modLine n fun r => { r with pulses := 0, dialEnd := 0 }
  if r.pulseSeen then s
  else
    let s := s.modLine n fun r => { r with pulseSeen := true }
    if p.releaseOnPulse then policyRelease s n else s

/-! ### Entries to states -/

/-- Entry to ON_HOOK (R27, R147). -/
def enterOnHook (s : State) (n : LineNo) : State :=
  let was := (s.line n).sup
  let eco := s.economy
  let s := s.modLine n fun r =>
    { clearCounters r with
        sup := .onHook, pulseSeen := false, quiet := 0,
        rate := if eco && !quietHeld r then .quiet else .full }
  let s := if (s.line n).accepted = .leak then faultEvent s n .leak else s
  leaveCall s n was

/-- Entry to LOCKOUT (R42): b becomes 0 when the loop is closed and is kept otherwise. -/
def enterLockout (s : State) (n : LineNo) : State :=
  let was := (s.line n).sup
  let s := s.modLine n fun r =>
    { r with sup := .lockout, make := 0, firstDigit := 0, dialEnd := 0, pulses := 0, ret := none,
             b := if r.accepted = .closed then 0 else r.b }
  leaveCall s n was

/-- Entry to FAULT, or a further major fault in it, with the accepted class as its kind (R43). -/
def enterFault (s : State) (n : LineNo) (kind : Cls) : State :=
  let was := (s.line n).sup
  let s := s.modLine n fun r => { clearCounters r with sup := .fault, pulseSeen := false }
  let s := setFull s n
  let s := faultEvent s n kind
  leaveCall s n was

/-- Entry to UNSENSED (R45, R7, R92, R145). -/
def enterUnsensed (s : State) (n : LineNo) : State :=
  let was := (s.line n).sup
  let s := s.modLine n fun r =>
    { clearCounters r with sup := .unsensed, pulseSeen := false, candidate := none, run := 0 }
  let s := setFull s n
  let s := restoreFault s n
  leaveCall s n was

/-- Entry to SETTLING, or to UNSENSED in its place while the link is not UP (R25, R7, R92). -/
def enterSettling (s : State) (n : LineNo) : State :=
  if linkUp s (linkOf n) then
    let was := (s.line n).sup
    let s := s.modLine n fun r =>
      { clearCounters r with
          sup := .settling, pulseSeen := false, seedPending := true, candidate := none, run := 0,
          accepted := .none }
    let s := setFull s n
    let s := restoreFault s n
    leaveCall s n was
  else enterUnsensed s n

/-- The park steps of an ACTIVE line, after its survey and trace have ended (R131 steps 2 to 6, R47,
R7). -/
def parkLine (s : State) (n : LineNo) : State :=
  let was := (s.line n).sup
  let s := s.modLine n fun r =>
    { clearCounters r with
        sup := .none, service := .parked, candidate := none, run := 0, accepted := .none }
  let s := setFull s n
  let s := restoreFault s n
  leaveCall (unschedule s n) n was

/-- A calibration or an insulation test takes a line: its service, supervision SUSPENDED with cleared
counters, any ACTIVE fault record restored, FULL rate (R47, R95, R111). -/
def suspendLine (s : State) (n : LineNo) (sv : Service) : State :=
  let s := s.modLine n fun r => { clearCounters r with sup := .suspended, service := sv }
  restoreFault (setFull s n) n

/-- The work on a line ends and the line is released to its return service (R102, R117). A release to
PARKED parks the line: the candidate is cleared and the accepted class becomes NONE (R7; log 35). -/
def releaseLine (s : State) (n : LineNo) (toActive : Bool) : State :=
  if toActive then
    enterSettling (s.modLine n fun r => { r with service := .active }) n
  else
    unschedule (s.modLine n fun r =>
      { r with service := .parked, sup := .none, candidate := none, run := 0, accepted := .none }) n

/-- A seizure, CLOSED accepted with age a in ON_HOOK (R28). -/
def seize (s : State) (n : LineNo) (a : Nat) : State :=
  let s := s.modLine n fun r => { r with sup := .seized, firstDigit := a, make := a }
  let s := setFull s n
  if (s.conv n).toneDial then join s n else s

/-- A make judged as a flash (R36). -/
def flash (s : State) (n : LineNo) : State :=
  let s := queueEntry s n .flash .hook 0
  let s := s.modLine n fun r =>
    { r with sup := .seized, ret := none, firstDigit := 0, pulseSeen := false }
  if (s.conv n).toneDial then join s n else s

/-- The break is over and the line returns to its return state. -/
def endBreak (s : State) (n : LineNo) : State :=
  s.modLine n fun r => { r with sup := returnState r, ret := none }

/-- CLOSED accepted with age m in BREAK: the make is judged on d = b - m (R35). -/
def judgeMake (s : State) (n : LineNo) (m : Nat) : State :=
  let p := s.conv n
  let d := (s.line n).b - m
  let s := s.modLine n fun r => { r with make := m }
  let s := if 0 < (s.line n).pulses ∧ p.breakMax < d then completeDigit s n else s
  if d < p.breakMin then endBreak s n
  else if d ≤ p.breakMax then
    s.modLine n fun r =>
      { r with pulses := satInc 15 r.pulses, sup := .dialling, ret := none, dialEnd := 0 }
  else if p.flashMin ≤ d ∧ d ≤ p.flashMax then flash s n
  else endBreak (queueEntry s n .invalid .hook 0) n

/-! ### The three stages of an accepted scan (R23) -/

/-- Stage 1: each counter that the state runs is raised by 1; `acc` is the accepted class before this
scan's acceptance step. A scan that starts a break in DIALLING raises the dial-end counter first, also where a
tone digit has just set it to 0 (R23, R29; R40 says 0, log 36). -/
def advanceCounters (acc : Cls) (r : LineRec) : LineRec :=
  let up16 := satInc Config.max16
  let up17 := satInc Config.max17
  match r.sup with
  | .seized => { r with make := up16 r.make, firstDigit := up17 r.firstDigit }
  | .dialling => { r with make := up16 r.make, dialEnd := up17 r.dialEnd }
  | .held => { r with make := up16 r.make }
  | .brk =>
    { r with b := up16 r.b,
             firstDigit := if r.ret = some .seized then up17 r.firstDigit else r.firstDigit }
  | .lockout => if isOpenCls acc then { r with b := up16 r.b } else r
  | .none => r
  | .settling => r
  | .onHook => r
  | .fault => r
  | .unsensed => r
  | .suspended => r

/-- The start of a break: OPEN or LEAK accepted with age a in SEIZED, DIALLING or HELD (R29). -/
def startBreak (s : State) (n : LineNo) (from_ : Ret) (a : Nat) : State :=
  s.modLine n fun r => { r with sup := .brk, ret := some from_, b := a }

/-- An acceptance of class c with age a in a state that runs a call without a break (R29). -/
def acceptInCall (s : State) (n : LineNo) (from_ : Ret) (c : Cls) (a : Nat) : State :=
  if isOpenCls c then startBreak s n from_ a
  else if isFaultCls c then enterFault s n c
  else s

/-- Stage 2: the rule of the state held applies to an acceptance of class c with age a; the accepted
class is already c (R26, R27, R29, R32, R42, R43, R44). -/
def transition (s : State) (n : LineNo) (c : Cls) (a : Nat) : State :=
  match (s.line n).sup with
  | .settling =>
    if isOpenCls c then enterOnHook s n
    else if c = .closed then s.modLine n fun r => { r with sup := .held, make := a }
    else if isFaultCls c then enterFault s n c
    else s
  | .onHook =>
    if c = .closed then seize s n a
    else if c = .leak then faultEvent s n .leak
    else if isFaultCls c then enterFault s n c
    else s
  | .seized => acceptInCall s n .seized c a
  | .dialling => acceptInCall s n .dialling c a
  | .held => acceptInCall s n .held c a
  | .brk =>
    if c = .closed then judgeMake s n a
    else if isFaultCls c then enterFault s n c
    else s
  | .lockout =>
    if c = .closed then s.modLine n fun r => { r with b := 0 }
    else if isFaultCls c then enterFault s n c
    else s
  | .fault =>
    if isFaultCls c then enterFault s n c
    else if isOpenCls c then enterOnHook (restoreFault s n) n
    else if c = .closed then enterLockout (restoreFault s n) n
    else s
  | .none => s
  | .unsensed => s
  | .suspended => s

/-- In LOCKOUT, OPEN or LEAK accepted with age a in place of CLOSED sets b to a (R42). -/
def lockoutOpen (s : State) (n : LineNo) (old c : Cls) (a : Nat) : State :=
  if (s.line n).sup = .lockout ∧ isOpenCls c ∧ old = .closed then
    s.modLine n fun r => { r with b := a }
  else s

/-- Supervision takes an acceptance: the restoration of a minor record by OPEN (R92), then the rule
of the state held. -/
def takeAcceptance (s : State) (n : LineNo) (old c : Cls) (a : Nat) : State :=
  let s := if c = .opn then restoreMinor s n else s
  if (s.line n).sup = .lockout ∧ isOpenCls c then lockoutOpen s n old c a
  else transition s n c a

/-- A long-break completion is due: BREAK, a digit in progress, b - c above break_max (R34). -/
def longBreakDue (s : State) (n : LineNo) : Bool :=
  let r := s.line n
  decide (r.sup = .brk) && decide (0 < r.pulses) && decide ((s.conv n).breakMax < openLength r)

/-- A clear is due: BREAK and b - c at or above clear_min (R33). -/
def clearDue (s : State) (n : LineNo) : Bool :=
  let r := s.line n
  decide (r.sup = .brk) && decide ((s.conv n).clearMin ≤ openLength r)

/-- A first-digit timeout is due: SEIZED, or BREAK with return state SEIZED, the counter at or above
the timeout (R30). -/
def firstDigitDue (s : State) (n : LineNo) : Bool :=
  let r := s.line n
  (decide (r.sup = .seized) || (decide (r.sup = .brk) && decide (r.ret = some .seized)))
  && decide ((s.conv n).firstDigit ≤ r.firstDigit)

/-- An interdigit completion is due: DIALLING, a digit in progress, the make counter at or above
interdigit (R37). -/
def interdigitDue (s : State) (n : LineNo) : Bool :=
  let r := s.line n
  decide (r.sup = .dialling) && decide (0 < r.pulses) && decide ((s.conv n).interdigit ≤ r.make)

/-- A dial-end timeout is due: DIALLING, the counter at or above the timeout (R31). -/
def dialEndDue (s : State) (n : LineNo) : Bool :=
  let r := s.line n
  decide (r.sup = .dialling) && decide ((s.conv n).dialEnd ≤ r.dialEnd)

/-- A clear of a LOCKOUT line is due (R42). -/
def lockoutClearDue (s : State) (n : LineNo) : Bool :=
  let r := s.line n
  decide (r.sup = .lockout) && decide ((s.conv n).clearMin ≤ openLength r)

/-- The dial-end timeout (R31). -/
def dialEndTimesOut (s : State) (n : LineNo) : State :=
  let s := if 0 < (s.line n).pulses then completeDigit s n else s
  let s := s.modLine n fun r => { r with sup := .held }
  if (s.conv n).releaseAtDialEnd then policyRelease s n else s

/-- Stage 3 in BREAK: long-break completion, then clear, then first-digit timeout (R23). -/
def limitsInBreak (s : State) (n : LineNo) : State :=
  let s := if longBreakDue s n then completeDigit s n else s
  if clearDue s n then enterOnHook s n
  else if firstDigitDue s n then enterLockout s n
  else s

/-- Stage 3 in DIALLING: interdigit completion, then dial-end timeout (R23). Where both are due on one scan, R23
tests the limits against the counters as stages 1 and 2 leave them, and R37 zeroes the dial-end counter in the
completion before. DESIGN CHOICE (log 43): dial-end is tested after that zeroing, and the line stays in DIALLING. -/
def limitsInDialling (s : State) (n : LineNo) : State :=
  let s := if interdigitDue s n then completeDigit s n else s
  if dialEndDue s n then dialEndTimesOut s n else s

/-- Stage 3: the limits of the state now held (R23). -/
def testLimits (s : State) (n : LineNo) : State :=
  match (s.line n).sup with
  | .brk => limitsInBreak s n
  | .dialling => limitsInDialling s n
  | .seized => if firstDigitDue s n then enterLockout s n else s
  | .lockout => if lockoutClearDue s n then enterOnHook s n else s
  | .none => s
  | .settling => s
  | .onHook => s
  | .held => s
  | .fault => s
  | .unsensed => s
  | .suspended => s

/-! ### Tone digits -/

/-- A tone digit delivered to a line in a call state: the entry, and the state after it (R40). -/
def toneDigit (s : State) (n : LineNo) (sym : Symbol) : State :=
  if isCall (s.line n).sup then
    let s := queueEntry s n sym .tone 0
    s.modLine n fun r =>
      if r.sup = .brk then { r with ret := some .dialling, dialEnd := 0 }
      else { r with sup := .dialling, dialEnd := 0 }
  else s

end Sys2Proof.Machine
end

