-- ==== Sys2Proof/Machine/Tone.lean ====
section
/-! DEFINITION. A tone digit receiver (chapter 3): the verdict of a block (R56, R57) and the timing
machine of QUIET, PENDING, ON and GAP (R59 to R63). -/

namespace Sys2Proof.Machine

/-- The level that a power in dBm reads as: rounded to the nearest whole dBm with ties away from zero, from the
floor of -64 to +6 (R53; 00, Arithmetic). -/
def readLevel (p : Rat) : Int := max (-64) (min (roundDiv p.num p.den) 6)

/-- The eight levels that a receiver reads at the end of a block (R53). -/
def readLevels (p : BlockPowers) : BlockLevels :=
  { l697 := readLevel p.l697, l770 := readLevel p.l770, l852 := readLevel p.l852, l941 := readLevel p.l941,
    h1209 := readLevel p.h1209, h1336 := readLevel p.h1336, h1477 := readLevel p.h1477,
    h1633 := readLevel p.h1633 }

/-- The strongest of a group of levels: its index, its level, and the second highest level, equal to
it on a tie (R56). -/
def strongest (l : List Int) : Nat × Int × Int :=
  let r := l.foldl (fun (a : Nat × Nat × Int × Int) x =>
    if a.2.2.1 < x then (a.1 + 1, a.1, x, a.2.2.1) else (a.1 + 1, a.2.1, a.2.2.1, max a.2.2.2 x))
    (0, 0, -1000, -1000)
  r.2

/-- The symbol of a row and a column of the keypad (R57). -/
def keypad (row col : Nat) : Symbol :=
  match row, col with
  | 0, 0 => .digit 1
  | 0, 1 => .digit 2
  | 0, 2 => .digit 3
  | 0, _ => .a
  | 1, 0 => .digit 4
  | 1, 1 => .digit 5
  | 1, 2 => .digit 6
  | 1, _ => .b
  | 2, 0 => .digit 7
  | 2, 1 => .digit 8
  | 2, 2 => .digit 9
  | 2, _ => .c
  | _, 0 => .star
  | _, 1 => .digit 0
  | _, 2 => .hash
  | _, _ => .d

/-- The verdict of a block on its levels and tone limits: a symbol, or none for NONE (R56, R57). -/
def verdict (t : ToneLimits) (v : BlockLevels) : Option Symbol :=
  let low := strongest [v.l697, v.l770, v.l852, v.l941]
  let high := strongest [v.h1209, v.h1336, v.h1477, v.h1633]
  let lmax := low.2.1
  let hmax := high.2.1
  if inRange t.min t.max lmax && inRange t.min t.max hmax
      && decide (lmax ≠ -64) && decide (hmax ≠ -64)
      && inRange (-t.reverse) t.forward (hmax - lmax)
      && decide (6 ≤ lmax - low.2.2) && decide (6 ≤ hmax - high.2.2) then
    some (keypad low.1 high.1)
  else none

/-- A symbol is heard in QUIET, or in PENDING in place of another: a pending run of 1, or ON at once
if tone_on is 1 (R59, R60). -/
def startPending (on : Nat) (e : Symbol) : DetState × Option Symbol :=
  if on ≤ 1 then (.on e false, some e) else (.pending e 1, none)

/-- One block end of the timing machine: the state after it, and the digit accepted if it enters ON
(R59 to R63). -/
def advanceDet (on off : Nat) (d : DetState) (v : Option Symbol) : DetState × Option Symbol :=
  match d, v with
  | .quiet, none => (.quiet, none)
  | .quiet, some e => startPending on e
  | .pending _ _, none => (.quiet, none)
  | .pending h n, some e =>
    if e = h then
      (if on ≤ n + 1 then (.on h false, some h) else (.pending h (n + 1), none))
    else startPending on e
  | .on h miss, v =>
    if v = some h then (.on h false, none)
    else if miss then (.gap 0, none)
    else (.on h true, none)
  | .gap g, none => if off ≤ g + 1 then (.quiet, none) else (.gap (g + 1), none)
  | .gap _, some _ => (.gap 0, none)

/-- A digit accepted by a LISTENING receiver k for its attached line is delivered and counted (R64,
R40, R82). -/
def deliver (s : State) (k : RcvNo) (n : LineNo) (sym : Symbol) : State :=
  countDigit (toneDigit s n sym) k

end Sys2Proof.Machine
end

