-- ==== Sys2Proof/Machine/Gen.lean ====
section
/-! DEFINITION. The tone generator (chapter 9): its channels (R148), TRACE (R150 to R154), RECEIVER
CHECK (R155 to R157), and the block end of a receiver, which may hear the generator (R51, R54). -/

namespace Sys2Proof.Machine

/-! ### Channels -/

/-- A frequency code is stored after the clamp to 3840 (R148). -/
def clampFreq (n : Nat) : Nat := min n 3840

/-- The row frequency code of a keypad symbol (R148, R57). -/
def rowCode : Symbol → Nat
  | .digit d => if d.1 = 0 then 3008 else if d.1 ≤ 3 then 2627 else if d.1 ≤ 6 then 2766 else 2894
  | .star => 3008
  | .hash => 3008
  | .a => 2627
  | .b => 2766
  | .c => 2894
  | .d => 3008
  | .flash => 0
  | .invalid => 0

/-- The column frequency code of a keypad symbol (R148, R57). -/
def colCode : Symbol → Nat
  | .digit d =>
    if d.1 = 0 then 3330
    else if d.1 % 3 = 1 then 3249
    else if d.1 % 3 = 2 then 3330
    else 3403
  | .star => 3249
  | .hash => 3403
  | .a => 3469
  | .b => 3469
  | .c => 3469
  | .d => 3469
  | .flash => 0
  | .invalid => 0

/-- The level of a level code in dBm, the floor for code 0 (R54, R148). -/
def levelDbm (n : Nat) : Int := if n = 0 then -64 else 2 * (n : Int) - 31

/-- The frequency in Hz that a code gives, exactly; a code above 3840 is taken as 3840 (R148). -/
def codeHz (n : Nat) : Rat := 1024000 / ((4096 - clampFreq n : Nat) : Rat)

/-- The code that stands nearest to a frequency, 4096 - round(1,024,000 / f) (R148). -/
def codeOfHz (f : Nat) : Nat := 4096 - (roundDiv 1024000 f).toNat

/-- The tone of a channel; a level code of 0 turns it off (R148). -/
def channelTone (c : Channel) : Option SineTone :=
  if c.level = 0 then none else some { hz := codeHz c.n, dbm := levelDbm c.level }

/-- The output of the generator: the sum of the tones of its channels (R148). -/
def genOutput (g : GenRec) : List SineTone :=
  (channelTone g.chA).toList ++ (channelTone g.chB).toList

/-- What the test tone bus carries: the generator's output under TEST_BUS, and else nothing (R148). -/
def testToneBus (s : State) : List SineTone :=
  match s.gen.output with
  | .testBus => genOutput s.gen
  | .silent => []
  | .loopback => []

/-- What the generator feeds to receiver k: its output under LOOPBACK, if the check context names the receiver,
and else nothing (R148). -/
def toneFed (s : State) (k : RcvNo) : List SineTone :=
  match s.gen.output, s.gen.ctx with
  | .loopback, .check c => if c.rcv = k then genOutput s.gen else []
  | _, _ => []

/-- What a receiver fed by loopback reads at the frequency of a code (R54). -/
def loopLevel (g : GenRec) (code : Nat) : Int :=
  if g.chA.n = code ∧ g.chA.level ≠ 0 then levelDbm g.chA.level
  else if g.chB.n = code ∧ g.chB.level ≠ 0 then levelDbm g.chB.level
  else -64

/-- The eight levels of a block heard by loopback (R54). -/
def loopLevels (g : GenRec) : BlockLevels :=
  { l697 := loopLevel g 2627, l770 := loopLevel g 2766, l852 := loopLevel g 2894,
    l941 := loopLevel g 3008, h1209 := loopLevel g 3249, h1336 := loopLevel g 3330,
    h1477 := loopLevel g 3403, h1633 := loopLevel g 3469 }

/-- Both channels at level 0 and the output SILENT (R149, R154, R157). -/
def silence (s : State) : State :=
  { s with gen := { s.gen with chA := { s.gen.chA with level := 0 },
                               chB := { s.gen.chB with level := 0 }, output := .silent } }

/-! ### TRACE -/

/-- A trace is in progress on a line, RESTORING included (R150). -/
def tracing (s : State) (n : LineNo) : Bool :=
  match s.gen.ctx with
  | .trace c => decide (c.line = n)
  | _ => false

/-- The warble rate of a code (11.5). -/
def warbleOf (code : Nat) : Option WarbleRate :=
  if code = 0 then some .hz4 else if code = 1 then some .hz8 else if code = 2 then some .hz16 else none

/-- The relay configuration of a trace (R150). -/
def traceCfg (longitudinal : Bool) : RelayCfg :=
  if longitudinal then .traceLongitudinal else .traceMetallic

/-- A line may be traced or tested: its link is UP, and it is PARKED, or ACTIVE in ON_HOOK, FAULT or
LOCKOUT (R94, R150). -/
def quietEnough (s : State) (n : LineNo) : Bool :=
  let r := s.line n
  linkUp s (linkOf n)
  && (decide (r.service = .parked)
      || (decide (r.service = .active)
          && (decide (r.sup = .onHook) || decide (r.sup = .fault) || decide (r.sup = .lockout))))

/-- A TRACE that passes its checks is taken (R150). -/
def takeTrace (s : State) (k : SlotNo) (o : OrderRead) (n : LineNo) (w : WarbleRate) : State :=
  let seconds := min (max (param16 o 8) 1) 900
  let c : TraceCtx :=
    { line := n, slot := k, na := clampFreq (param16 o 0), nb := clampFreq (param16 o 2),
      level := param8 o 4, rate := w, longitudinal := decide (param8 o 6 = 1),
      expiry := afterMs s.time (seconds * 1000), step := .relayWait, halves := 0 }
  let s := takeFlight s k .trace
  let s := { s with gen := { s.gen with ctx := .trace c } }
  let s := s.modLine n fun r => { r with trace := true }
  placeRelay s n (traceCfg c.longitudinal) .trace

/-- The TRACE order (R150). -/
def orderTrace (s : State) (k : SlotNo) (o : OrderRead) : State :=
  match presentLine s (lineOf o) with
  | none => refuse s k .badLine []
  | some n =>
    match warbleOf (param8 o 5) with
    | none => refuse s k .badParam []
    | some w =>
      if ¬(1 ≤ param8 o 4 ∧ param8 o 4 ≤ 15) ∨ 1 < param8 o 6 then refuse s k .badParam []
      else if ¬ quietEnough s n then refuse s k .lineBusy []
      else if s.gen.ctx ≠ .none then refuse s k .resourceBusy []
      else takeTrace s k o n w

/-- The whole seconds for which a trace's tone was on the pair (R152). -/
def toneSeconds (s : State) : TraceStep → Nat
  | .tone since => elapsed s.time since / 1000
  | .relayWait => 0
  | .restoring => 0

/-- The order of a trace in RELAY_WAIT or TONE completes (R152): the detail carries the end cause and
the tone's seconds. -/
def finishTrace (s : State) (c : TraceCtx) (o : OrderOutcome) (r : Reason) (endCode : Nat) : State :=
  finish s c.slot o r (endCode :: detail16 s (toneSeconds s c.step))

/-- The end of a trace in RELAY_WAIT or TONE, other than by link loss (R154). -/
def endTrace (s : State) (o : OrderOutcome) (r : Reason) (endCode : Nat) : State :=
  match s.gen.ctx with
  | .trace c =>
    if c.step = .restoring then s
    else
      let s := silence s
      let s := finishTrace s c o r endCode
      let s := placeRelay s c.line .normal .trace
      { s with gen := { s.gen with ctx := .trace { c with step := .restoring } } }
  | _ => s

/-- The trace of a line, if there is one in RELAY_WAIT or TONE, ends ABORTED (R152). -/
def abortTraceOn (s : State) (n : LineNo) (r : Reason) : State :=
  if tracing s n then endTrace s .aborted r 2 else s

/-- The trace's context is removed, its line's flag cleared and the user none (R149, R153, R154). -/
def removeTrace (s : State) (c : TraceCtx) : State :=
  let s := silence s
  let s := { s with gen := { s.gen with ctx := .none } }
  s.modLine c.line fun r => { r with trace := false }

/-- Link l is lost: a trace on one of its lines ends ABORTED, LINK_LOST before RESTORING, and its
context is removed at once (R152, R154). -/
def traceLinkLost (s : State) (l : LinkNo) : State :=
  match s.gen.ctx with
  | .trace c =>
    if linkOf c.line = l then
      let s := if c.step = .restoring then s else finishTrace s c .aborted .linkLost 2
      removeTrace s c
    else s
  | _ => s

/-- The reply to a RELAY that the trace of a line placed (R151, R154). -/
def traceRelayAnswered (s : State) (n : LineNo) (cfg : RelayCfg) (ack : Bool) : State :=
  match s.gen.ctx with
  | .trace c =>
    if c.line ≠ n then s
    else match c.step with
      | .relayWait =>
        if cfg ≠ traceCfg c.longitudinal then s
        else if ack then
          { s with gen := { chA := { n := c.na, level := c.level }, chB := { s.gen.chB with level := 0 },
                            output := .testBus,
                            ctx := .trace { c with step := .tone s.time, halves := 0 } } }
        else endTrace s .failed .none 1
      | .tone _ => s
      | .restoring => if cfg = .normal then removeTrace s c else s
  | _ => s

/-- The trace reaches its expiry (R152). -/
def traceExpires (s : State) : State :=
  match s.gen.ctx with
  | .trace c => if reached s.time c.expiry then endTrace s .done .none 0 else s
  | _ => s

/-- Half a warble cycle in 256ths of a millisecond (R151). -/
def halfCycle : WarbleRate → Nat
  | .hz4 => 32000
  | .hz8 => 16000
  | .hz16 => 8000

/-- The next warble half of a tone that began at `since` ends by the present millisecond (R151, log 27). -/
def halfDue (s : State) (c : TraceCtx) (since : Word) : Bool :=
  decide ((c.halves + 1) * halfCycle c.rate < 256 * (elapsed s.time since + 1))

/-- Half a warble cycle of a trace in TONE ends: channel A alternates between NA and NB (R151). -/
def warble (s : State) : State :=
  match s.gen.ctx with
  | .trace c =>
    match c.step with
    | .tone since =>
      if halfDue s c since then
        { s with gen := { s.gen with
            chA := { s.gen.chA with n := if c.halves % 2 = 0 then c.nb else c.na },
            ctx := .trace { c with halves := c.halves + 1 } } }
      else s
    | .relayWait => s
    | .restoring => s
  | _ => s

/-! ### RECEIVER CHECK -/

/-- The generator sets its channels for a block of a check (R156): the digit of the window in its
first on_blocks blocks, level 0 in the others. -/
def setCheckChannels (s : State) (c : CheckCtx) : State :=
  let window := c.onBlocks + c.offBlocks
  let playing := decide (c.position % window < c.onBlocks)
  match playing, c.digits[c.position / window]? with
  | true, some y =>
    { s with gen := { s.gen with chA := { n := rowCode y, level := c.level },
                                 chB := { n := colCode y, level := c.level } } }
  | _, _ =>
    { s with gen := { s.gen with chA := { s.gen.chA with level := 0 },
                                 chB := { s.gen.chB with level := 0 } } }

/-- The first `n` symbol codes of a check, if each names a keypad symbol (R155). -/
def checkDigits (o : OrderRead) : Nat → Option (List Symbol)
  | 0 => some []
  | n + 1 =>
    match checkDigits o n, keypadOf (param8 o (4 + n)) with
    | some l, some y => some (l ++ [y])
    | _, _ => none

/-- An on or off time in blocks: clamped to 40 to 200 ms, rounded up (R155). -/
def checkBlocks (ms : Nat) : Nat := ceilDiv (min (max ms 40) 200) 10

/-- The prior state that a receiver check records: the out reason, or none for FREE; no answer for a
receiver in another state (R87, R155). -/
def priorOf : RcvState → Option (Option OutReason)
  | .free => some none
  | .outOfService r => some (some r)
  | _ => none

/-- The receiver state that a recorded prior state names (R157). -/
def ofPrior : Option OutReason → RcvState
  | none => .free
  | some r => .outOfService r

/-- A RECEIVER CHECK that passes its checks is taken (R155, R87). -/
def takeCheck (s : State) (k : SlotNo) (o : OrderRead) (j : RcvNo) (digits : List Symbol)
    (prior : Option OutReason) : State :=
  let c : CheckCtx :=
    { rcv := j, slot := k, digits := digits, level := param8 o 1, removeOnFail := flagOf o,
      onBlocks := checkBlocks (param8 o 2), offBlocks := checkBlocks (param8 o 3),
      records := digits.map fun _ => none, position := 0 }
  let s := takeFlight s k .check
  let s := s.startListening j (.checking prior)
  let s := { s with gen := { s.gen with ctx := .check c, output := .loopback } }
  setCheckChannels s c

/-- The RECEIVER CHECK order (R155). -/
def orderReceiverCheck (s : State) (k : SlotNo) (o : OrderRead) : State :=
  if h : targetOf o < 8 then
    let j : RcvNo := ⟨targetOf o, h⟩
    if ¬(1 ≤ param8 o 0 ∧ param8 o 0 ≤ 16) ∨ ¬(1 ≤ param8 o 1 ∧ param8 o 1 ≤ 15) then
      refuse s k .badParam []
    else
      match checkDigits o (param8 o 0) with
      | none => refuse s k .badParam []
      | some digits =>
        match priorOf (s.rcv j) with
        | none => refuse s k .resourceBusy []
        | some prior =>
          if s.gen.ctx ≠ .none then refuse s k .resourceBusy []
          else takeCheck s k o j digits prior
  else refuse s k .badParam []

/-- How many record slots hold the symbol of their digit (R157). -/
def matched (c : CheckCtx) : Nat :=
  ((c.digits.zip c.records).filter fun x => decide (x.2 = some x.1)).length

/-- The index, from 1, of the first digit whose record slot does not match, and what was received
there; none for PASS (R157). -/
def firstMismatch (c : CheckCtx) : Option (Nat × Option Symbol) :=
  (((c.digits.zip c.records).zipIdx 1).find? fun x => decide (x.1.2 ≠ some x.1.1)).map
    fun x => (x.2, x.1.2)

/-- The detail of a check that ends with a result (R157, 11.5). -/
def checkDetail (c : CheckCtx) : List Nat :=
  match firstMismatch c with
  | none => [0, matched c, 0, 0]
  | some (i, sym) => [1, matched c, i, match sym with | some y => codeSymbol y | none => 0xFF]

/-- The state that a receiver takes when its check ends with a result: CHECK_FAILED on FAIL with
remove on fail, else the prior state (R157). -/
def afterCheck (c : CheckCtx) (prior : Option OutReason) : RcvState :=
  if c.removeOnFail ∧ (firstMismatch c).isSome then .outOfService .checkFailed else ofPrior prior

/-- Steps 1, 3 and 4 of the end of a check, the receiver moving to a state: generator silent and
without user, detection reset, grant test (R157, R52, R149). -/
def closeCheck (s : State) (c : CheckCtx) (r : RcvState) : State :=
  let s := silence s
  let s := s.setRcv c.rcv r
  let s := { s with gen := { s.gen with ctx := .none } }
  grantTest s

/-- The prior state that a CHECKING receiver holds. -/
def priorHeld : RcvState → Option OutReason
  | .checking p => p
  | _ => none

/-- The last window is complete: the check ends PASS or FAIL and its order is DONE (R157). -/
def finishCheck (s : State) (c : CheckCtx) : State :=
  let s := complete s c.slot (checkDetail c)
  closeCheck s c (afterCheck c (priorHeld (s.rcv c.rcv)))

/-- A check in flight is cancelled or stopped: the receiver returns to its prior state (R157). -/
def abortCheck (s : State) (r : Reason) : State :=
  match s.gen.ctx with
  | .check c =>
    let s := finish s c.slot .aborted r [2, matched c]
    closeCheck s c (ofPrior (priorHeld (s.rcv c.rcv)))
  | _ => s

/-- A digit accepted by the CHECKING receiver is recorded in the current window's slot, if it is empty
(R65, R156). -/
def recordDigit (c : CheckCtx) (sym : Symbol) : CheckCtx :=
  let i := c.position / (c.onBlocks + c.offBlocks)
  if c.records[i]? = some none then { c with records := c.records.set i (some sym) } else c

/-! ### The end of a block -/

/-- A block of receiver k ends now: blocks end at whole multiples of 10 ms after the entry to listening, and
each begins when the one before it ends (R51; log 20). -/
def blockDue (s : State) (k : RcvNo) : Bool :=
  match (s.det k).began with
  | some t => decide (0 < elapsed s.time t) && decide (elapsed s.time t % Config.blockMs = 0)
  | none => false

/-- The verdict of the block that ends at receiver k: NONE under the surge hold of the attached line's
link; else by the levels and the tone limits of the profile read (R53 to R58). -/
def blockVerdict (s : State) (k : RcvNo) (v : BlockLevels) : Option Symbol :=
  match s.rcv k with
  | .listening e _ =>
    if surgeAtBlock s (linkOf e.line) then none else verdict (s.conv e.line).tone v
  | .checking _ => verdict (s.profile 0).conv.tone (loopLevels s.gen)
  | _ => none

/-- The converted profile whose tone limits receiver k reads (R58). -/
def toneConv (s : State) (k : RcvNo) : Conv :=
  match s.rcv k with
  | .listening e _ => s.conv e.line
  | _ => (s.profile 0).conv

/-- The detection state and the digit accepted at this block end of receiver k (R59 to R63). -/
def blockAdvance (s : State) (k : RcvNo) (v : BlockLevels) : DetState × Option Symbol :=
  let p := toneConv s k
  advanceDet p.toneOn p.toneOff (s.det k).state (blockVerdict s k v)

/-- The block end of the CHECKING receiver: the digit accepted, the block position, and the end of the
check or the channels of the next block (R156). -/
def checkBlock (s : State) (c : CheckCtx) (accepted : Option Symbol) : State :=
  let c := match accepted with
    | some sym => recordDigit c sym
    | none => c
  let c := { c with position := c.position + 1 }
  if c.digits.length * (c.onBlocks + c.offBlocks) ≤ c.position then finishCheck s c
  else
    let s := { s with gen := { s.gen with ctx := .check c } }
    setCheckChannels s c

/-- The end of a block of receiver k: verdict, detection, delivery, and the next block (R51). -/
def blockEnds (s : State) (k : RcvNo) (v : BlockLevels) : State :=
  if blockDue s k then
    let a := blockAdvance s k v
    let next := s.setDet k { state := a.1, began := some s.time }
    match s.rcv k with
    | .listening e _ =>
      (match a.2 with
        | some sym => deliver next k e.line sym
        | none => next)
    | .checking _ =>
      (match s.gen.ctx with
        | .check c => if c.rcv = k then checkBlock next c a.2 else next
        | _ => next)
    | _ => s
  else s

end Sys2Proof.Machine
end

