-- ==== Sys2Proof/Machine/TestUnit.lean ====
section
/-! DEFINITION. The line test unit: the INSULATION TEST order (R94, R95), its phases (R96 to R101) and
its ends (R102 to R105). -/

namespace Sys2Proof.Machine

/-- The outcome of a scan (R4). An ACCEPTED scan carries its sample. -/
inductive ScanOutcome where
  | accepted (x : Sample)
  | held
  | missing
  deriving DecidableEq, Repr

/-- Change the insulation test context of a link. -/
def modTest (s : State) (l : LinkNo) (f : TestCtx → TestCtx) : State :=
  s.modLink l fun r => { r with test := r.test.map f }

/-- The relay configuration of a phase (5.4). -/
def phaseCfg (phase : Nat) : RelayCfg :=
  if phase = 1 then .feedOff else if phase = 2 then .testTR else if phase = 3 then .testTG else .testRG

/-- Start a phase: its RELAY is queued and the step is RELAY_WAIT (R95, R97). -/
def startPhase (s : State) (c : TestCtx) (phase : Nat) : State :=
  let s := s.modLink (linkOf c.line) fun r =>
    { r with test := some { c with phase := phase, step := .relayWait, settleCount := 0,
                                   dwellCount := 0, sumA := 0, sumB := 0 } }
  placeRelay s c.line (phaseCfg phase) .test

/-- An INSULATION TEST that passes its checks is taken (R95). -/
def takeTest (s : State) (k : SlotNo) (o : OrderRead) (n : LineNo) : State :=
  let c : TestCtx :=
    { line := n, slot := k, toActive := decide ((s.line n).service = .active),
      settleScans := ceilDiv (param8 o 0) s.period.ms,
      m := if param8 o 1 = 0 then 64 else param8 o 1,
      passLimit := param16 o 2, foreignLimit := param16 o 4, result := resultOf o,
      phase := 1, step := .relayWait, settleCount := 0, dwellCount := 0, sumA := 0, sumB := 0,
      phasesDone := 0, p1 := none, p2 := none, p3 := none, p4 := none,
      held := 0, missing := 0, mismatch := 0 }
  let s := takeFlight s k (.insulation (linkOf n))
  let s := suspendLine s n .testing
  startPhase s c 1

/-- The INSULATION TEST order (R94). -/
def orderInsulationTest (s : State) (k : SlotNo) (o : OrderRead) : State :=
  match presentLine s (lineOf o) with
  | none => refuse s k .badLine []
  | some n =>
    if param8 o 0 = 0 ∨ 64 < param8 o 1 ∨ 2047 < param16 o 4 then refuse s k .badParam []
    else if ¬ resultValid s (resultOf o) then refuse s k .badAddress []
    else if ¬ quietEnough s n then refuse s k .lineBusy []
    else if tracing s n ∨ (s.line n).survey.isSome then refuse s k .lineBusy []
    else if (s.link (linkOf n)).test.isSome then refuse s k .resourceBusy []
    else takeTest s k o n

/-! ### Resistance and verdict -/

/-- The insulation resistance of mean V and mean I, in kilohms, with the HIGH flag (R99). -/
def ohm (v i : Int) : OhmResult :=
  if 1 ≤ i then
    let r := 125 * v.natAbs / i.toNat
    if Config.ohmMax < r then { v := v, i := i, r := Config.ohmMax, high := true }
    else { v := v, i := i, r := r, high := false }
  else { v := v, i := i, r := Config.ohmMax, high := true }

/-- A mean voltage of phase 1 fails the test as foreign (R101). -/
def isForeign (c : TestCtx) : Bool :=
  match c.p1 with
  | some (a, b) => decide (c.foreignLimit ≤ a.natAbs) || decide (c.foreignLimit ≤ b.natAbs)
  | none => false

/-- A phase's resistance lies below the pass limit (R101). -/
def belowPass (c : TestCtx) : Option OhmResult → Bool
  | some p => decide (p.r < c.passLimit)
  | none => false

/-- The verdict of a test that ends after phase 4, or after phase 2 as a loop (R101). -/
def testVerdict (c : TestCtx) : Verdict :=
  if isForeign c then .failForeign
  else if c.phasesDone = 2 then .loop
  else if belowPass c c.p2 || belowPass c c.p3 || belowPass c c.p4 then .failInsulation
  else .pass

/-! ### The result buffer -/

/-- The fields of one of phases 2 to 4 in the result buffer; not run, they are 0 (11.5). -/
def ohmFields : Option OhmResult → List (Nat × Int)
  | some p => [(2, p.v), (2, p.i), (4, p.r)]
  | none => [(2, 0), (2, 0), (4, 0)]

/-- The HIGH flag of a phase. -/
def ohmHigh : Option OhmResult → Bool
  | some p => p.high
  | none => false

/-- The run and HIGH bits of the result buffer (11.5). -/
def runBits (c : TestCtx) : Nat :=
  bit c.p1.isSome + 2 * bit c.p2.isSome + 4 * bit c.p3.isSome + 8 * bit c.p4.isSome
  + 16 * bit (ohmHigh c.p2) + 32 * bit (ohmHigh c.p3) + 64 * bit (ohmHigh c.p4)

/-- The 64 bytes of the result buffer of a test that ends now (R105, 11.5). -/
def testResult (s : State) (c : TestCtx) (v : Verdict) : List (Nat × Int) :=
  ([(1, codeVerdict v), (1, c.phasesDone), (1, c.settleScans), (1, c.m), (4, s.time.toNat),
    (2, c.passLimit), (2, c.foreignLimit), (1, runBits c), (1, 0),
    (2, (c.p1.map Prod.fst).getD 0), (2, (c.p1.map Prod.snd).getD 0), (2, 0)] : List (Nat × Int))
  ++ ohmFields c.p2 ++ ohmFields c.p3 ++ ohmFields c.p4
  ++ ([(2, c.held), (2, c.missing), (2, c.mismatch)] : List (Nat × Int))
  ++ List.replicate 14 ((1 : Nat), (0 : Int))

/-- The order of a test ends: result buffer, outcome, reason and detail (R102, R104). -/
def completeTest (s : State) (c : TestCtx) (v : Verdict) (o : OrderOutcome) (r : Reason) : State :=
  endOrder s c.slot
    { outcome := o, reason := r, detail := detail [codeVerdict v, c.phasesDone],
      result := some (c.result, testResult s c v) }

/-- The end of a test whose link is UP: the order ends, a RELAY NORMAL is queued and the context is
RESTORING (R102, R104). -/
def endTest (s : State) (c : TestCtx) (v : Verdict) (o : OrderOutcome) (r : Reason) : State :=
  let s := completeTest s c v o r
  let s := placeRelay s c.line .normal .test
  s.modLink (linkOf c.line) fun x => { x with test := some { c with step := .restoring } }

/-- A test in flight on link l, before RESTORING, is aborted without a verdict (R104). -/
def abortTest (s : State) (l : LinkNo) (r : Reason) : State :=
  match (s.link l).test with
  | some c => if c.step = .restoring then s else endTest s c .none .aborted r
  | none => s

/-- The context of a test is removed and its line released (R102). -/
def removeTest (s : State) (l : LinkNo) (c : TestCtx) : State :=
  let s := s.modLink l fun x => { x with test := none }
  releaseLine s c.line c.toActive

/-- Link l is lost: its test ends ABORTED, LINK_LOST before RESTORING, and its context is removed at
once (R102, R104). -/
def testLinkLost (s : State) (l : LinkNo) : State :=
  match (s.link l).test with
  | some c =>
    let s := if c.step = .restoring then s else completeTest s c .none .aborted .linkLost
    removeTest s l c
  | none => s

/-! ### Replies and scans -/

/-- The reply to a RELAY that the test of a line placed (R96, R102, R103). -/
def testRelayAnswered (s : State) (n : LineNo) (cfg : RelayCfg) (ack : Bool) : State :=
  match (s.link (linkOf n)).test with
  | some c =>
    if c.line ≠ n then s
    else match c.step with
      | .relayWait =>
        if cfg ≠ phaseCfg c.phase then s
        else if ack then modTest s (linkOf n) fun c => { c with step := .settle, settleCount := 0 }
        else endTest s c .relayRefused .done .none
      | .settle => s
      | .dwell => s
      | .restoring => if cfg = .normal then removeTest s (linkOf n) c else s
  | none => s

/-- The two codes that a phase sums from a sample (R98). -/
def phaseCodes (phase : Nat) (x : Sample) : Int × Int :=
  if phase = 1 then (x.vt.toInt, x.vr.toInt)
  else if phase = 2 then (x.vt.toInt - x.vr.toInt, x.i.toInt)
  else if phase = 3 then (x.vt.toInt, x.i.toInt)
  else (x.vr.toInt, x.i.toInt)

/-- The results of a completed phase stored in the context (R97, R98, R99). -/
def storePhase (c : TestCtx) : TestCtx :=
  let a := roundDiv c.sumA c.m
  let b := roundDiv c.sumB c.m
  let c := { c with phasesDone := c.phasesDone + 1 }
  if c.phase = 1 then { c with p1 := some (a, b) }
  else if c.phase = 2 then { c with p2 := some (ohm a b) }
  else if c.phase = 3 then { c with p3 := some (ohm a b) }
  else { c with p4 := some (ohm a b) }

/-- The pair is looped at the end of phase 2 (R100). -/
def isLoop (c : TestCtx) : Bool :=
  match c.p2 with
  | some p => decide (p.r < Config.loopOhm)
  | none => false

/-- A phase is complete: the next starts, or the test ends (R97, R100, R102). -/
def phaseEnds (s : State) (c : TestCtx) : State :=
  let c := storePhase c
  if c.phase = 1 then startPhase s c 2
  else if c.phase = 2 then
    if isLoop c then endTest s c (testVerdict c) .done .none else startPhase s c 3
  else if c.phase = 3 then startPhase s c 4
  else endTest s c (testVerdict c) .done .none

/-- A sample's TESTRANGE flag matches a phase (R97). -/
def rangeMatches (phase : Nat) (x : Sample) : Bool := x.testRange == decide (phase ≠ 1)

/-- A scan that counts in SETTLE or DWELL (R97). -/
def testCounts (s : State) (l : LinkNo) (c : TestCtx) (x : Sample) : State :=
  match c.step with
  | .settle =>
    let k := c.settleCount + 1
    if c.settleScans ≤ k then
      modTest s l fun c => { c with step := .dwell, settleCount := k, dwellCount := 0, sumA := 0, sumB := 0 }
    else modTest s l fun c => { c with settleCount := k }
  | .dwell =>
    let v := phaseCodes c.phase x
    let c := { c with sumA := c.sumA + v.1, sumB := c.sumB + v.2, dwellCount := c.dwellCount + 1 }
    if c.m ≤ c.dwellCount then phaseEnds s c else modTest s l fun _ => c
  | .relayWait => s
  | .restoring => s

/-- A scan of a TESTING line (R96, R97): it counts, or is counted for the result buffer, in SETTLE and
DWELL only. -/
def testScan (s : State) (n : LineNo) (out : ScanOutcome) : State :=
  match (s.link (linkOf n)).test with
  | some c =>
    if c.line ≠ n ∨ c.step = .relayWait ∨ c.step = .restoring then s
    else match out with
      | .held => modTest s (linkOf n) fun c => { c with held := satInc Config.max16 c.held }
      | .missing => modTest s (linkOf n) fun c => { c with missing := satInc Config.max16 c.missing }
      | .accepted x =>
        if rangeMatches c.phase x then testCounts s (linkOf n) c x
        else modTest s (linkOf n) fun c => { c with mismatch := satInc Config.max16 c.mismatch }
  | none => s

/-- This scan completes a phase of the line's test (R97). -/
def phaseDue (s : State) (n : LineNo) (out : ScanOutcome) : Bool :=
  match (s.link (linkOf n)).test, out with
  | some c, .accepted x =>
    decide (c.line = n) && decide (c.step = .dwell) && rangeMatches c.phase x
    && decide (c.m ≤ c.dwellCount + 1)
  | _, _ => false

/-- An ASSIGN of a TESTING line (R132): it sets the return service, and a park aborts the test. -/
def assignTesting (s : State) (n : LineNo) (toActive : Bool) : State :=
  let s := modTest s (linkOf n) fun c => if c.line = n then { c with toActive := toActive } else c
  if toActive then s
  else match (s.link (linkOf n)).test with
    | some c => if c.line = n then abortTest s (linkOf n) .lineChanged else s
    | none => s

end Sys2Proof.Machine
end

