-- ==== Sys2Proof/Machine/Calib.lean ====
section
/-! DEFINITION. The calibration unit: the CALIBRATE order (R110, R111), the search (R112 to R114), the
commit and the ends of a line (R115 to R119), the order's tally (R120), SET TRIM (R121), and the reply
to a TRIM of the record (R109). -/

namespace Sys2Proof.Machine

/-- Change the calibration context of a line. -/
def modCal (s : State) (n : LineNo) (f : CalCtx → CalCtx) : State :=
  s.modLine n fun r => { r with calCtx := r.calCtx.map f }

/-! ### Tally -/

/-- The detail of a CALIBRATE (R120, 11.5). -/
def tallyDetail (t : Tally) : List Nat :=
  [t.taken, t.valid, t.failed, t.interrupted, t.badLine, t.overridden, t.lineBusy]

/-- A taken line has finished for the order of a slot: its tally takes the result, and the order
completes with the outcome given when this was its last unfinished line (R120). -/
def lineFinished (s : State) (k : SlotNo) (f : Tally → Tally) (o : OrderOutcome) (r : Reason) : State :=
  match (s.slot k).flight with
  | some (.calibrate t) =>
    let t := f t
    if t.taken ≤ t.valid + t.failed + t.interrupted then finish s k o r (tallyDetail t)
    else s.modSlot k fun x => { x with flight := some (.calibrate t) }
  | _ => s

/-! ### Ends of a line -/

/-- The record keeps its trim and takes a status with its cause, the decision-1 sum if decision 1 has
ended, and the time of the event (R115, R116, R118). -/
def markRecord (s : State) (n : LineNo) (c : CalCtx) (st : CalStatus) : State :=
  s.modLine n fun r =>
    { r with cal := { r.cal with status := st, s1 := c.s1.getD r.cal.s1, time := s.time } }

/-- A TRIM with the record's trim, the saved one, is queued (R115, R116, R118). -/
def restoreTrim (s : State) (n : LineNo) : State :=
  let c := (s.line n).cal
  placeTrim s n c.range c.code .record

/-- The step becomes RESTORING (R117). -/
def toRestoring (s : State) (n : LineNo) : State := modCal s n fun c => { c with step := .restoring }

/-- A line's calibration fails (R116). -/
def failLine (s : State) (n : LineNo) (c : CalCtx) (cause : FailCause) : State :=
  let s := markRecord s n c (.failed cause)
  let s := restoreTrim s n
  let s := placeRelay s n .normal .calibration
  let s := toRestoring s n
  lineFinished s c.slot (fun t => { t with failed := t.failed + 1 }) .done .none

/-- A line's calibration is aborted, other than by link loss (R118); the order, if this was its last
line, ends with the outcome given (R120). -/
def abortLine (s : State) (n : LineNo) (cause : IntCause) (o : OrderOutcome) (r : Reason) : State :=
  match (s.line n).calCtx with
  | some c =>
    if c.step = .restoring then s
    else
      let s := markRecord s n c (.interrupted cause)
      let s := restoreTrim s n
      let s := placeRelay s n .normal .calibration
      let s := toRestoring s n
      lineFinished s c.slot (fun t => { t with interrupted := t.interrupted + 1 }) o r
  | none => s

/-- A line is calibrating for the order of slot k. -/
def calibratesFor (s : State) (k : SlotNo) (n : LineNo) : Bool :=
  match (s.line n).calCtx with
  | some c => decide (c.slot = k)
  | none => false

/-- Every unfinished line of the CALIBRATE of slot k is aborted (R118). -/
def abortCalibrate (s : State) (k : SlotNo) (cause : IntCause) (r : Reason) : State :=
  allLines.foldl (fun s n => if calibratesFor s k n then abortLine s n cause .aborted r else s) s

/-- The context is removed and the line released (R117). -/
def removeCal (s : State) (n : LineNo) (c : CalCtx) : State :=
  let s := s.modLine n fun r => { r with calCtx := none }
  releaseLine s n c.toActive

/-- The link of a calibrating line is lost (R119, R117). -/
def calLinkLost (s : State) (n : LineNo) : State :=
  match (s.line n).calCtx with
  | some c =>
    let s :=
      if c.step = .restoring then s
      else
        let s := markRecord s n c (.interrupted .linkLost)
        lineFinished s c.slot (fun t => { t with interrupted := t.interrupted + 1 }) .done .none
    removeCal s n c
  | none => s

/-! ### The order -/

/-- The number of dwell samples of a dwell code (R110, 6.3). -/
def dwellOf (code : Nat) : Nat := 4 * 2 ^ code

/-- Why a line of the mask is skipped; none, it is taken (R110). -/
def skipReason (s : State) (n : LineNo) : Option Reason :=
  let r := s.line n
  if absent s n then some .badLine
  else if r.cal.status = .override then some .overridden
  else if ¬ linkUp s (linkOf n) then some .lineBusy
  else if ¬(r.service = .parked ∨ (r.service = .active ∧ r.sup = .onHook)) then some .lineBusy
  else if tracing s n ∨ r.survey.isSome then some .lineBusy
  else none

/-- The lines of a mask, ascending. -/
def maskLines (mask : Nat) : List LineNo := allLines.filter fun n => mask.testBit n.1

/-- The lines of a mask that are skipped for a reason. -/
def skipped (s : State) (mask : Nat) (r : Reason) : Nat :=
  ((maskLines mask).filter fun n => decide (skipReason s n = some r)).length

/-- The lines of a mask that are taken. -/
def takenLines (s : State) (mask : Nat) : List LineNo :=
  (maskLines mask).filter fun n => decide (skipReason s n = none)

/-- The tally of a CALIBRATE at its dispatch (R110). -/
def firstTally (s : State) (mask : Nat) : Tally :=
  { taken := (takenLines s mask).length, valid := 0, failed := 0, interrupted := 0,
    badLine := skipped s mask .badLine, overridden := skipped s mask .overridden,
    lineBusy := skipped s mask .lineBusy }

/-- A line is taken by the CALIBRATE of a slot (R111). -/
def takeLine (k : SlotNo) (o : OrderRead) (s : State) (n : LineNo) : State :=
  let r := s.line n
  let c : CalCtx :=
    { slot := k, toActive := decide (r.service = .active), savedRange := r.cal.range,
      savedCode := r.cal.code, settleScans := ceilDiv (param8 o 0) s.period.ms,
      d := dwellOf (param8 o 1), trialRange := .coarse, trialCode := 64, kept := 0, decision := 1,
      step := .frameWait true true, s1 := none, sum := 0, settleCount := 0, dwellCount := 0 }
  let s := s.modLine n fun r => { r with calCtx := some c }
  let s := suspendLine s n .calibrating
  let s := placeRelay s n .zero .calibration
  placeTrim s n .coarse 64 .calibration

/-- The CALIBRATE order (R110). -/
def orderCalibrate (s : State) (k : SlotNo) (o : OrderRead) : State :=
  let mask := maskOf o
  match maskLines mask with
  | [] => refuse s k .badParam []
  | first :: _ =>
    if param8 o 0 = 0 ∨ 3 < param8 o 1 then refuse s k .badParam []
    else
      let t := firstTally s mask
      if t.taken = 0 then refuse s k ((skipReason s first).getD .lineBusy) (tallyDetail t)
      else (takenLines s mask).foldl (takeLine k o) (takeFlight s k (.calibrate t))

/-! ### The search -/

/-- A decision begins: its TRIM is queued and the step is FRAME_WAIT (R113, R114). -/
def startDecision (s : State) (n : LineNo) (c : CalCtx) : State :=
  let s := s.modLine n fun r =>
    { r with calCtx := some { c with step := .frameWait false true, sum := 0, settleCount := 0,
                                     dwellCount := 0 } }
  placeTrim s n c.trialRange c.trialCode .calibration

/-- A code bit set in a code (R114). -/
def withBit (code : TrimCode) (b : Nat) : TrimCode := code ||| BitVec.ofNat 7 (2 ^ b)

/-- The end of decision 1 (R113). -/
def rangeDecision (s : State) (n : LineNo) (c : CalCtx) : State :=
  let c := { c with s1 := some c.sum }
  if 100 * c.d < c.sum.natAbs then
    failLine (s.modLine n fun r => { r with calCtx := some c }) n c .outOfRange
  else
    startDecision s n
      { c with trialRange := if c.sum.natAbs ≤ 20 * c.d then .fine else .coarse,
               trialCode := 64, kept := 0, decision := 2 }

/-- The code kept after a decision on a bit: the trial code if the sum is above 0 (R114). -/
def keptCode (c : CalCtx) : TrimCode := if 0 < c.sum then c.trialCode else c.kept

/-- The end of one of decisions 2 to 8 (R114): the next decision, or the commit (R115). -/
def bitDecision (s : State) (n : LineNo) (c : CalCtx) : State :=
  let k := keptCode c
  if c.decision < 8 then
    startDecision s n
      { c with kept := k, decision := c.decision + 1, trialCode := withBit k (7 - c.decision) }
  else
    let s := s.modLine n fun r =>
      { r with calCtx := some { c with kept := k, trialCode := k, step := .commit } }
    let s := placeTrim s n c.trialRange k .calibration
    placeRelay s n .normal .calibration

/-- The end of a decision (R113, R114). -/
def decisionEnds (s : State) (n : LineNo) (c : CalCtx) : State :=
  if c.decision = 1 then rangeDecision s n c else bitDecision s n c

/-- A scan that counts toward a decision (R112). -/
def calCounts (s : State) (n : LineNo) (c : CalCtx) (x : Sample) : State :=
  match c.step with
  | .settle =>
    let k := c.settleCount + 1
    if c.settleScans ≤ k then
      modCal s n fun c => { c with step := .dwell, settleCount := k, sum := 0, dwellCount := 0 }
    else modCal s n fun c => { c with settleCount := k }
  | .dwell =>
    let c := { c with sum := c.sum + x.i.toInt, dwellCount := c.dwellCount + 1 }
    if c.d ≤ c.dwellCount then decisionEnds s n c else modCal s n fun _ => c
  | .frameWait _ _ => s
  | .commit => s
  | .restoring => s

/-- A scan of a CALIBRATING line: it counts when it is ACCEPTED with TESTRANGE clear (R112). -/
def calScan (s : State) (n : LineNo) (out : ScanOutcome) : State :=
  match (s.line n).calCtx, out with
  | some c, .accepted x => if x.testRange then s else calCounts s n c x
  | _, _ => s

/-- This scan ends a decision of the line's calibration (R112). -/
def decisionDue (s : State) (n : LineNo) (out : ScanOutcome) : Bool :=
  match (s.line n).calCtx, out with
  | some c, .accepted x =>
    decide (c.step = .dwell) && !x.testRange && decide (c.d ≤ c.dwellCount + 1)
  | _, _ => false

/-! ### Replies -/

/-- A frame of FRAME_WAIT is ACKed: when it was the last awaited, the step becomes SETTLE (R112). -/
def frameAcked (c : CalCtx) (relay trim : Bool) : CalCtx :=
  if relay || trim then { c with step := .frameWait relay trim }
  else { c with step := .settle, settleCount := 0 }

/-- The reply to a RELAY that the calibration of a line placed (R112, R116, R117). -/
def calRelayAnswered (s : State) (n : LineNo) (cfg : RelayCfg) (ack : Bool) : State :=
  match (s.line n).calCtx with
  | some c =>
    (match c.step with
      | .frameWait true trim =>
        if cfg ≠ .zero then s
        else if ack then modCal s n fun c => frameAcked c false trim
        else failLine s n c .frontEndRefused
      | .frameWait false _ => s
      | .settle => s
      | .dwell => s
      | .commit => s
      | .restoring => if cfg = .normal then removeCal s n c else s)
  | none => s

/-- The reply to the commit TRIM (R115). -/
def commitAnswered (s : State) (n : LineNo) (c : CalCtx) (ack : Bool) : State :=
  if ack then
    let s := s.modLine n fun r =>
      { r with cal := { range := c.trialRange, code := c.trialCode, status := .valid,
                        s1 := c.s1.getD r.cal.s1, time := s.time } }
    let s := toRestoring s n
    lineFinished s c.slot (fun t => { t with valid := t.valid + 1 }) .done .none
  else
    let s := markRecord s n c (.failed .frontEndRefused)
    let s := restoreTrim s n
    let s := toRestoring s n
    lineFinished s c.slot (fun t => { t with failed := t.failed + 1 }) .done .none

/-- The reply to a TRIM that the calibration of a line placed (R112, R115, R116, R117). -/
def calTrimAnswered (s : State) (n : LineNo) (ack : Bool) : State :=
  match (s.line n).calCtx with
  | some c =>
    (match c.step with
      | .frameWait relay true =>
        if ack then modCal s n fun c => frameAcked c relay false
        else failLine s n c .frontEndRefused
      | .commit => commitAnswered s n c ack
      | .frameWait _ false => s
      | .settle => s
      | .dwell => s
      | .restoring => s)
  | none => s

/-- The reply to a TRIM sent outside a calibration: a NAK makes the record FAILED (R109), also where a CALIBRATE
has taken the line since the TRIM was sent (R109 against the last words of R108; log 41). -/
def recordTrimAnswered (s : State) (n : LineNo) (ack : Bool) : State :=
  if ack then s
  else s.modLine n fun r =>
    { r with cal := { r.cal with status := .failed .frontEndRefused, time := s.time } }

/-! ### SET TRIM and ASSIGN -/

/-- The trim range of a code (11.5). -/
def rangeOf (code : Nat) : Option TrimRange :=
  if code = 0 then some .fine else if code = 1 then some .coarse else none

/-- The SET TRIM order (R121). -/
def orderSetTrim (s : State) (k : SlotNo) (o : OrderRead) : State :=
  match presentLine s (lineOf o) with
  | none => refuse s k .badLine []
  | some n =>
    match rangeOf (param8 o 0) with
    | none => refuse s k .badParam []
    | some range =>
      if 127 < param8 o 1 then refuse s k .badParam []
      else if (s.line n).service = .calibrating then refuse s k .lineBusy []
      else
        let code : TrimCode := BitVec.ofNat 7 (param8 o 1)
        let s := s.modLine n fun r =>
          { r with cal := { r.cal with range := range, code := code,
                                       status := if flagOf o then .override else .none,
                                       time := s.time } }
        let s := placeTrim s n range code .record
        complete s k [codeRange range, code.toNat]

/-- An ASSIGN of a CALIBRATING line (R132): it sets the return service, and a park aborts an
unfinished calibration. -/
def assignCalibrating (s : State) (n : LineNo) (toActive : Bool) : State :=
  let s := modCal s n fun c => { c with toActive := toActive }
  if toActive then s else abortLine s n .lineChanged .done .none

end Sys2Proof.Machine
end

