-- ==== Sys2Proof/Machine/Measure.lean ====
section
/-! DEFINITION. The measurement unit: the scan outcome and the surge hold (R4, R5), the filter (R8, R9),
classification (R13, R14), candidates and acceptance (R15 to R17), SURVEY (R18 to R21); with it the
quiet scanning that a scan drives (R144, R145, R147), and the whole of one scan of a line. -/

namespace Sys2Proof.Machine

/-! ### Filter and classification -/

/-- An accumulator after an ACCEPTED sample: seeded with 16 times the code (R8), or stepped toward it
by the difference over 2^k, rounded down (R9). -/
def stepAcc (seed : Bool) (k : Nat) (a x : Int) : Int :=
  if seed then 16 * x else a + (16 * x - a) / (2 ^ k : Nat)

/-- The filter step of an ACCEPTED scan at a cabinet time (R8, R9, R167). -/
def filterStep (k : Nat) (t : Word) (x : Sample) (r : LineRec) : LineRec :=
  { r with aVt := stepAcc r.seedPending k r.aVt x.vt.toInt,
           aVr := stepAcc r.seedPending k r.aVr x.vr.toInt,
           aI := stepAcc r.seedPending k r.aI x.i.toInt,
           seedPending := false, measTime := t }

/-- The loop current threshold, chosen by the accepted class (R14). -/
def iThr (t : Thresholds) (accepted : Cls) : Int := if isLoopCls accepted then t.iOff else t.iOn

/-- The raw class of a line's filtered values (R13). -/
def rawClass (t : Thresholds) (r : LineRec) : Cls :=
  let i := iThr t r.accepted
  if t.vFpos < max (vtF r) (vrF r) ∨ min (vtF r) (vrF r) < t.vFneg then .foreign
  else if i ≤ iF r ∧ vd r ≤ t.vShort then .short
  else if i ≤ iF r then .closed
  else if t.vGnd ≤ vs r - t.vsNom then .ground
  else if t.iLeak ≤ iF r then .leak
  else .opn

/-- A candidate class lies in the group of OPEN and LEAK (R15). -/
def candidateOpen : Option Cls → Bool
  | some c => isOpenCls c
  | none => false

/-- The candidate update with the raw class of an ACCEPTED scan (R15). -/
def updateCandidate (raw : Cls) (r : LineRec) : LineRec :=
  if raw = r.accepted then { r with candidate := none, run := 0 }
  else if isLoopCls r.accepted && isOpenCls raw && candidateOpen r.candidate then
    { r with candidate := some raw, run := satInc Config.max16 r.run }
  else if r.candidate = some raw then { r with run := satInc Config.max16 r.run }
  else { r with candidate := some raw, run := 1 }

/-- The persistence required for a transition (R16). -/
def persistence (p : Conv) (a c : Cls) : Nat :=
  if isFaultCls c then p.fault
  else if isFaultCls a then p.restore
  else if a = .none then p.hook
  else if isOpenCls a && isOpenCls c then p.fault
  else p.hook

/-- The candidate accepted at this scan, if its run has reached the persistence (R16). -/
def acceptedNow (p : Conv) (r : LineRec) : Option Cls :=
  match r.candidate with
  | some c => if persistence p r.accepted c ≤ r.run then some c else none
  | none => none

/-- Stages 1 to 3 of an acceptance (R17). -/
def acceptClass (c : Cls) (r : LineRec) : LineRec :=
  { r with accepted := c, age := r.run, candidate := none, run := 0 }

/-! ### Quiet scanning -/

/-- The quiet delay in scans in force; none is "never" (R144, R147). -/
def quietDelay (s : State) (n : LineNo) : Option Nat :=
  if s.economy then some 0 else (s.conv n).quiet

/-- The quiet counter has reached the delay. -/
def delayReached (delay : Option Nat) (q : Nat) : Bool :=
  match delay with
  | some x => decide (x ≤ q)
  | none => false

/-- The line's quiet counter is raised by an ACCEPTED scan of a raw class: ON_HOOK at FULL rate, OPEN or
LEAK, not held (R144). -/
def quietRaised (r : LineRec) (raw : Cls) : Bool :=
  decide (r.sup = .onHook) && decide (r.rate = .full) && isOpenCls raw && !quietHeld r

/-- The scheduler takes the raw class of an ACCEPTED scan (R144, R145, R147, log 17). -/
def quietScan (s : State) (n : LineNo) (raw : Cls) : State :=
  if ¬ isOpenCls raw then setFull s n
  else if quietRaised (s.line n) raw then
    let q := satInc Config.quietMax (s.line n).quiet
    s.modLine n fun r =>
      { r with quiet := q, rate := if delayReached (quietDelay s n) q then .quiet else .full }
  else s

/-! ### SURVEY -/

/-- The SURVEY order (R18). -/
def orderSurvey (s : State) (k : SlotNo) (o : OrderRead) : State :=
  match presentLine s (lineOf o) with
  | none => refuse s k .badLine (detail16 s 0)
  | some n =>
    let r := s.line n
    if ¬ resultValid s (resultOf o) then refuse s k .badAddress (detail16 s 0)
    else if ¬(r.service = .active ∧ r.sup ≠ .suspended ∧ r.sup ≠ .unsensed) then
      refuse s k .lineBusy (detail16 s 0)
    else if r.survey.isSome then refuse s k .lineBusy (detail16 s 0)
    else
      let c : SurveyCtx :=
        { slot := k, n := if param8 o 0 = 0 then 256 else param8 o 0, result := resultOf o,
          stats := none, accepted := 0, held := 0, missing := 0, overrange := 0 }
      let s := takeFlight s k (.survey n)
      setFull (s.modLine n fun r => { r with survey := some c }) n

/-- A code added to the statistics of its quantity; the first sets both bounds (R19). -/
def addStat (x : Int) : Option SurveyStat → SurveyStat
  | none => { min := x, max := x, sum := x }
  | some t => { min := Min.min t.min x, max := Max.max t.max x, sum := t.sum + x }

/-- A reply is overrange: its flag is set or a code stands at a converter limit (R2). -/
def overrange (x : Sample) : Bool :=
  let limit := fun (c : Code) => decide (c.toInt = -2048) || decide (c.toInt = 2047)
  x.overrange || limit x.vt || limit x.vr || limit x.i

/-- An ACCEPTED scan's codes taken into a survey (R19). -/
def surveySample (x : Sample) (c : SurveyCtx) : SurveyCtx :=
  { c with
      stats := some (addStat x.vt.toInt (c.stats.map fun t => t.1),
                     addStat x.vr.toInt (c.stats.map fun t => t.2.1),
                     addStat x.i.toInt (c.stats.map fun t => t.2.2)),
      accepted := c.accepted + 1,
      overrange := if overrange x then satInc Config.max16 c.overrange else c.overrange }

/-- A scan's outcome taken into a survey (R19). -/
def surveyTake (out : ScanOutcome) (c : SurveyCtx) : SurveyCtx :=
  match out with
  | .accepted x => surveySample x c
  | .held => { c with held := satInc Config.max16 c.held }
  | .missing => { c with missing := satInc Config.max16 c.missing }

/-- Minimum, maximum and mean of a quantity in the result buffer (R20). -/
def statFields (n : Nat) (t : SurveyStat) : List (Nat × Int) :=
  [(2, t.min), (2, t.max), (2, roundDiv t.sum n)]

/-- The 64 bytes of a survey's result buffer (R20, 11.5). -/
def surveyResult (r : LineRec) (c : SurveyCtx) : List (Nat × Int) :=
  ([(2, c.n), (1, codeCls r.accepted), (1, 0)] : List (Nat × Int))
  ++ (match c.stats with
      | some t => statFields c.n t.1 ++ statFields c.n t.2.1 ++ statFields c.n t.2.2
      | none => List.replicate 9 ((2 : Nat), (0 : Int)))
  ++ ([(2, vtF r), (2, vrF r), (2, iF r), (2, c.held), (2, c.missing), (2, c.overrange)]
      : List (Nat × Int))
  ++ List.replicate 30 ((1 : Nat), (0 : Int))

/-- The Nth ACCEPTED scan is reached: the survey completes (R20). -/
def completeSurvey (s : State) (n : LineNo) (c : SurveyCtx) : State :=
  let s := endOrder s c.slot
    { outcome := .done, reason := .none, detail := detail (detail16 s c.accepted),
      result := some (c.result, surveyResult (s.line n) c) }
  s.modLine n fun r => { r with survey := none }

/-- A scan of a surveyed line (R19, R20). -/
def surveyScan (s : State) (n : LineNo) (out : ScanOutcome) : State :=
  match (s.line n).survey with
  | some c =>
    let c := surveyTake out c
    if c.n ≤ c.accepted then completeSurvey s n c
    else s.modLine n fun r => { r with survey := some c }
  | none => s

/-- This scan completes the line's survey (R20). -/
def surveyDue (s : State) (n : LineNo) (out : ScanOutcome) : Bool :=
  match (s.line n).survey, out with
  | some c, .accepted _ => decide (c.n ≤ c.accepted + 1)
  | _, _ => false

/-- A survey in flight ends without completion (R21). -/
def abortSurvey (s : State) (n : LineNo) (r : Reason) : State :=
  match (s.line n).survey with
  | some c =>
    let s := finish s c.slot .aborted r (detail16 s c.accepted)
    s.modLine n fun x => { x with survey := none }
  | none => s

/-! ### One scan of an ACTIVE line -/

/-- The filter and the raw class of an ACCEPTED scan, with the candidate, the peak and the quiet
counter that follow from it (R8 to R15, R91, R144, R145; logs 17, 18). -/
def scanMeasure (s : State) (n : LineNo) (x : Sample) : State :=
  let p := s.conv n
  let s := s.modLine n (filterStep p.shift s.time x)
  let raw := rawClass p.thr (s.line n)
  let s := s.modLine n (updateCandidate raw)
  let s := updatePeak s n
  quietScan s n raw

/-- Stages 1 and 2 of supervision on an ACCEPTED scan, with the acceptance made at it (R16, R17, R23);
an acceptance of CLOSED or SHORT on a traced line ends the trace (R152), before supervision acts on it
(log 37). -/
def scanAccept (s : State) (n : LineNo) : State :=
  let old := (s.line n).accepted
  let s := s.modLine n (advanceCounters old)
  match acceptedNow (s.conv n) (s.line n) with
  | some c =>
    let a := (s.line n).run
    let s := s.modLine n (acceptClass c)
    let s := if isLoopCls c then abortTraceOn s n .loopDetected else s
    takeAcceptance s n old c a
  | none => s

/-- An ACCEPTED scan of an ACTIVE line up to and with stage 2 of supervision (R6). -/
def scanFront (s : State) (n : LineNo) (x : Sample) : State := scanAccept (scanMeasure s n x) n

/-- An ACCEPTED scan of an ACTIVE line: measurement, supervision's three stages, and the survey
(R6, R19, R23). -/
def activeScan (s : State) (n : LineNo) (x : Sample) : State :=
  surveyScan (testLimits (scanFront s n x) n) n (.accepted x)

/-! ### Scan outcomes -/

/-- A SURGE-flagged reply starts or restarts the surge hold of its link (R5). -/
def startSurge (s : State) (l : LinkNo) : State :=
  s.modLink l fun r => { r with surgeTime := s.time, surgeOn := true }

/-- The surge hold after a SAMPLE-REPLY (R5). -/
def surgeStep (s : State) (l : LinkNo) (x : Sample) : State :=
  if x.surge then startSurge s l else s

/-- The outcome of a SAMPLE-REPLY of a line, the surge hold being as the reply leaves it (R3, R4). -/
def replyOutcome (s : State) (n : LineNo) (x : Sample) : ScanOutcome :=
  if x.surge then .held
  else if surgeInForce s (linkOf n) then .held
  else if x.testRange ∧ (s.line n).service ≠ .testing then .missing
  else .accepted x

/-- A scan of a line with its outcome, routed by the line's service (R1, R6). -/
def routeScan (s : State) (n : LineNo) (out : ScanOutcome) : State :=
  match (s.line n).service with
  | .parked => s
  | .active =>
    (match out with
      | .accepted x => activeScan s n x
      | .held => surveyScan s n .held
      | .missing => surveyScan s n .missing)
  | .calibrating => calScan s n out
  | .testing => testScan s n out

/-- A SAMPLE-REPLY taken for a line (R1, R4, R5). -/
def takeSample (s : State) (n : LineNo) (x : Sample) : State :=
  let s := surgeStep s (linkOf n) x
  routeScan s n (replyOutcome s n x)

/-- A scan without a reply: MISSING (R4). -/
def missScan (s : State) (n : LineNo) : State := routeScan s n .missing

end Sys2Proof.Machine
end

