-- ==== Sys2Proof/Machine/Links.lean ====
section
/-! DEFINITION. The link controllers and the scan scheduler (chapter 8): sending frames (R141, R143),
the start of a scan period (R143), replies and timeouts (R134, R138), probes (R136, R138), recovery
(R137) and loss (R139). -/

namespace Sys2Proof.Machine

/-! ### Scheduling -/

/-- A line is present, in a sampled service and not UNSENSED (R143). -/
def serviced (s : State) (n : LineNo) : Bool :=
  let r := s.line n
  !absent s n
  && (decide (r.service = .calibrating) || decide (r.service = .testing)
      || (decide (r.service = .active) && decide (r.sup ≠ .unsensed)))

/-- The restored mark of a line's pair (R137). -/
def restoredMark (s : State) (n : LineNo) : Bool :=
  (s.link (linkOf n)).restored[(pairOf n).1]'(pairOf n).2

/-- A line may have a scan: present, in a sampled service, not UNSENSED, its pair's restored mark set
(R143). -/
def eligible (s : State) (n : LineNo) : Bool := serviced s n && restoredMark s n

/-- A line's scan rate gives it a scan at a period count (R143). -/
def rateDue (s : State) (n : LineNo) : Bool :=
  match (s.line n).rate with
  | .full => true
  | .quiet => decide (s.periodCount.toNat % 16 = n.1 % 16)

/-- The pairs of a link that the scheduler gives it for the period that starts. The restored marks are
looked at when a SAMPLE's turn comes, after the period's control exchanges (R143, 8.9; log 14). -/
def periodPairs (s : State) (l : LinkNo) : List PairNo :=
  allPairs.filter fun p => serviced s (lineAt l p) && rateDue s (lineAt l p)

/-! ### Sending -/

/-- Send a frame: an exchange begins (R134). -/
def sendFrame (s : State) (l : LinkNo) (f : Frame) : State :=
  s.modLink l fun r => { r with exchange := some f }

/-- Send a PROBE (R136, R138). -/
def sendProbe (s : State) (l : LinkNo) : State :=
  s.modLink l fun r => { r with exchange := some .probe, probeTime := s.time }

/-- The block that placed a control frame is told that it is taken for sending (R141, R75). -/
def frameTaken (s : State) : Frame → State
  | .tapConnect _ k => tapTaken s k
  | .probe => s
  | .sample _ => s
  | .trim _ _ _ _ => s
  | .relay _ _ _ => s
  | .tapDisconnect _ => s
  | .tapClearAll => s

/-- Send a control frame as one of the period's four exchanges (R141). -/
def sendControl (s : State) (l : LinkNo) (f : Frame) : State :=
  s.modLink l fun r => { r with exchange := some f, controlMade := r.controlMade + 1 }

/-- Send the SAMPLE of the next scheduled line of the period, if one is left (R143). -/
def sendSample (s : State) (l : LinkNo) : State :=
  let left := (s.link l).toSample.dropWhile fun p => !eligible s (lineAt l p)
  match left with
  | p :: rest => s.modLink l fun r => { r with exchange := some (.sample p), toSample := rest }
  | [] => s.modLink l fun r => { r with toSample := [] }

/-- The control phase of the period is over, and the SAMPLE frames follow (R141, log 15). -/
def endControl (s : State) (l : LinkNo) : State :=
  sendSample (s.modLink l fun r => { r with controlOver := true }) l

/-- The next exchange of an UP link that has none outstanding: the retry frame, then frames from the
head of the queue, at most four in the period, then the SAMPLE frames (R141, R143). -/
def advanceLink (s : State) (l : LinkNo) : State :=
  let r := s.link l
  if r.state = .up ∧ r.exchange = none then
    if r.controlOver ∨ Config.controlMax ≤ r.controlMade then endControl s l
    else
      match r.retry, r.queue with
      | some f, _ => sendControl (s.modLink l fun r => { r with retry := none }) l f
      | none, f :: rest =>
        frameTaken (sendControl (s.modLink l fun r => { r with queue := rest }) l f) f
      | none, [] => endControl s l
  else s

/-! ### The start of a scan period -/

/-- The scans of a link whose SAMPLE was not sent before the next period starts are MISSING, without a
timeout (R143). -/
def missUnsent (s : State) (l : LinkNo) : State :=
  ((s.link l).toSample.filter fun p => eligible s (lineAt l p)).foldl
    (fun s p => missScan s (lineAt l p)) s

/-- The period of an UP link starts (R141, R143). -/
def startLinkPeriod (s : State) (l : LinkNo) : State :=
  if linkUp s l then
    let s := missUnsent s l
    let pairs := periodPairs s l
    let s := s.modLink l fun r =>
      { r with controlMade := 0, controlOver := false, toSample := pairs }
    advanceLink s l
  else s

/-- A scan period begins now: the cabinet time is a multiple of the period in use, and the period in
progress, which ran at the period in use when it began, has come to its end (R142). -/
def periodStarts (s : State) : Bool :=
  decide (s.time.toNat % s.period.ms = 0) && reached s.time s.periodEnd

/-- A scan period starts: the period count advances, then every UP link sends (R142, R143). -/
def startPeriod (s : State) : State :=
  if periodStarts s then
    allLinks.foldl startLinkPeriod
      { s with periodCount := s.periodCount + 1, periodEnd := afterMs s.time s.period.ms }
  else s

/-! ### Loss -/

/-- The link record at the loss of the link (R139, R136). -/
def lostRecord (t : Word) (r : LinkRec) : LinkRec :=
  { r with state := .lost, failRun := 0, queue := [], retry := none,
           restored := Vector.replicate 16 false, surgeOn := false, exchange := some .probe,
           probeTime := t, controlOver := true, toSample := [] }

/-- An ACTIVE line of a lost link enters UNSENSED (R45, R139). -/
def unsenseLine (s : State) (n : LineNo) : State :=
  if (s.line n).service = .active then enterUnsensed s n else s

/-- Loss of a link, in the stages of R139; the images that each stage changes are marked before the next
(R165). -/
def linkLost (s : State) (l : LinkNo) : State :=
  let s := s.modLink l (lostRecord s.time)
  let s := eachLine unsenseLine (linesOf l) s
  let s := strandAll s l
  let s := eachLine calLinkLost (linesOf l) s
  let s := markChanges s (testLinkLost s l)
  let s := markChanges s (traceLinkLost s l)
  let s := (linesOf l).foldl (fun s n => abortSurvey s n .linkLost) s
  (linesOf l).foldl setFull s

/-! ### Timeouts -/

/-- The exchange of a link ends, by a reply or a timeout (R134). -/
def endExchange (s : State) (l : LinkNo) : State :=
  s.modLink l fun r => { r with exchange := none, idleTime := s.time }

/-- The failure run of an UP link rises by a timeout, and reaching 3 loses the link; else the link goes
on (R138). -/
def raiseFailRun (s : State) (l : LinkNo) : State :=
  let s := s.modLink l fun r => { r with failRun := r.failRun + 1 }
  if Config.failMax ≤ (s.link l).failRun then linkLost s l else advanceLink s l

/-- What a timeout does with its frame: a SAMPLE's scan is MISSING, a control frame becomes the retry
frame and ends the control exchanges of the period (R134, R141). -/
def frameTimedOut (s : State) (l : LinkNo) (f : Frame) : State :=
  match f with
  | .sample p => missScan s (lineAt l p)
  | .probe => s
  | .trim _ _ _ _ => s.modLink l fun r => { r with retry := some f, controlOver := true }
  | .relay _ _ _ => s.modLink l fun r => { r with retry := some f, controlOver := true }
  | .tapConnect _ _ => s.modLink l fun r => { r with retry := some f, controlOver := true }
  | .tapDisconnect _ => s.modLink l fun r => { r with retry := some f, controlOver := true }
  | .tapClearAll => s.modLink l fun r => { r with retry := some f, controlOver := true }

/-- The exchange of a link times out (R134, R136, R138, R141; log 16). -/
def timeOut (s : State) (l : LinkNo) : State :=
  match (s.link l).exchange with
  | some f =>
    let s := endExchange s l
    if linkUp s l then raiseFailRun (frameTimedOut s l f) l else s
  | none => s

/-- The next timeout of a link loses it (R138). -/
def lossDue (s : State) (l : LinkNo) : Bool :=
  linkUp s l && (s.link l).exchange.isSome && decide (Config.failMax ≤ (s.link l).failRun + 1)

/-! ### Replies -/

/-- A matching reply ends the exchange and sets the failure run to 0 (R134, R138). -/
def replyTaken (s : State) (l : LinkNo) : State :=
  (endExchange s l).modLink l fun r => { r with failRun := 0 }

/-- A SAMPLE-REPLY on a link: a matching one is taken, any other is discarded (R134). -/
def sampleAnswered (s : State) (l : LinkNo) (p : PairNo) (x : Sample) : State :=
  if (s.link l).exchange = some (.sample p) then
    advanceLink (takeSample (replyTaken s l) (lineAt l p) x) l
  else s

/-- Hand the reply to a TRIM to its owner (R109, R115). -/
def trimOwner (s : State) (n : LineNo) (o : TrimOwner) (ack : Bool) : State :=
  match o with
  | .calibration => calTrimAnswered s n ack
  | .record => recordTrimAnswered s n ack

/-- An ACK or NAK to a TRIM (R109, R141). -/
def trimAnswered (s : State) (l : LinkNo) (ack : Bool) : State :=
  match (s.link l).exchange with
  | some (.trim p _ _ o) => advanceLink (trimOwner (replyTaken s l) (lineAt l p) o ack) l
  | _ => s

/-- The restored mark of a pair is set by a reply to a RELAY (R137). -/
def setRestored (s : State) (l : LinkNo) (p : PairNo) : State :=
  s.modLink l fun r => { r with restored := r.restored.set p.1 true p.2 }

/-- Hand the reply to a RELAY to its owner (R141). -/
def relayOwner (s : State) (n : LineNo) (cfg : RelayCfg) (o : RelayOwner) (ack : Bool) : State :=
  match o with
  | .recovery => s
  | .calibration => calRelayAnswered s n cfg ack
  | .test => testRelayAnswered s n cfg ack
  | .trace => traceRelayAnswered s n cfg ack

/-- An ACK or NAK to a RELAY (R137, R141). -/
def relayAnswered (s : State) (l : LinkNo) (ack : Bool) : State :=
  match (s.link l).exchange with
  | some (.relay p cfg o) =>
    advanceLink (relayOwner (setRestored (replyTaken s l) l p) (lineAt l p) cfg o ack) l
  | _ => s

/-- An ACK or NAK to a TAP CONNECT (R76, R79). -/
def connectAnswered (s : State) (l : LinkNo) (ack : Bool) : State :=
  match (s.link l).exchange with
  | some (.tapConnect _ k) => advanceLink (tapConnectAnswered (replyTaken s l) k ack) l
  | _ => s

/-- An ACK or NAK to a TAP DISCONNECT (R79). -/
def disconnectAnswered (s : State) (l : LinkNo) (ack : Bool) : State :=
  match (s.link l).exchange with
  | some (.tapDisconnect k) => advanceLink (tapDisconnectAnswered (replyTaken s l) k ack) l
  | _ => s

/-- An ACK or NAK to a TAP CLEAR ALL (R81). -/
def clearAllAnswered (s : State) (l : LinkNo) (ack : Bool) : State :=
  match (s.link l).exchange with
  | some .tapClearAll => advanceLink (tapClearAnswered (replyTaken s l) l ack) l
  | _ => s

/-! ### Probes and recovery -/

/-- A line that a recovery finds absent is parked if it is ACTIVE (R136, step 2). -/
def parkAbsent (s : State) (n : LineNo) : State :=
  if absent s n ∧ (s.line n).service = .active then parkLine s n else s

/-- An ACTIVE, UNSENSED line of a link that comes UP enters SETTLING (R46, R136). -/
def settleUnsensed (s : State) (n : LineNo) : State :=
  if (s.line n).service = .active ∧ (s.line n).sup = .unsensed then enterSettling s n else s

/-- Record what a PROBE-REPLY reports. -/
def recordProbe (s : State) (l : LinkNo) (count : Nat) (rev : Byte) : State :=
  s.modLink l fun r => { r with pairCount := count, revision := rev }

/-- A DOWN or LOST link comes UP, in the stages of R136 (R137); lines parked are marked before lines settled
(R165). -/
def recoverLink (s : State) (l : LinkNo) (count : Nat) (rev : Byte) : State :=
  let s := recordProbe s l count rev
  let s := eachLine parkAbsent (linesOf l) s
  let frames := recoveryFrames s l count
  let s := s.modLink l fun r =>
    { r with failRun := 0, restored := Vector.replicate 16 false, state := .up, queue := frames,
             retry := none, controlMade := 0, controlOver := true, toSample := [] }
  eachLine settleUnsensed (linesOf l) s

/-- A PROBE-REPLY of a link that is UP: the recorded pair count keeps it UP, another loses it
(R138). -/
def probeWhileUp (s : State) (l : LinkNo) (count : Nat) (rev : Byte) : State :=
  if count = (s.link l).pairCount then advanceLink (recordProbe s l count rev) l else linkLost s l

/-- A PROBE-REPLY: it matches an outstanding PROBE if its pair count is 8 or 16 (R134, R136, R138). -/
def probeAnswered (s : State) (l : LinkNo) (count : Nat) (rev : Byte) : State :=
  if (s.link l).exchange = some .probe ∧ (count = 8 ∨ count = 16) then
    let s := replyTaken s l
    if linkUp s l then probeWhileUp s l count rev else recoverLink s l count rev
  else s

/-- The probe timer of a link that is not UP (R136): 250 ms after the last PROBE was sent. -/
def probeTimerEnds (s : State) (l : LinkNo) : State :=
  let r := s.link l
  if r.state ≠ .up ∧ r.exchange = none ∧ Config.probeMs ≤ elapsed s.time r.probeTime then sendProbe s l
  else s

/-- No frame of a link waits to be sent (R138). -/
def nothingWaiting (s : State) (l : LinkNo) : Bool :=
  let r := s.link l
  r.queue.isEmpty && r.retry.isNone
  && ((r.toSample.filter fun p => eligible s (lineAt l p)).isEmpty)

/-- An UP link has been idle for 250 ms (R138). -/
def idleEnds (s : State) (l : LinkNo) : State :=
  let r := s.link l
  if r.state = .up ∧ r.exchange = none ∧ nothingWaiting s l
      ∧ Config.probeMs ≤ elapsed s.time r.idleTime then sendProbe s l
  else s

/-- The surge hold of a link ends at 100 ms (R5). -/
def surgeEnds (s : State) (l : LinkNo) : State :=
  let r := s.link l
  if r.surgeOn ∧ Config.surgeMs ≤ elapsed s.time r.surgeTime then
    s.modLink l fun r => { r with surgeOn := false }
  else s

/-- A surge hold ends on its own, with no further event: one whose 100 ms are over in the present millisecond and
that no command put out of force is out of force once that millisecond is past (R5; log 19). -/
def surgesPast (s : State) : State := allLinks.foldl surgeEnds s

end Sys2Proof.Machine
end

