-- ==== Sys2Proof/Machine/Profiles.lean ====
section
/-! DEFINITION. The profile store and the orders that act at their dispatch: ASSIGN (R128 to R132), LOAD
PROFILE (R126, R127), ECONOMY (R146), CLEAR FAULT (R93), and the decision of the scan period (R133). -/

namespace Sys2Proof.Machine

/-! ### ASSIGN -/

/-- The detail of an ASSIGN: service and supervision as they stand (11.5). -/
def assignDetail (s : State) (n : LineNo) : List Nat :=
  [codeService (s.line n).service, codeSup (s.line n).sup]

/-- ASSIGN of a PARKED line (R129): made ACTIVE, it is scheduled from the next scan period. -/
def assignParked (s : State) (n : LineNo) (active : Bool) : State :=
  if active then enterSettling (unschedule (s.modLine n fun r => { r with service := .active }) n) n
  else s

/-- ASSIGN of an ACTIVE line (R130, R131); its trace has ended. -/
def assignActive (s : State) (n : LineNo) (active : Bool) : State :=
  if active then s else parkLine (abortSurvey s n .lineChanged) n

/-- The effect of an ASSIGN that passes its checks (R128 to R132). -/
def assignLine (s : State) (n : LineNo) (p : ProfNo) (active : Bool) : State :=
  let s := s.modLine n fun r => { r with profile := p }
  let s := abortTraceOn s n .lineChanged
  match (s.line n).service with
  | .parked => assignParked s n active
  | .active => assignActive s n active
  | .calibrating => assignCalibrating s n active
  | .testing => assignTesting s n active

/-- The ASSIGN order (R128). -/
def orderAssign (s : State) (k : SlotNo) (o : OrderRead) : State :=
  match presentLine s (lineOf o) with
  | none => refuse s k .badLine []
  | some n =>
    if h : param8 o 0 < 8 then
      let p : ProfNo := ⟨param8 o 0, h⟩
      if 1 < param8 o 1 then refuse s k .badParam (assignDetail s n)
      else
        let active := decide (param8 o 1 = 1)
        let e := s.profile p
        if active ∧ ¬ e.valid then
          refuse s k .profileInvalid (assignDetail s n ++ [(firstFailing s.period e.ms).getD 0])
        else
          let s := assignLine s n p active
          complete s k (assignDetail s n)
    else refuse s k .badParam (assignDetail s n)

/-! ### LOAD PROFILE -/

/-- Install a profile (R127). -/
def State.setProfile (s : State) (p : ProfNo) (e : ProfEntry) : State :=
  { s with profiles := s.profiles.set p.1 e p.2 }

/-- LOAD PROFILE of profile p from the bytes that its staging block held (R126, R127). -/
def loadProfile (s : State) (k : SlotNo) (p : ProfNo) (bytes : List Byte) : State :=
  let f := readProfile s.latchBig bytes
  match firstFailing s.period f with
  | some c => refuse s k .profileInvalid [s.period.ms, c]
  | none => complete (s.setProfile p (install s.period f)) k [s.period.ms]

/-! ### ECONOMY -/

/-- A line that ECONOMY ON makes QUIET: ACTIVE, ON_HOOK, FULL rate, counter not held (R146). -/
def economyTakes (r : LineRec) : Bool :=
  decide (r.service = .active) && decide (r.sup = .onHook) && decide (r.rate = .full) && !quietHeld r

/-- ECONOMY ON for one line. -/
def economyLine (s : State) (n : LineNo) : State :=
  s.modLine n fun r => if economyTakes r then { r with rate := .quiet } else r

/-- The ECONOMY order (R146). A refusal shows the flag as it stands (log 21). -/
def orderEconomy (s : State) (k : SlotNo) (o : OrderRead) : State :=
  if targetOf o = 0 then complete { s with economy := false } k [0, 0]
  else if targetOf o = 1 then
    let n := (allLines.filter fun n => economyTakes (s.line n)).length
    let s := allLines.foldl economyLine { s with economy := true }
    complete s k [1, n]
  else refuse s k .badParam [bit s.economy, 0]

/-! ### CLEAR FAULT -/

/-- The CLEAR FAULT order (R93); absent lines are taken too. -/
def orderClearFault (s : State) (k : SlotNo) (o : OrderRead) : State :=
  if h : lineOf o < 64 then
    let n : LineNo := ⟨lineOf o, h⟩
    match (s.line n).fault with
    | none => complete s k [0, 0, 0]
    | some f =>
      if f.active then refuse s k .faultPresent [0, 0, 0]
      else
        let s := s.modLine n fun r => { r with fault := none }
        complete s k [1, f.occurrences, codeCls f.latest]
  else refuse s k .badLine []

/-! ### The scan period -/

/-- The return service of a line's work is ACTIVE. -/
def returnsActive (s : State) (n : LineNo) : Bool :=
  match (s.line n).calCtx, (s.link (linkOf n)).test with
  | some c, _ => c.toActive
  | none, some c => decide (c.line = n) && c.toActive
  | none, none => false

/-- A line keeps its profile in use (R133). -/
def usesProfile (s : State) (n : LineNo) : Bool :=
  match (s.line n).service with
  | .parked => false
  | .active => true
  | .calibrating => returnsActive s n
  | .testing => returnsActive s n

/-- A profile in use would be invalid at a period (R133). -/
def periodForbidden (s : State) (p : Period) : Bool :=
  allLines.any fun n => usesProfile s n && !validAt p (s.profile (s.line n).profile).ms

/-- An ACTIVE line not UNSENSED re-enters SETTLING (R133). -/
def resettle (s : State) (n : LineNo) : State :=
  if (s.line n).service = .active ∧ (s.line n).sup ≠ .unsensed then enterSettling s n else s

/-- The decision of the scan period as RUN goes from 0 to 1; CTRL holds the value written (R133,
R142). The period in progress runs to its end, at `periodEnd`; the lines re-enter SETTLING in ascending line
number (log 24). -/
def periodDecision (s : State) : State :=
  let p := namedPeriod s.ctrl
  if p = s.period then s
  else if periodForbidden s p then { s with periodHeld := true }
  else
    let s := { s with period := p, profiles := s.profiles.map fun e => install p e.ms }
    allLines.foldl resettle s

end Sys2Proof.Machine
end

