-- ==== Sys2Proof/Machine/Bus.lean ====
section
/-! DEFINITION. Master accesses on the local bus (R171, R175): reading and writing fields of the
exchange area in the latched byte order, and the halt that a failed access brings. -/

namespace Sys2Proof.Machine

/-- What a series of master accesses comes to: the state after them, or the state at the first access
that failed, with the bus address that failed (R175). -/
inductive BusRes where
  | ok (s : State)
  | err (s : State) (addr : Word)
  deriving DecidableEq, Repr

/-- Go on after a series of accesses, unless one of them failed. -/
def BusRes.andThen (r : BusRes) (f : State → BusRes) : BusRes :=
  match r with
  | .ok s => f s
  | .err s a => .err s a

/-- The bus address of an offset from the latched base (R171). -/
def areaAddr (s : State) (off : Nat) : Nat := (s.latchBase.toNat + off) % 2 ^ 32

/-- The accesses to `n` bytes at an offset meet the address that fails, if there is one. -/
def accessFails (bad : Option Word) (s : State) (off n : Nat) : Option Word :=
  match bad with
  | some a => if (a.toNat + 2 ^ 32 - areaAddr s off) % 2 ^ 32 < n then some a else none
  | none => none

/-- Write bytes at an offset. -/
def busWrite (bad : Option Word) (s : State) (off : Nat) (bytes : List Byte) : BusRes :=
  match accessFails bad s off bytes.length with
  | some a => .err s a
  | none => .ok { s with mem := memWriteBytes s.mem (areaAddr s off) bytes }

/-- Write a field of `n` bytes in the latched byte order; signed values in two's complement. -/
def busWriteField (bad : Option Word) (s : State) (off n : Nat) (v : Int) : BusRes :=
  busWrite bad s off (toBytes s.latchBig n (encodeInt n v))

/-- Read `n` bytes at an offset, and go on with them. -/
def busRead (bad : Option Word) (s : State) (off n : Nat) (k : List Byte → BusRes) : BusRes :=
  match accessFails bad s off n with
  | some a => .err s a
  | none => k (memReadBytes s.mem (areaAddr s off) n)

/-- Read a field of `n` bytes in the latched byte order, and go on with its value. -/
def busReadField (bad : Option Word) (s : State) (off n : Nat) (k : Nat → BusRes) : BusRes :=
  busRead bad s off n fun b => k (ofBytes s.latchBig b)

/-- A step over each element of a list in turn, until an access fails. -/
def busEach {α : Type} (f : State → α → BusRes) : List α → State → BusRes
  | [], s => .ok s
  | x :: t, s => (f s x).andThen (busEach f t)

/-- Write fields one after the other from an offset: width and value of each. -/
def busWriteFields (bad : Option Word) (off : Nat) : List (Nat × Int) → State → BusRes
  | [], s => .ok s
  | (n, v) :: t, s => (busWriteField bad s off n v).andThen (busWriteFields bad (off + n) t)

/-! ### Ending the orders in flight -/

/-- End the order in flight in a slot, by the rules of its owning block, as ABORTED with a reason; the
cause goes into calibration records (R174, R175, R179). -/
def abortSlot (s : State) (k : SlotNo) (r : Reason) (cause : IntCause) : State :=
  match (s.slot k).flight with
  | some (.survey n) => abortSurvey s n r
  | some (.calibrate _) => abortCalibrate s k cause r
  | some (.insulation l) => abortTest s l r
  | some (.listen _) => abortListen s k r
  | some .check => abortCheck s r
  | some .trace => endTrace s .aborted r 2
  | none => s

/-- End every order in flight, in ascending slot order (log 24). -/
def abortAll (s : State) (r : Reason) (cause : IntCause) : State :=
  allSlots.foldl (fun s k => abortSlot s k r cause) s

/-- The written count of the line whose rewrite is abandoned stands where it was: the moved entries stay
in the queue (R164, log 31). -/
def unmove (s : State) : State :=
  match s.rewriting with
  | some w => s.modLine w.line fun r => { r with written := r.written - BitVec.ofNat 16 w.moved }
  | none => s

/-- What a failed master access does (R175): the exchange is HALTED, so that no block's end leaves a
completion behind; completions not yet written are dropped with the rest of the engine's work. -/
def haltEffect (s : State) (addr : Word) : State :=
  let s := unmove s
  let s := { s with busErr := true, faddr := addr, exch := .halted, sweeping := false,
                    sweepAgain := false, rewriteList := [], rewriting := none }
  let s := abortAll s .none .halted
  { s with slots := s.slots.map fun r => { r with flight := none, due := none } }

/-- A failed master access, with the marks that its changes set (R165, R175). -/
def halt (s : State) (addr : Word) : State := markChanges s (haltEffect s addr)

/-- The state after a series of accesses: a failure halts the exchange. -/
def BusRes.settle : BusRes → State
  | .ok s => s
  | .err s a => halt s a

end Sys2Proof.Machine
end

