-- ==== Sys2Proof/Machine/Images.lean ====
section
/-! DEFINITION. Line images and the header (chapter 10, R180): their layouts, taken counts (R161),
moving entries (R162), rewrites (R164 to R166), and the full writes of STARTING (R163, R173). -/

namespace Sys2Proof.Machine

/-! ### Layouts -/

/-- A part-owned field of an image as it is compared and written: offset, width, value, and whether it
is notable (R166). -/
structure ImageItem where
  off : Nat
  width : Nat
  value : Int
  notable : Bool
  deriving DecidableEq, Repr

/-- The code of a receiver field; none is 0xFF (11.5). -/
def codeReceiver : Option RcvNo → Nat
  | some k => k.1
  | none => 0xFF

/-- The fields of the fault record in an image (11.5). -/
def faultItems : Option FaultRec → List ImageItem
  | some f =>
    [⟨0x030, 1, if f.active then 1 else 2, true⟩, ⟨0x031, 1, codeCls f.first, true⟩,
     ⟨0x032, 1, codeCls f.latest, true⟩, ⟨0x033, 1, f.occurrences, true⟩, ⟨0x036, 2, f.peak, false⟩,
     ⟨0x038, 4, f.firstTime.toNat, true⟩, ⟨0x03C, 4, f.latestTime.toNat, true⟩]
  | none =>
    [⟨0x030, 1, 0, true⟩, ⟨0x031, 1, 0, true⟩, ⟨0x032, 1, 0, true⟩, ⟨0x033, 1, 0, true⟩,
     ⟨0x036, 2, 0, false⟩, ⟨0x038, 4, 0, true⟩, ⟨0x03C, 4, 0, true⟩]

/-- The fields of the calibration record in an image (11.5, log 30). -/
def calItems (c : CalRec) : List ImageItem :=
  [⟨0x020, 1, codeRange c.range, true⟩, ⟨0x021, 1, c.code.toNat, true⟩,
   ⟨0x022, 1, codeStatus c.status, true⟩, ⟨0x023, 1, codeCause c.status, true⟩,
   ⟨0x024, 4, c.s1, true⟩, ⟨0x028, 4, c.time.toNat, true⟩]

/-- The part-owned fields of an image, apart from the counts, the measurement fields and the digit
array, in the order of their offsets (11.5). -/
def imageItems (f : ImageFields) : List ImageItem :=
  [⟨0x004, 1, codeService f.service, true⟩, ⟨0x005, 1, codeSup f.sup, true⟩,
   ⟨0x006, 1, codeCls f.accepted, true⟩, ⟨0x007, 1, codeReceiver f.receiver, true⟩,
   ⟨0x008, 1, f.profile.1, false⟩, ⟨0x009, 1, bit f.trace, true⟩, ⟨0x00A, 1, f.phase, true⟩,
   ⟨0x00C, 2, f.lost, true⟩]
  ++ calItems f.cal ++ faultItems f.fault

/-- The measurement fields of a line: Vt_f, Vr_f, I_f, Vd, Vs and the measurement time, from offset
0x010 (R167, 11.5). -/
def measureFields (r : LineRec) : List (Nat × Int) :=
  [(2, vtF r), (2, vrF r), (2, iF r), (2, vd r), (2, vs r)]

/-- The eight bytes of a digit entry as fields (11.5). -/
def entryFields (e : DigitEntry) : List (Nat × Int) :=
  [(1, codeSymbol e.symbol), (1, codeSource e.source), (1, e.pulses), (1, bit e.loss),
   (4, e.time.toNat)]

/-- The offset of the image of a line (11.5). -/
def imageOffset (n : LineNo) : Nat := Config.imageBase + Config.imageSize * n.1

/-- The offset of an order slot (11.5). -/
def slotOffset (k : SlotNo) : Nat := Config.slotBase + 64 * k.1

/-! ### Counts -/

/-- The entries held in an image (R160). -/
def heldEntries (r : LineRec) : Nat := (r.written - r.taken).toNat

/-- The room in an image (R160). -/
def room (r : LineRec) : Nat := Config.arrayMax - heldEntries r

/-- A taken count that was read is valid (R161). -/
def takenValid (r : LineRec) (v : Count) : Bool := decide ((r.written - v).toNat ≤ Config.arrayMax)

/-- A taken count is read and becomes the last known one, or raises the protocol error count (R161). -/
def takeTaken (s : State) (n : LineNo) (v : Count) : State :=
  if takenValid (s.line n) v then s.modLine n fun r => { r with taken := v }
  else { s with protocolErrors := satInc Config.max16 s.protocolErrors }

/-- Read a line's taken count (R161). -/
def readTaken (bad : Option Word) (s : State) (n : LineNo) : BusRes :=
  busReadField bad s (imageOffset n + Config.takenOffset) 2 fun v =>
    .ok (takeTaken s n (BitVec.ofNat 16 v))

/-! ### Moving entries -/

/-- Write digit entries into the array of a line, the first at the position of a written count (R162). -/
def writeEntries (bad : Option Word) (n : LineNo) : Count → List DigitEntry → State → BusRes
  | _, [], s => .ok s
  | w, e :: t, s =>
    (busWriteFields bad (imageOffset n + Config.digitArray + 8 * (w.toNat % Config.arrayMax))
      (entryFields e) s).andThen (writeEntries bad n (w + 1) t)

/-- How many entries a rewrite moves (R162). -/
def moveCount (r : LineRec) : Nat := min (room r) r.queue.length

/-- The taken count is read before a move if there is an entry to move and no room for it (R161,
R162). -/
def readIfFull (bad : Option Word) (s : State) (n : LineNo) : BusRes :=
  let r := s.line n
  if r.queue ≠ [] ∧ room r = 0 then readTaken bad s n else .ok s

/-! ### Rewriting an image -/

/-- The fields whose captured value differs from the value last written (R165). -/
def changedItems (last now : ImageFields) : List ImageItem :=
  ((imageItems last).zip (imageItems now)).filterMap fun p =>
    if p.1.value = p.2.value then none else some p.2

/-- Write one field of an image. -/
def writeItem (bad : Option Word) (n : LineNo) (s : State) (i : ImageItem) : BusRes :=
  busWriteField bad s (imageOffset n + i.off) i.width i.value

/-- Write the measurement fields of an image from the present accumulators, whatever the line's service
(R167; log 39). -/
def writeMeasures (bad : Option Word) (n : LineNo) (s : State) : BusRes :=
  let r := s.line n
  (busWriteFields bad (imageOffset n + 0x010) (measureFields r) s).andThen fun s =>
  (busWriteField bad s (imageOffset n + 0x01C) 4 r.measTime.toNat).andThen fun s =>
  .ok (s.modLine n fun x => { x with measWritten := r.measTime })

/-- Write the written count of an image after a move (R162). -/
def writeWritten (bad : Option Word) (n : LineNo) (moved : Nat) (s : State) : BusRes :=
  if moved = 0 then .ok s
  else busWriteField bad s (imageOffset n + 0x002) 2
    ((s.line n).written + BitVec.ofNat 16 moved).toNat

/-- A rewrite after its odd write: entries, changed fields, measurement fields (R162, R165; log 6). -/
def rewriteBody (bad : Option Word) (n : LineNo) (pace : Bool) (s : State) : BusRes :=
  let r := s.line n
  let moved := moveCount r
  let now := imageOf s n
  let items := changedItems r.image now
  let notable := decide (0 < moved) || items.any (fun i => i.notable)
  (writeEntries bad n r.written (r.queue.take moved) s).andThen fun s =>
  (writeWritten bad n moved s).andThen fun s =>
  (busEach (writeItem bad n) items s).andThen fun s =>
  (if pace then writeMeasures bad n s else .ok s).andThen fun s =>
  let s := s.modLine n fun x =>
    { x with image := now, written := x.written + BitVec.ofNat 16 moved }
  .ok { s with rewriting := some { line := n, moved := moved, notable := notable } }

/-- The engine rewrites the image of a line, up to its even write (R164, R165): the odd write clears
both marks, and the rewrite is then in flight. A taken count that R162 has read first, there being no room, is
read after the odd write (the model's choice, log 42). -/
def rewriteImage (bad : Option Word) (n : LineNo) (s : State) : BusRes :=
  let r := s.line n
  (busWriteField bad s (imageOffset n) 2 (r.update + 1).toNat).andThen fun s =>
  let s := s.modLine n fun x => { x with changePending := false, pacePending := false }
  (readIfFull bad s n).andThen fun s => rewriteBody bad n r.pacePending s

/-- The engine takes the head of the rewrite list (R165). -/
def startRewrite (bad : Option Word) (s : State) : BusRes :=
  match s.rewriteList with
  | n :: rest => rewriteImage bad n { s with rewriteList := rest }
  | [] => .ok s

/-- A notable rewrite or a completion advances the change count and sets EVENT (R166, R178). -/
def countChange (s : State) : State := { s with changeCount := s.changeCount + 1, event := true }

/-- The even write of a rewrite: the part's copy of the update count, and the moved entries leave the
queue (R162, R164). The written count went on as the entries were written (log 31). -/
def endRewriteLine (moved : Nat) (r : LineRec) : LineRec :=
  { r with update := r.update + 2, queue := r.queue.drop moved }

/-- The even write of the rewrite in flight (R164, R166). -/
def endRewrite (bad : Option Word) (w : Rewrite) (s : State) : BusRes :=
  (busWriteField bad s (imageOffset w.line) 2 ((s.line w.line).update + 2).toNat).andThen fun s =>
  let s := s.modLine w.line (endRewriteLine w.moved)
  let s := { s with rewriting := none }
  .ok (if w.notable then countChange s else s)

/-! ### The header -/

/-- The exchange state that a header shows: RUNNING or STOPPED (R180). -/
def shownExch (stopped : Bool) : Nat := if stopped then 0 else 2

/-- The fields of the header other than its update count, in the order of their offsets: offset, width,
value (R180, 11.5; log 6). -/
def headerFields (s : State) (stopped : Bool) : List (Nat × Nat × Nat) :=
  [(0x00, 1, 0x4C), (0x01, 1, 0x53), (0x02, 1, 0x36), (0x03, 1, 0x34), (0x04, 2, 1),
   (0x06, 1, shownExch stopped)]
  ++ headerLow s ++ (0x0C, 4, s.time.toNat) :: headerHigh s

/-- Write one field of the header. -/
def writeHeaderField (bad : Option Word) (s : State) (f : Nat × Nat × Nat) : BusRes :=
  busWriteField bad s f.1 f.2.1 f.2.2

/-- Write the header in full under its update count (R164, R180). -/
def writeHeader (bad : Option Word) (stopped : Bool) (s : State) : BusRes :=
  let u := s.headerUpdate
  let fields := headerFields s stopped
  (busWriteField bad s 0x08 2 (u + 1).toNat).andThen fun s =>
  (busEach (writeHeaderField bad) fields { s with headerPending := false }).andThen fun s =>
  (busWrite bad s 0x47 (List.replicate 0xB9 0)).andThen fun s =>
  (busWriteField bad s 0x08 2 (u + 2).toNat).andThen fun s =>
  .ok { s with headerUpdate := u + 2 }

/-! ### STARTING -/

/-- Adopt one slot (R173, step 2). -/
def adoptSlot (bad : Option Word) (s : State) (k : SlotNo) : BusRes :=
  let off := slotOffset k
  busReadField bad s off 2 fun issue =>
  busReadField bad s (off + 0x32) 2 fun comp =>
  let s := s.modSlot k fun r =>
    { r with completion := BitVec.ofNat 16 comp, flight := none, due := none }
  if issue = comp then .ok s
  else
    (busWriteField bad s (off + 0x34) 1 (codeOutcome .aborted)).andThen fun s =>
    (busWriteField bad s (off + 0x35) 1 (codeReason .restart)).andThen fun s =>
    (busWrite bad s (off + 0x36) (detail [])).andThen fun s =>
    (busWriteField bad s (off + 0x30) 2 issue).andThen fun s =>
    (busWriteField bad s (off + 0x32) 2 issue).andThen fun s =>
    .ok (s.modSlot k fun r =>
      { r with accepted := BitVec.ofNat 16 issue, completion := BitVec.ofNat 16 issue })

/-- A line's taken count is adopted as both its image copies (R163). -/
def adoptCounts (s : State) (n : LineNo) (v : Count) : State :=
  s.modLine n fun r => { r with taken := v, written := v }

/-- The part-owned bytes of an image that no field of the record fills: the gaps of the layout, and
the positions of the digit array before entries move (log 13). -/
def imageGaps : List (Nat × Nat) :=
  [(0x00B, 1), (0x00E, 2), (0x01A, 2), (0x02C, 4), (0x034, 2), (0x040, 0x38), (0x078, 0x100)]

/-- Write zeros. -/
def writeGap (bad : Option Word) (n : LineNo) (s : State) (g : Nat × Nat) : BusRes :=
  busWrite bad s (imageOffset n + g.1) (List.replicate g.2 0)

/-- The fields of a full image write, after its odd write, and its even write; both marks are cleared
(R163, R173 step 3). -/
def fullBody (bad : Option Word) (n : LineNo) (s : State) : BusRes :=
  let r := s.line n
  let moved := moveCount r
  let now := imageOf s n
  (busEach (writeGap bad n) imageGaps s).andThen fun s =>
  (writeEntries bad n r.written (r.queue.take moved) s).andThen fun s =>
  (busWriteField bad s (imageOffset n + 0x002) 2
    (r.written + BitVec.ofNat 16 moved).toNat).andThen fun s =>
  (busEach (writeItem bad n) (imageItems now) s).andThen fun s =>
  (writeMeasures bad n s).andThen fun s =>
  (busWriteField bad s (imageOffset n) 2 (r.update + 2).toNat).andThen fun s =>
  .ok (s.modLine n fun x =>
    endRewriteLine moved
      { x with image := now, changePending := false, pacePending := false,
               written := x.written + BitVec.ofNat 16 moved })

/-- Adopt a line's counts and write its image in full (R163, R173 step 3). -/
def adoptLine (bad : Option Word) (s : State) (n : LineNo) : BusRes :=
  busReadField bad s (imageOffset n + Config.takenOffset) 2 fun v =>
  let s := adoptCounts s n (BitVec.ofNat 16 v)
  (busWriteField bad s (imageOffset n) 2 ((s.line n).update + 1).toNat).andThen (fullBody bad n)

/-- STARTING latches ABASE, AWIN and BYTE_ORDER (R171, R173 step 1). -/
def latch (s : State) : State :=
  { s with exch := .starting, latchBase := maskedBase s.abase s.awin, latchWin := s.awin,
           latchBig := byteOrder s, rewriteList := [], rewriting := none, sweeping := false,
           sweepAgain := false }

/-- STARTING: steps 1 to 4 of R173 (log 10). The lines are adopted and written in ascending line number (the
model's choice, log 24). -/
def enterStarting (bad : Option Word) (s : State) : BusRes :=
  (busEach (adoptSlot bad) allSlots (latch s)).andThen fun s =>
  (busEach (adoptLine bad) allLines s).andThen fun s =>
  writeHeader bad false { s with changeCount := s.changeCount + 1 }

end Sys2Proof.Machine
end

