-- ==== Sys2Proof/WellFormed.lean ====
section
/-! DEFINITION. Which commands can come: the ranges of the operands that their types do not already
hold. -/

namespace Sys2Proof

/-- A controller's byte lies at a 32-bit bus address. -/
def cellWf (c : Nat × Byte) : Bool := decide (c.1 < 2 ^ 32)

/-- The bus operand: every byte of the controller lies on the bus. -/
def Bus.wf (b : Bus) : Bool := b.ctl.all cellWf

/-- A command whose operands the outside can give. A power may have any value: R53 clamps the level read. -/
def Instr.wf : Instr → Bool
  | .pinReset => true
  | .softReset _ => true
  | .runSet _ b => b.wf
  | .startingEnd b => b.wf
  | .runClear _ => true
  | .stoppingEnd b => b.wf
  | .haltClear _ => true
  | .statClear _ => true
  | .registerWrite _ _ b => b.wf
  | .attnWrite b => b.wf
  | .pollTick b => b.wf
  | .sweepEnd b => b.wf
  | .completion _ b => b.wf
  | .imageRewrite b => b.wf
  | .rewriteEnd b => b.wf
  | .headerRewrite b => b.wf
  | .masterAccessFailure _ => true
  | .paceTick _ => true
  | .scanPeriodStart => true
  | .sampleReply _ _ _ => true
  | .interdigitCompletion _ _ _ => true
  | .longBreakCompletion _ _ _ => true
  | .clear _ _ _ => true
  | .lockoutClear _ _ _ => true
  | .firstDigitTimeout _ _ _ => true
  | .dialEndTimeout _ _ _ => true
  | .surveyCompletion _ _ _ => true
  | .quietDelay _ _ _ => true
  | .decisionEnd _ _ _ => true
  | .phaseComplete _ _ _ => true
  | .exchangeTimeout _ => true
  | .linkLoss _ => true
  | .unmatchedReply _ _ => true
  | .probeTimer _ => true
  | .idleProbe _ => true
  | .probeReply _ _ _ => true
  | .surgeHoldExpiry _ => true
  | .trimReply _ _ => true
  | .relayReply _ _ => true
  | .tapConnectReply _ _ => true
  | .tapDisconnectReply _ _ => true
  | .tapClearAllReply _ _ => true
  | .guardEnd _ => true
  | .blockEnd _ _ => true
  | .toneAcceptance _ _ => true
  | .gapEnd _ _ => true
  | .checkEnd _ => true
  | .listenExpiry _ => true
  | .traceExpiry => true
  | .warbleHalf => true

end Sys2Proof
end

