-- ==== Sys2Proof/Machine/Exchange.lean ====
section
/-! DEFINITION. The exchange engine (chapter 11): completions (R178), the dispatch of orders (R177) with
CANCEL (R179), sweeps (R176), the exchange states (R173, R174), and the writes to the registers
(R169 to R171). -/

namespace Sys2Proof.Machine

/-! ### Completions -/

/-- Write the result buffer of a completion, if it has one (R178). -/
def writeResult (bad : Option Word) (c : Completion) (s : State) : BusRes :=
  match c.result with
  | some (off, fields) => busWriteFields bad off fields s
  | none => .ok s

/-- Complete a slot: result buffer, outcome, reason, detail, completion count, then the engine's copy,
the change count and EVENT (R178). -/
def completeSlot (bad : Option Word) (k : SlotNo) (c : Completion) (s : State) : BusRes :=
  let off := slotOffset k
  (writeResult bad c s).andThen fun s =>
  (busWriteField bad s (off + 0x34) 1 (codeOutcome c.outcome)).andThen fun s =>
  (busWriteField bad s (off + 0x35) 1 (codeReason c.reason)).andThen fun s =>
  (busWrite bad s (off + 0x36) c.detail).andThen fun s =>
  (busWriteField bad s (off + 0x32) 2 (s.slot k).accepted.toNat).andThen fun s =>
  .ok (countChange (s.modSlot k fun r => { r with completion := r.accepted, due := none }))

/-- Complete a slot if its completion is due. -/
def completeIfDue (bad : Option Word) (k : SlotNo) (s : State) : BusRes :=
  match (s.slot k).due with
  | some c => completeSlot bad k c s
  | none => .ok s

/-! ### Dispatch -/

/-- The CANCEL order of slot k (R179): the target is completed before the CANCEL. -/
def orderCancel (bad : Option Word) (s : State) (k : SlotNo) (o : OrderRead) : BusRes :=
  if h : targetOf o < 16 then
    let t : SlotNo := ⟨targetOf o, h⟩
    if t = k then .ok (refuse s k .badParam [targetOf o])
    else if (s.slot t).flight = none then .ok (refuse s k .nothingToCancel [targetOf o])
    else
      (completeIfDue bad t (abortSlot s t .cancelled .cancelled)).andThen fun s =>
      .ok (complete s k [targetOf o])
  else .ok (refuse s k .badParam [targetOf o])

/-- The LOAD PROFILE order, with the read of the staging block (R123, R126). A refusal for its profile number
shows the period in use, as 11.5 lists it for the kind (log 21). -/
def orderLoadProfile (bad : Option Word) (s : State) (k : SlotNo) (o : OrderRead) : BusRes :=
  if h : targetOf o < 8 then
    busRead bad s (Config.stagingBase + 128 * targetOf o) 0x32 fun b =>
      .ok (loadProfile s k ⟨targetOf o, h⟩ b)
  else .ok (refuse s k .badParam [s.period.ms])

/-- Dispatch an order to its owning block by its kind (R177). -/
def dispatch (bad : Option Word) (s : State) (k : SlotNo) (o : OrderRead) : BusRes :=
  match kindOf o with
  | 1 => .ok (orderAssign s k o)
  | 2 => orderLoadProfile bad s k o
  | 3 => .ok (orderEconomy s k o)
  | 4 => .ok (orderSurvey s k o)
  | 5 => .ok (orderCalibrate s k o)
  | 6 => .ok (orderSetTrim s k o)
  | 7 => .ok (orderInsulationTest s k o)
  | 8 => .ok (orderClearFault s k o)
  | 9 => .ok (orderListen s k o)
  | 10 => .ok (orderReceiverService s k o)
  | 11 => .ok (orderReceiverCheck s k o)
  | 12 => .ok (orderTrace s k o)
  | 13 => orderCancel bad s k o
  | _ => .ok (refuse s k .badKind [])

/-- Take a pending slot (R177): read it, write its accepted count, dispatch, and complete it if its
order ended at the dispatch. -/
def takeSlot (bad : Option Word) (s : State) (k : SlotNo) : BusRes :=
  let off := slotOffset k
  busRead bad s off 0x30 fun b =>
  let o : OrderRead := { bytes := b, big := s.latchBig }
  (busWriteField bad s (off + 0x30) 2 (issueOf o)).andThen fun s =>
  let s := s.modSlot k fun r => { r with accepted := BitVec.ofNat 16 (issueOf o) }
  (dispatch bad s k o).andThen (completeIfDue bad k)

/-! ### Sweeps -/

/-- A slot whose issue count was read is pending: it differs from the engine's copy of the completion
count, and no order of the slot is in flight or waits for its completion (R176, log 9). -/
def slotPending (r : SlotRec) (issue : Count) : Bool :=
  decide (issue ≠ r.completion) && r.flight.isNone && r.due.isNone

/-- The marks that one event within a step sets, from the state before it (R165). -/
def BusRes.marked (before : State) (r : BusRes) : BusRes :=
  r.andThen fun s => .ok (markChanges before s)

/-- One slot of a sweep (R176). Taking a slot is an event of its own (R177), so the images it changes join
the rewrite list before those of the next slot (R165). R176 reads the issue counts of all sixteen slots; R177 says
that the controller's bytes of a slot are not read again while its order is in flight. DESIGN CHOICE (log 44): the
issue count of a slot in flight is read too, and a bad address there is a failed access. -/
def sweepSlot (bad : Option Word) (s : State) (k : SlotNo) : BusRes :=
  busReadField bad s (slotOffset k) 2 fun issue =>
    if slotPending (s.slot k) (BitVec.ofNat 16 issue) then (takeSlot bad s k).marked s else .ok s

/-- A poll-sweep read found room for a line with entries queued: the line is marked (R161). -/
def markRoom (s : State) (n : LineNo) (v : Count) : State :=
  if takenValid (s.line n) v ∧ 0 < room ((takeTaken s n v).line n) then markImage (takeTaken s n v) n
  else takeTaken s n v

/-- One line of a sweep: its taken count is read while its queue is not empty (R161, R176). -/
def sweepLine (bad : Option Word) (s : State) (n : LineNo) : BusRes :=
  if (s.line n).queue = [] then .ok s
  else
    busReadField bad s (imageOffset n + Config.takenOffset) 2 fun v =>
      .ok (markRoom s n (BitVec.ofNat 16 v))

/-- The reads of a sweep, and what they bring about (R176; log 11): the slots from 0 to 15, then the taken counts
of the lines in ascending line number (the model's choice, log 24). -/
def sweepBody (bad : Option Word) (s : State) : BusRes :=
  (busEach (sweepSlot bad) allSlots { s with sweeping := true }).andThen
    (busEach (sweepLine bad) allLines)

/-- A poll tick or an ATTN write (R176). -/
def callSweep (bad : Option Word) (s : State) : BusRes :=
  if s.exch = .running then
    if s.sweeping then .ok { s with sweepAgain := true } else sweepBody bad s
  else .ok s

/-- The end of a sweep (R176). -/
def endSweep (bad : Option Word) (s : State) : BusRes :=
  if s.sweeping then
    if s.sweepAgain ∧ s.exch = .running then sweepBody bad { s with sweepAgain := false }
    else .ok { s with sweeping := false, sweepAgain := false }
  else .ok s

/-! ### Exchange states -/

/-- RUNNING goes into STOPPING (R174): the sweep ends, its mark is dropped, the rewrite list is given
up, and every order in flight is ended. -/
def beginStopping (s : State) : State :=
  abortAll { s with exch := .stopping, sweeping := false, sweepAgain := false, rewriteList := [] }
    .stopped .stopped

/-- An image has a mark set. -/
def marked (s : State) (n : LineNo) : Bool := (s.line n).changePending || (s.line n).pacePending

/-- The end of STARTING (R173, step 5, and the change of RUN made during it). -/
def endStarting (bad : Option Word) (s : State) : BusRes :=
  if s.exch = .starting then
    let s := { s with event := true }
    if run s then
      sweepBody bad { s with exch := .running, rewriteList := allLines.filter (marked s) }
    else .ok (beginStopping s)
  else .ok s

/-- No completion waits to be written. -/
def noneDue (s : State) : Bool := allSlots.all fun k => (s.slot k).due.isNone

/-- The end of STOPPING (R174, steps 4 and 5, and R173 where RUN is then 1). -/
def endStopping (bad : Option Word) (s : State) : BusRes :=
  if s.exch = .stopping ∧ s.rewriting = none ∧ noneDue s then
    (writeHeader bad true s).andThen fun s =>
      if run s then enterStarting bad s else .ok (markChanges s { s with exch := .stopped })
  else .ok s

/-! ### Register writes -/

/-- Soft reset (R169, R172, R108): what it keeps besides the controller's memory and the commands that
wait is ABASE, AWIN and the calibration records. -/
def softReset (s : State) : State :=
  { State.reset with
      abase := s.abase, awin := s.awin, mem := s.mem, pending := s.pending,
      lines := s.lines.map fun r => { LineRec.reset with cal := r.cal } }

/-- Pin reset (R172): the controller's memory and the commands that wait are not the part's. -/
def pinReset (s : State) : State := { State.reset with mem := s.mem, pending := s.pending }

/-- A CTRL write takes effect on the exchange, CTRL holding the value written and `old` being RUN
before it (R173, R174, R175), with the marks that its changes set before any full write (R165). -/
def runChanged (bad : Option Word) (old : Bool) (s : State) : BusRes :=
  match s.exch with
  | .stopped =>
    if !old && run s then enterStarting bad (markChanges s (periodDecision s)) else .ok s
  | .stopping => .ok (if !old && run s then markChanges s (periodDecision s) else s)
  | .running => .ok (if old && !run s then markChanges s (beginStopping s) else s)
  | .halted => .ok (if run s then s else markChanges s { s with exch := .stopped })
  | .starting => .ok s

/-- A write of a value to CTRL (R169). -/
def writeCtrl (bad : Option Word) (v : Word) (s : State) : BusRes :=
  if v.getLsbD 31 then .ok (softReset s)
  else runChanged bad (run s) { s with ctrl := v &&& Config.ctrlMask }

/-- A write of a value to STAT (R170): 1 clears EVENT, BUS_ERR or PERIOD_HELD. -/
def writeStat (v : Word) (s : State) : State :=
  { s with event := s.event && !v.getLsbD 4, busErr := s.busErr && !v.getLsbD 5,
           periodHeld := s.periodHeld && !v.getLsbD 6 }

/-- A write of a value to a register (R169 to R171, R176); ID and FADDR are read only. -/
def writeReg (bad : Option Word) (r : Reg) (v : Word) (s : State) : State :=
  match r with
  | .id => s
  | .ctrl => (writeCtrl bad v s).settle
  | .stat => writeStat v s
  | .abase => if run s then s else { s with abase := v }
  | .awin => if run s then s else { s with awin := v.setWidth 3 }
  | .attn => markChanges s (callSweep bad s).settle
  | .faddr => s

/-! ### Steps with master accesses -/

/-- The state that a step's master accesses find: the bytes the cabinet controller has written since
are in its memory (log 5). -/
def withCtl (b : Bus) (s : State) : State := { s with mem := controllerWrites s.mem b.ctl }

/-- A step whose effect sets its own marks, with the bus's part in it; a controller's byte that lies on
no bus address is a fault (log 28). -/
def onBus (b : Bus) (f : State → State) (s : State) : Host.Outcome State Fault Refusal :=
  if b.wf then .next (f (withCtl b s)) else .fault .noSuchAddress

/-- A step with master accesses whose changes mark the images and the header (R165). -/
def onBusMarked (b : Bus) (f : State → BusRes) (s : State) : Host.Outcome State Fault Refusal :=
  onBus b (fun s => markChanges s (f s).settle) s

/-- A step without master accesses, whose changes mark the images and the header (R165). -/
def stepMarked (f : State → State) (s : State) : Host.Outcome State Fault Refusal :=
  .next (markChanges s (f s))

end Sys2Proof.Machine
end

