-- ==== Sys2Proof/Machine/CmdExchange.lean ====
section
/-! DEFINITION. The commands of the register file and of the exchange engine: one meaning for each row of
the opcode table from PIN_RESET to PACE_TICK. An event that is not due has no effect (log 2). -/

namespace Sys2Proof.Machine

/-- PIN_RESET (R172). -/
def execPinReset (s : State) : Host.Outcome State Fault Refusal := .next (pinReset s)

/-- SOFT_RESET: a CTRL write with SOFT_RESET set, its other bits ignored (R169). -/
def execSoftReset (_v : Word) (s : State) : Host.Outcome State Fault Refusal := .next (softReset s)

/-- The value of a CTRL write with RUN set and SOFT_RESET clear. -/
def runSetValue (v : Word) : Word := (v ||| 1#32) &&& 0x7FFFFFFF#32

/-- The value of a CTRL write with RUN and SOFT_RESET clear. -/
def runClearValue (v : Word) : Word := v &&& 0x7FFFFFFE#32

/-- RUN_SET: a CTRL write of a value with RUN set (R173; log 7). -/
def execRunSet (v : Word) (b : Bus) (s : State) : Host.Outcome State Fault Refusal :=
  onBus b (fun s => (writeCtrl b.bad (runSetValue v) s).settle) s

/-- STARTING_END (R173). -/
def execStartingEnd (b : Bus) (s : State) : Host.Outcome State Fault Refusal :=
  onBusMarked b (endStarting b.bad) s

/-- RUN_CLEAR: a CTRL write of a value with RUN clear (R174; log 7). -/
def execRunClear (v : Word) (s : State) : Host.Outcome State Fault Refusal :=
  .next (writeCtrl none (runClearValue v) s).settle

/-- STOPPING_END (R174, R173). -/
def execStoppingEnd (b : Bus) (s : State) : Host.Outcome State Fault Refusal :=
  onBus b (fun s => (endStopping b.bad s).settle) s

/-- HALT_CLEAR: a CTRL write of a value with RUN clear (R175; log 7). -/
def execHaltClear (v : Word) (s : State) : Host.Outcome State Fault Refusal :=
  .next (writeCtrl none (runClearValue v) s).settle

/-- STAT_CLEAR (R170). -/
def execStatClear (v : Word) (s : State) : Host.Outcome State Fault Refusal := .next (writeStat v s)

/-- REGISTER_WRITE (R169 to R171). -/
def execRegisterWrite (r : Reg) (v : Word) (b : Bus) (s : State) : Host.Outcome State Fault Refusal :=
  onBus b (writeReg b.bad r v) s

/-- ATTN_WRITE (R176). -/
def execAttnWrite (b : Bus) (s : State) : Host.Outcome State Fault Refusal :=
  onBusMarked b (callSweep b.bad) s

/-- POLL_TICK (R169, R176): the timebase gives the tick that falls in this millisecond. -/
def execPollTick (b : Bus) (s : State) : Host.Outcome State Fault Refusal :=
  onBusMarked b (fun s => if pollDue s then callSweep b.bad (pollTicked s) else .ok s) s

/-- SWEEP_END (R176). -/
def execSweepEnd (b : Bus) (s : State) : Host.Outcome State Fault Refusal :=
  onBusMarked b (endSweep b.bad) s

/-- The engine may write: it is RUNNING or STOPPING. -/
def writing (s : State) : Bool := decide (s.exch = .running) || decide (s.exch = .stopping)

/-- COMPLETION (R178). -/
def execCompletion (k : SlotNo) (b : Bus) (s : State) : Host.Outcome State Fault Refusal :=
  onBusMarked b (fun s => if writing s then completeIfDue b.bad k s else .ok s) s

/-- IMAGE_REWRITE (R165). -/
def execImageRewrite (b : Bus) (s : State) : Host.Outcome State Fault Refusal :=
  onBusMarked b (fun s =>
    if s.exch = .running ∧ s.rewriting = none then startRewrite b.bad s else .ok s) s

/-- REWRITE_END (R164, R166), in STOPPING as in RUNNING (R174; log 38). -/
def execRewriteEnd (b : Bus) (s : State) : Host.Outcome State Fault Refusal :=
  onBusMarked b (fun s =>
    match s.rewriting with
    | some w => if writing s then endRewrite b.bad w s else .ok s
    | none => .ok s) s

/-- HEADER_REWRITE (R180). -/
def execHeaderRewrite (b : Bus) (s : State) : Host.Outcome State Fault Refusal :=
  onBusMarked b (fun s =>
    if s.exch = .running ∧ s.headerPending ∧ s.rewriting = none then writeHeader b.bad false s
    else .ok s) s

/-- A failure may occur in STARTING, RUNNING and STOPPING (R175). -/
def accessing (s : State) : Bool := decide (s.exch = .starting) || writing s

/-- MASTER_ACCESS_FAILURE (R175). -/
def execMasterAccessFailure (addr : Word) (s : State) : Host.Outcome State Fault Refusal :=
  .next (if accessing s then halt s addr else s)

/-- A line that a pace tick marks (R167). -/
def paceDue (s : State) (pace : Pace) (n : LineNo) : Bool :=
  let r := s.line n
  decide (r.service = .active) && decide (r.sup ≠ .unsensed) && decide (r.sup ≠ .suspended)
  && decide ((s.conv n).pace = some pace) && decide (r.measTime ≠ r.measWritten)

/-- PACE_TICK (R167). -/
def execPaceTick (pace : Pace) (s : State) : Host.Outcome State Fault Refusal :=
  .next (if s.time.toNat % paceMs pace = 0 then
      allLines.foldl (fun s n => if paceDue s pace n then markPace s n else s) s
    else s)

end Sys2Proof.Machine
end

