-- ==== Sys2Proof/Machine/CmdLink.lean ====
section
/-! DEFINITION. The commands of the links: timeouts, probes, the surge hold and the replies to control
frames. A reply that matches no outstanding exchange, and a timer that has not run out, have no effect
(R134; log 2). -/

namespace Sys2Proof.Machine

/-- EXCHANGE_TIMEOUT (R134, R138). -/
def execExchangeTimeout (l : LinkNo) (s : State) : Host.Outcome State Fault Refusal :=
  stepMarked (fun s => timeOut s l) s

/-- LINK_LOSS: the timeout at which the failure run reaches 3 (R138, R139; log 3). -/
def execLinkLoss (l : LinkNo) (s : State) : Host.Outcome State Fault Refusal :=
  stepMarked (fun s => if lossDue s l then timeOut s l else s) s

/-- UNMATCHED_REPLY: the reply is discarded (R134). -/
def execUnmatchedReply (_l : LinkNo) (_r : Reply) (s : State) : Host.Outcome State Fault Refusal :=
  .next s

/-- PROBE_TIMER (R136). -/
def execProbeTimer (l : LinkNo) (s : State) : Host.Outcome State Fault Refusal :=
  stepMarked (fun s => probeTimerEnds s l) s

/-- IDLE_PROBE (R138). -/
def execIdleProbe (l : LinkNo) (s : State) : Host.Outcome State Fault Refusal :=
  stepMarked (fun s => idleEnds s l) s

/-- PROBE_REPLY (R136 to R138). -/
def execProbeReply (l : LinkNo) (count : Nat) (rev : Byte) (s : State) :
    Host.Outcome State Fault Refusal :=
  stepMarked (fun s => probeAnswered s l count rev) s

/-- SURGE_HOLD_EXPIRY (R5). -/
def execSurgeHoldExpiry (l : LinkNo) (s : State) : Host.Outcome State Fault Refusal :=
  stepMarked (fun s => surgeEnds s l) s

/-- TRIM_REPLY (R109, R112, R115). -/
def execTrimReply (l : LinkNo) (ack : Bool) (s : State) : Host.Outcome State Fault Refusal :=
  stepMarked (fun s => trimAnswered s l ack) s

/-- RELAY_REPLY (R137, R141). -/
def execRelayReply (l : LinkNo) (ack : Bool) (s : State) : Host.Outcome State Fault Refusal :=
  stepMarked (fun s => relayAnswered s l ack) s

/-- TAP_CONNECT_REPLY (R76, R79). -/
def execTapConnectReply (l : LinkNo) (ack : Bool) (s : State) : Host.Outcome State Fault Refusal :=
  stepMarked (fun s => connectAnswered s l ack) s

/-- TAP_DISCONNECT_REPLY (R79). -/
def execTapDisconnectReply (l : LinkNo) (ack : Bool) (s : State) : Host.Outcome State Fault Refusal :=
  stepMarked (fun s => disconnectAnswered s l ack) s

/-- TAP_CLEAR_ALL_REPLY (R81). -/
def execTapClearAllReply (l : LinkNo) (ack : Bool) (s : State) : Host.Outcome State Fault Refusal :=
  stepMarked (fun s => clearAllAnswered s l ack) s

end Sys2Proof.Machine
end

