-- ==== Sys2Proof/Machine/CmdScan.lean ====
section
/-! DEFINITION. The commands of scans: SCAN_PERIOD_START, SAMPLE_REPLY, and the cases of a scan that have
rows of their own. A case is the whole step of the SAMPLE-REPLY at which it falls due; it has no effect
when the reply does not bring it about (logs 2, 3). -/

namespace Sys2Proof.Machine

/-- SCAN_PERIOD_START (R142, R143). -/
def execScanPeriodStart (s : State) : Host.Outcome State Fault Refusal := stepMarked startPeriod s

/-- SAMPLE_REPLY (R1, R134). -/
def execSampleReply (l : LinkNo) (p : PairNo) (x : Sample) (s : State) :
    Host.Outcome State Fault Refusal :=
  stepMarked (fun s => sampleAnswered s l p x) s

/-- The state in which the scan of a matching SAMPLE-REPLY is judged. -/
def atReply (s : State) (l : LinkNo) (x : Sample) : State := surgeStep (replyTaken s l) l x

/-- The SAMPLE-REPLY matches, the line has a service, and a test of its scan holds. -/
def replyCase (t : State → LineNo → ScanOutcome → Bool) (sv : Service) (s : State) (l : LinkNo)
    (p : PairNo) (x : Sample) : Bool :=
  let n := lineAt l p
  let s1 := atReply s l x
  decide ((s.link l).exchange = some (.sample p)) && decide ((s1.line n).service = sv)
  && t s1 n (replyOutcome s1 n x)

/-- A test of an ACTIVE line's ACCEPTED scan after stage 2 of supervision. -/
def atLimits (t : State → LineNo → Bool) (s : State) (n : LineNo) (out : ScanOutcome) : Bool :=
  match out with
  | .accepted x => t (scanFront s n x) n
  | .held => false
  | .missing => false

/-- The step of a SAMPLE-REPLY that brings about a case, and no effect otherwise. -/
def caseStep (due : Bool) (s : State) (l : LinkNo) (p : PairNo) (x : Sample) : State :=
  if due then sampleAnswered s l p x else s

/-- INTERDIGIT_COMPLETION (R37). -/
def execInterdigitCompletion (l : LinkNo) (p : PairNo) (x : Sample) (s : State) :
    Host.Outcome State Fault Refusal :=
  stepMarked (fun s => caseStep (replyCase (atLimits interdigitDue) .active s l p x) s l p x) s

/-- LONG_BREAK_COMPLETION (R34). -/
def execLongBreakCompletion (l : LinkNo) (p : PairNo) (x : Sample) (s : State) :
    Host.Outcome State Fault Refusal :=
  stepMarked (fun s => caseStep (replyCase (atLimits longBreakDue) .active s l p x) s l p x) s

/-- CLEAR (R33). -/
def execClear (l : LinkNo) (p : PairNo) (x : Sample) (s : State) :
    Host.Outcome State Fault Refusal :=
  stepMarked (fun s => caseStep (replyCase (atLimits clearDue) .active s l p x) s l p x) s

/-- LOCKOUT_CLEAR (R42). -/
def execLockoutClear (l : LinkNo) (p : PairNo) (x : Sample) (s : State) :
    Host.Outcome State Fault Refusal :=
  stepMarked (fun s => caseStep (replyCase (atLimits lockoutClearDue) .active s l p x) s l p x) s

/-- A first-digit timeout is reached at stage 3: a clear comes before it (R23, R30). -/
def firstDigitReached (s : State) (n : LineNo) : Bool := firstDigitDue s n && !clearDue s n

/-- FIRST_DIGIT_TIMEOUT (R30). -/
def execFirstDigitTimeout (l : LinkNo) (p : PairNo) (x : Sample) (s : State) :
    Host.Outcome State Fault Refusal :=
  stepMarked (fun s => caseStep (replyCase (atLimits firstDigitReached) .active s l p x) s l p x) s

/-- A dial-end timeout is reached at stage 3, after any interdigit completion of the scan (R23, R31). -/
def dialEndReached (s : State) (n : LineNo) : Bool :=
  dialEndDue (if interdigitDue s n then completeDigit s n else s) n

/-- DIAL_END_TIMEOUT (R31). -/
def execDialEndTimeout (l : LinkNo) (p : PairNo) (x : Sample) (s : State) :
    Host.Outcome State Fault Refusal :=
  stepMarked (fun s => caseStep (replyCase (atLimits dialEndReached) .active s l p x) s l p x) s

/-- SURVEY_COMPLETION (R20). -/
def execSurveyCompletion (l : LinkNo) (p : PairNo) (x : Sample) (s : State) :
    Host.Outcome State Fault Refusal :=
  stepMarked (fun s => caseStep (replyCase surveyDue .active s l p x) s l p x) s

/-- The quiet counter reaches the delay at an ACCEPTED scan (R144). -/
def quietReached (s : State) (n : LineNo) (out : ScanOutcome) : Bool :=
  match out with
  | .accepted x =>
    decide ((s.line n).rate = .full) && decide (((scanMeasure s n x).line n).rate = .quiet)
  | .held => false
  | .missing => false

/-- QUIET_DELAY (R144). -/
def execQuietDelay (l : LinkNo) (p : PairNo) (x : Sample) (s : State) :
    Host.Outcome State Fault Refusal :=
  stepMarked (fun s => caseStep (replyCase quietReached .active s l p x) s l p x) s

/-- DECISION_END (R112 to R114). -/
def execDecisionEnd (l : LinkNo) (p : PairNo) (x : Sample) (s : State) :
    Host.Outcome State Fault Refusal :=
  stepMarked (fun s => caseStep (replyCase decisionDue .calibrating s l p x) s l p x) s

/-- PHASE_COMPLETE (R97). -/
def execPhaseComplete (l : LinkNo) (p : PairNo) (x : Sample) (s : State) :
    Host.Outcome State Fault Refusal :=
  stepMarked (fun s => caseStep (replyCase phaseDue .testing s l p x) s l p x) s

end Sys2Proof.Machine
end

