-- ==== Sys2Proof/Machine/CmdTone.lean ====
section
/-! DEFINITION. The commands of the receivers, the pool's timers and the tone generator. TONE_ACCEPTANCE,
GAP_END and CHECK_END are block ends that bring about a case, and have no effect when the block does not
(logs 2, 3). -/

namespace Sys2Proof.Machine

/-- GUARD_END (R77). -/
def execGuardEnd (k : RcvNo) (s : State) : Host.Outcome State Fault Refusal :=
  stepMarked (fun s => guardEnds s k) s

/-- BLOCK_END (R51, R53). -/
def execBlockEnd (k : RcvNo) (p : BlockPowers) (s : State) : Host.Outcome State Fault Refusal :=
  stepMarked (fun s => blockEnds s k (readLevels p)) s

/-- Receiver k listens: LISTENING or CHECKING (R51). -/
def hears (s : State) (k : RcvNo) : Bool :=
  match s.rcv k with
  | .listening _ _ => true
  | .checking _ => true
  | _ => false

/-- The block end of receiver k accepts a digit (R60, R61). -/
def toneDue (s : State) (k : RcvNo) (v : BlockLevels) : Bool :=
  hears s k && blockDue s k && (blockAdvance s k v).2.isSome

/-- TONE_ACCEPTANCE (R61). -/
def execToneAcceptance (k : RcvNo) (p : BlockPowers) (s : State) : Host.Outcome State Fault Refusal :=
  stepMarked (fun s => if toneDue s k (readLevels p) then blockEnds s k (readLevels p) else s) s

/-- A detection state is GAP. -/
def inGap : DetState → Bool
  | .gap _ => true
  | _ => false

/-- The block end of receiver k ends its gap (R63). -/
def gapDue (s : State) (k : RcvNo) (v : BlockLevels) : Bool :=
  hears s k && blockDue s k && inGap (s.det k).state && decide ((blockAdvance s k v).1 = .quiet)

/-- GAP_END (R63). -/
def execGapEnd (k : RcvNo) (p : BlockPowers) (s : State) : Host.Outcome State Fault Refusal :=
  stepMarked (fun s => if gapDue s k (readLevels p) then blockEnds s k (readLevels p) else s) s

/-- The block end of receiver k completes the last window of its check (R157). -/
def checkDue (s : State) (k : RcvNo) : Bool :=
  match s.rcv k, s.gen.ctx with
  | .checking _, .check c =>
    decide (c.rcv = k) && blockDue s k
    && decide (c.digits.length * (c.onBlocks + c.offBlocks) ≤ c.position + 1)
  | _, _ => false

/-- CHECK_END (R157). A CHECKING receiver hears the generator, so the block's levels are its own. -/
def execCheckEnd (k : RcvNo) (s : State) : Host.Outcome State Fault Refusal :=
  stepMarked (fun s => if checkDue s k then blockEnds s k (loopLevels s.gen) else s) s

/-- The LISTEN of a slot has reached its expiry (R84). -/
def listenDue (s : State) (t : SlotNo) : Bool :=
  match listenOf s t with
  | some c => reached s.time c.expiry
  | none => false

/-- LISTEN_EXPIRY (R84). -/
def execListenExpiry (t : SlotNo) (s : State) : Host.Outcome State Fault Refusal :=
  stepMarked (fun s => if listenDue s t then expireListen s t else s) s

/-- TRACE_EXPIRY (R152). -/
def execTraceExpiry (s : State) : Host.Outcome State Fault Refusal := stepMarked traceExpires s

/-- WARBLE_HALF (R151). -/
def execWarbleHalf (s : State) : Host.Outcome State Fault Refusal := stepMarked warble s

end Sys2Proof.Machine
end

