-- ==== Sys2Proof/Machine/Dispatch.lean ====
section
/-! DEFINITION. The meaning of every command, by its constructor. -/

namespace Sys2Proof.Machine

def exec (i : Instr) (s : State) : Host.Outcome State Fault Refusal :=
  match i with
  | .pinReset => Sys2Proof.Machine.execPinReset s
  | .softReset v => Sys2Proof.Machine.execSoftReset v s
  | .runSet v b => Sys2Proof.Machine.execRunSet v b s
  | .startingEnd b => Sys2Proof.Machine.execStartingEnd b s
  | .runClear v => Sys2Proof.Machine.execRunClear v s
  | .stoppingEnd b => Sys2Proof.Machine.execStoppingEnd b s
  | .haltClear v => Sys2Proof.Machine.execHaltClear v s
  | .statClear v => Sys2Proof.Machine.execStatClear v s
  | .registerWrite r v b => Sys2Proof.Machine.execRegisterWrite r v b s
  | .attnWrite b => Sys2Proof.Machine.execAttnWrite b s
  | .pollTick b => Sys2Proof.Machine.execPollTick b s
  | .sweepEnd b => Sys2Proof.Machine.execSweepEnd b s
  | .completion t b => Sys2Proof.Machine.execCompletion t b s
  | .imageRewrite b => Sys2Proof.Machine.execImageRewrite b s
  | .rewriteEnd b => Sys2Proof.Machine.execRewriteEnd b s
  | .headerRewrite b => Sys2Proof.Machine.execHeaderRewrite b s
  | .masterAccessFailure w => Sys2Proof.Machine.execMasterAccessFailure w s
  | .paceTick q => Sys2Proof.Machine.execPaceTick q s
  | .scanPeriodStart => Sys2Proof.Machine.execScanPeriodStart s
  | .sampleReply l p x => Sys2Proof.Machine.execSampleReply l p x s
  | .interdigitCompletion l p x => Sys2Proof.Machine.execInterdigitCompletion l p x s
  | .longBreakCompletion l p x => Sys2Proof.Machine.execLongBreakCompletion l p x s
  | .clear l p x => Sys2Proof.Machine.execClear l p x s
  | .lockoutClear l p x => Sys2Proof.Machine.execLockoutClear l p x s
  | .firstDigitTimeout l p x => Sys2Proof.Machine.execFirstDigitTimeout l p x s
  | .dialEndTimeout l p x => Sys2Proof.Machine.execDialEndTimeout l p x s
  | .surveyCompletion l p x => Sys2Proof.Machine.execSurveyCompletion l p x s
  | .quietDelay l p x => Sys2Proof.Machine.execQuietDelay l p x s
  | .decisionEnd l p x => Sys2Proof.Machine.execDecisionEnd l p x s
  | .phaseComplete l p x => Sys2Proof.Machine.execPhaseComplete l p x s
  | .exchangeTimeout l => Sys2Proof.Machine.execExchangeTimeout l s
  | .linkLoss l => Sys2Proof.Machine.execLinkLoss l s
  | .unmatchedReply l r => Sys2Proof.Machine.execUnmatchedReply l r s
  | .probeTimer l => Sys2Proof.Machine.execProbeTimer l s
  | .idleProbe l => Sys2Proof.Machine.execIdleProbe l s
  | .probeReply l c r => Sys2Proof.Machine.execProbeReply l c r s
  | .surgeHoldExpiry l => Sys2Proof.Machine.execSurgeHoldExpiry l s
  | .trimReply l a => Sys2Proof.Machine.execTrimReply l a s
  | .relayReply l a => Sys2Proof.Machine.execRelayReply l a s
  | .tapConnectReply l a => Sys2Proof.Machine.execTapConnectReply l a s
  | .tapDisconnectReply l a => Sys2Proof.Machine.execTapDisconnectReply l a s
  | .tapClearAllReply l a => Sys2Proof.Machine.execTapClearAllReply l a s
  | .guardEnd k => Sys2Proof.Machine.execGuardEnd k s
  | .blockEnd k v => Sys2Proof.Machine.execBlockEnd k v s
  | .toneAcceptance k v => Sys2Proof.Machine.execToneAcceptance k v s
  | .gapEnd k v => Sys2Proof.Machine.execGapEnd k v s
  | .checkEnd k => Sys2Proof.Machine.execCheckEnd k s
  | .listenExpiry t => Sys2Proof.Machine.execListenExpiry t s
  | .traceExpiry => Sys2Proof.Machine.execTraceExpiry s
  | .warbleHalf => Sys2Proof.Machine.execWarbleHalf s

end Sys2Proof.Machine
end

