-- ==== Sys2Proof/Machine/Step.lean ====
section
/-! DEFINITION. One step: the command at the front of the queue, or, while none waits, a millisecond of
cabinet time (log 1). -/

namespace Sys2Proof.Machine

/-- Poll ticks run in every exchange state: those that fell in the present millisecond and that no command
took are past, each having read its code. An interval is at least 250 units, so there are at most two (R169;
log 40). -/
def pollPast (s : State) : State :=
  let s := if pollDue s then pollTicked s else s
  if pollDue s then pollTicked s else s

/-- Cabinet time counts milliseconds and wraps at 2^32 (00, Conventions); a millisecond passes at a
step with no command waiting (log 1), and the next poll tick is a millisecond nearer. -/
def idle (s : State) : State :=
  let s := surgesPast (pollPast s)
  { s with time := s.time + 1, pollIn := s.pollIn - 256 }

/-- One step of the block. -/
def step (s : State) : Host.Outcome State Fault Refusal :=
  match s.pending with
  | [] => .next (idle s)
  | c :: rest => exec c { s with pending := rest }

/-- `s` with the command that a word spells put at the front of its queue. No word spells a command
(Decode.lean), so the state is unchanged. -/
def State.withFetchWord (s : State) (nbits w : Nat) : State :=
  match decodeTableWord nbits w with
  | some c => { s with pending := c :: s.pending }
  | none => s

end Sys2Proof.Machine
end

