-- ==== Sys2Proof/Safety.lean ====
section
/-! DEFINITION. What a safe run of the part is: the views and the invariants in whose terms the claims are
stated. -/

namespace Sys2Proof.Machine

/-! ### Views -/

/-- The part of the state that no line, link, receiver, generator or slot holds: time, registers, the
exchange engine's own fields, the profiles and the memory. -/
structure Engine where
  time : Word
  ctrl : Word
  event : Bool
  busErr : Bool
  periodHeld : Bool
  abase : Word
  awin : BitVec 3
  faddr : Word
  exch : Exch
  latchBase : Word
  latchWin : BitVec 3
  latchBig : Bool
  sweeping : Bool
  sweepAgain : Bool
  rewriting : Option Rewrite
  headerUpdate : Count
  changeCount : Word
  protocolErrors : Nat
  period : Period
  periodCount : Word
  periodEnd : Word
  pollIn : Nat
  economy : Bool
  profiles : Vector ProfEntry 8
  mem : List Host.Cell
  pending : List Instr
  deriving DecidableEq, Repr

/-- The engine's part of a state. -/
def State.engine (s : State) : Engine :=
  { time := s.time, ctrl := s.ctrl, event := s.event, busErr := s.busErr, periodHeld := s.periodHeld,
    abase := s.abase, awin := s.awin, faddr := s.faddr, exch := s.exch, latchBase := s.latchBase,
    latchWin := s.latchWin, latchBig := s.latchBig, sweeping := s.sweeping,
    sweepAgain := s.sweepAgain, rewriting := s.rewriting, headerUpdate := s.headerUpdate,
    changeCount := s.changeCount, protocolErrors := s.protocolErrors, period := s.period,
    periodCount := s.periodCount, periodEnd := s.periodEnd, pollIn := s.pollIn, economy := s.economy,
    profiles := s.profiles, mem := s.mem, pending := s.pending }

/-- A line's record without its two pending marks. -/
def LineRec.bare (r : LineRec) : LineRec := { r with changePending := false, pacePending := false }

/-- A state without the pending marks of its images and header, and without its rewrite list: what is
left when the bookkeeping of R165 is set aside. -/
def State.bare (s : State) : State :=
  { s with lines := s.lines.map LineRec.bare, rewriteList := [], headerPending := false }

/-- The bytes of the controller that a command brings (log 5). -/
def ctlOf : Instr → List (Nat × Byte)
  | .runSet _ b => b.ctl
  | .startingEnd b => b.ctl
  | .stoppingEnd b => b.ctl
  | .registerWrite _ _ b => b.ctl
  | .attnWrite b => b.ctl
  | .pollTick b => b.ctl
  | .sweepEnd b => b.ctl
  | .completion _ b => b.ctl
  | .imageRewrite b => b.ctl
  | .rewriteEnd b => b.ctl
  | .headerRewrite b => b.ctl
  | _ => []

/-- A command in whose step the part may make master accesses (11.3, R173 to R178). -/
def usesBus : Instr → Bool
  | .runSet _ _ => true
  | .startingEnd _ => true
  | .stoppingEnd _ => true
  | .registerWrite _ _ _ => true
  | .attnWrite _ => true
  | .pollTick _ => true
  | .sweepEnd _ => true
  | .completion _ _ => true
  | .imageRewrite _ => true
  | .rewriteEnd _ => true
  | .headerRewrite _ => true
  | _ => false

/-- A command that may reset the records or write images in full: its image changes leave no mark behind
(R172, R173). -/
def clearsMarks : Instr → Bool
  | .pinReset => true
  | .softReset _ => true
  | .runSet _ _ => true
  | .stoppingEnd _ => true
  | .registerWrite _ _ _ => true
  | _ => false

/-- The value of the `n` bytes at an offset of the exchange area, in the latched byte order. -/
def areaField (s : State) (off n : Nat) : Nat :=
  ofBytes s.latchBig (memReadBytes s.mem (areaAddr s off) n)

/-- Every byte that lies at none of the offsets written is as it was before. -/
def keepsOutside (t : State) (before : List Host.Cell) (written : Nat → Prop) : Prop :=
  ∀ a, (∀ off, written off → a ≠ areaAddr t off) → memRead t.mem a = memRead before a

/-- Fields of a layout, each an offset, a width and a value, stand in the area from an offset, signed values
in two's complement (11.5). -/
def shows (t : State) (off : Nat) (fields : List (Nat × Nat × Int)) : Prop :=
  ∀ x ∈ fields, areaField t (off + x.1) x.2.1 = (x.2.2 % (2 ^ (8 * x.2.1) : Nat)).toNat

/-- Fields that follow each other, given by width and value, as fields of a layout. -/
def placed (off : Nat) : List (Nat × Int) → List (Nat × Nat × Int)
  | [] => []
  | (w, v) :: t => (off, w, v) :: placed (off + w) t

/-- The slots of a sweep in turn: one that is pending as its issue count is read is taken, and what that changed is
marked, before the next one is read (R176, R177, R165). -/
def slotsTaken (s : State) : List SlotNo → Option State
  | [] => some s
  | k :: rest =>
    if slotPending (s.slot k) (BitVec.ofNat 16 (areaField s (slotOffset k) 2)) then
      (match takeSlot none s k with
        | .ok x => slotsTaken (markChanges s x) rest
        | .err _ _ => none)
    else slotsTaken s rest

/-- A sweep whose accesses all succeed goes from w to t: the pending slots are taken in ascending order; then, of
each line whose queue is not empty, the taken count in its image becomes the last known one if it is valid, which
is when the entries written and not taken by it are 32 or less, and the line is marked if it leaves room; each one
not valid raises the protocol error count (R161, R176, R177). -/
def sweptTo (w t : State) : Prop :=
  ∃ x, slotsTaken w allSlots = some x
    ∧ let v := fun n => BitVec.ofNat 16 (areaField x (imageOffset n + 0x178) 2)
      let held := fun n => ((x.line n).written - v n).toNat
      let read := fun n => decide ((x.line n).queue ≠ [])
      (∀ n, (t.line n).bare =
        (if read n = true ∧ held n ≤ 32 then { x.line n with taken := v n } else x.line n).bare)
      ∧ (∀ n, read n = true → held n < 32 → (t.line n).changePending = true
          ∧ (x.exch = .running → n ∈ t.rewriteList))
      ∧ (x.protocolErrors ≤ 65535 → t.protocolErrors =
          min 65535 (x.protocolErrors + (allLines.filter fun n => read n && decide (32 < held n)).length))
      ∧ x.rewriteList <+: t.rewriteList
      ∧ { t with lines := x.lines, protocolErrors := x.protocolErrors, rewriteList := x.rewriteList,
                 headerPending := x.headerPending } = x

/-- The layout of the header under an exchange state code, but for its update count (R88, R180, 11.5). -/
def headerLayout (s : State) (e : Nat) : List (Nat × Nat × Int) :=
  ([(0x00, 1, 0x4C), (0x01, 1, 0x53), (0x02, 1, 0x36), (0x03, 1, 0x34), (0x04, 2, 1), (0x06, 1, e),
   (0x07, 1, s.period.ms), (0x0A, 2, s.protocolErrors), (0x0C, 4, s.time.toNat), (0x10, 4, s.changeCount.toNat)]
    : List (Nat × Nat × Int))
  ++ ((List.finRange 4).flatMap fun l =>
      [(0x14 + 4 * l.1, 1, (codeLink (s.link l).state : Int)), (0x15 + 4 * l.1, 1, ((s.link l).pairCount : Int)),
       (0x16 + 4 * l.1, 1, ((s.link l).revision.toNat : Int)), (0x17 + 4 * l.1, 1, 0)])
  ++ ((List.finRange 8).flatMap fun k =>
      let x : Int × Int × Int × Int :=
        match s.rcv k with
        | .free => (0, 0xFF, 0, 0)
        | .connecting e _ _ => (1, e.line.1, 0, 0)
        | .listening e _ => (2, e.line.1, 0, 0)
        | .releasing _ _ out => (3, 0xFF, 0, if out then 1 else 0)
        | .checking _ => (4, 0xFF, 0, 0)
        | .stranded _ out => (5, 0xFF, 0, if out then 1 else 0)
        | .outOfService r => (6, 0xFF, codeOut r, 0)
      [(0x24 + 4 * k.1, 1, x.1), (0x25 + 4 * k.1, 1, x.2.1), (0x26 + 4 * k.1, 1, x.2.2.1),
       (0x27 + 4 * k.1, 1, x.2.2.2)])
  ++ [(0x44, 1, (s.waiting.length : Int)),
      (0x45, 1, match s.gen.ctx with | .none => 0 | .trace _ => 1 | .check _ => 2),
      (0x46, 1, if s.economy then 1 else 0)]

/-- The layout of the part-owned fields of an image other than its counts, its measurement fields and its
digit array (11.5). -/
def imageLayout (f : ImageFields) : List (Nat × Nat × Int) :=
  let fault : List (Nat × Nat × Int) :=
    match f.fault with
    | some x =>
      [(0x030, 1, if x.active then 1 else 2), (0x031, 1, codeCls x.first), (0x032, 1, codeCls x.latest),
       (0x033, 1, x.occurrences), (0x036, 2, x.peak), (0x038, 4, x.firstTime.toNat),
       (0x03C, 4, x.latestTime.toNat)]
    | none =>
      [(0x030, 1, 0), (0x031, 1, 0), (0x032, 1, 0), (0x033, 1, 0), (0x036, 2, 0), (0x038, 4, 0),
       (0x03C, 4, 0)]
  ([(0x004, 1, codeService f.service), (0x005, 1, codeSup f.sup), (0x006, 1, codeCls f.accepted),
   (0x007, 1, match f.receiver with | some k => k.1 | none => 0xFF), (0x008, 1, f.profile.1),
   (0x009, 1, if f.trace then 1 else 0), (0x00A, 1, f.phase), (0x00C, 2, f.lost),
   (0x020, 1, codeRange f.cal.range), (0x021, 1, f.cal.code.toNat), (0x022, 1, codeStatus f.cal.status),
   (0x023, 1, codeCause f.cal.status), (0x024, 4, f.cal.s1), (0x028, 4, f.cal.time.toNat)]
    : List (Nat × Nat × Int)) ++ fault

/-- The layout of the measurement fields of a line's image (R167, 11.5). -/
def measureLayout (r : LineRec) : List (Nat × Nat × Int) :=
  [(0x010, 2, vtF r), (0x012, 2, vrF r), (0x014, 2, iF r), (0x016, 2, vtF r - vrF r),
   (0x018, 2, vtF r + vrF r), (0x01C, 4, r.measTime.toNat)]

/-- The layout of a digit entry at a position of a digit array (R162, 11.5). -/
def entryLayout (pos : Nat) (e : DigitEntry) : List (Nat × Nat × Int) :=
  [(0x078 + 8 * pos, 1, codeSymbol e.symbol), (0x079 + 8 * pos, 1, codeSource e.source),
   (0x07A + 8 * pos, 1, e.pulses), (0x07B + 8 * pos, 1, if e.loss then 1 else 0),
   (0x07C + 8 * pos, 4, e.time.toNat)]

/-- The state in which the order of a slot has ended, its completion due without a result buffer. -/
def answered (s : State) (k : SlotNo) (o : OrderOutcome) (r : Reason) (d : List Nat) : State :=
  let bytes := (d ++ List.replicate (10 - d.length) 0).map (BitVec.ofNat 8)
  s.modSlot k fun x =>
    { x with flight := none, due := some { outcome := o, reason := r, detail := bytes, result := none } }

/-- `q` is `x / n` rounded to the nearest, ties away from zero (R20, R98). -/
def nearest (x : Int) (n : Nat) (q : Int) : Prop :=
  2 * |x - q * n| ≤ n ∧ (2 * |x - q * n| = n → |x| ≤ |q * n|)

/-- A fault record after a restoration (R92). -/
def restored (f : Option FaultRec) : Option FaultRec := f.map fun x => { x with active := false }

/-- What RUN going from 0 to 1 does about the period named: it is the one in use; or a profile in use forbids it
and PERIOD_HELD is set; or it is taken, the profiles converted at it, and every ACTIVE line not UNSENSED of an UP
link in SETTLING (R133). -/
def periodDecided (s t : State) (p : Period) : Prop :=
  let kept := t.period = s.period ∧ t.profiles = s.profiles ∧ ∀ n, (t.line n).sup = (s.line n).sup
  (p = s.period → kept ∧ t.periodHeld = s.periodHeld)
  ∧ (p ≠ s.period → periodForbidden s p = true → kept ∧ t.periodHeld = true)
  ∧ (p ≠ s.period → periodForbidden s p = false →
      t.period = p ∧ t.periodHeld = s.periodHeld
      ∧ (∀ f, t.profile f = install p (s.profile f).ms)
      ∧ (∀ n, (s.line n).service ≠ .active ∨ (s.line n).sup = .unsensed → (t.line n).sup = (s.line n).sup)
      ∧ ∀ n, (s.line n).service = .active → (s.line n).sup ≠ .unsensed → linkUp s (linkOf n) = true →
          (t.line n).sup = .settling ∧ (t.line n).accepted = .none ∧ (t.line n).candidate = none
          ∧ (t.line n).seedPending = true ∧ (t.line n).pulses = 0 ∧ (t.line n).ret = none
          ∧ (t.line n).rate = .full ∧ (t.line n).fault = restored (s.line n).fault)

/-- The tap of a receiver that serves a line. -/
def tapHeld : RcvState → Option Tap
  | .connecting _ tap _ => some tap
  | .listening _ tap => some tap
  | _ => none

/-- The keypad: rows 697, 770, 852 and 941 Hz, columns 1209, 1336, 1477 and 1633 Hz (R57). -/
def keypadTable : List (List Symbol) :=
  [[.digit 1, .digit 2, .digit 3, .a], [.digit 4, .digit 5, .digit 6, .b],
   [.digit 7, .digit 8, .digit 9, .c], [.star, .digit 0, .hash, .d]]

/-- A power in dBm reads as the level y: -64 at or below -64 dBm, +6 at or above +6 dBm, and between them the
nearest whole dBm, of two equally near the one away from zero (R53; 00, Arithmetic). -/
def readsAs (p : Rat) (y : Int) : Prop :=
  (p ≤ -64 → y = -64) ∧ (6 ≤ p → y = 6)
  ∧ (-64 < p → p < 6 → -1 ≤ 2 * (p - y) ∧ 2 * (p - y) ≤ 1
      ∧ (2 * (p - y) = 1 → p < 0) ∧ (2 * (p - y) = -1 → 0 < p))

/-- Levels of the low and of the high group are a symbol under tone limits: one level of each group is 6 dB
or more above the other three, both are in range and off the floor, and the twist is in range (R56, R57). -/
def heard (lim : ToneLimits) (low high : Fin 4 → Int) (y : Symbol) : Prop :=
  ∃ i j : Fin 4,
    (∀ m, m ≠ i → low m + 6 ≤ low i) ∧ (∀ m, m ≠ j → high m + 6 ≤ high j)
    ∧ lim.min ≤ low i ∧ low i ≤ lim.max ∧ lim.min ≤ high j ∧ high j ≤ lim.max
    ∧ low i ≠ -64 ∧ high j ≠ -64
    ∧ -lim.reverse ≤ high j - low i ∧ high j - low i ≤ lim.forward
    ∧ (keypadTable[i.1]?.bind fun row => row[j.1]?) = some y

/-- The context of the order in flight in a slot stands with its block, unfinished; of a CALIBRATE, one line
is unfinished, and it is the one given. -/
def inProgress (s : State) (k : SlotNo) (n : LineNo) : Prop :=
  match (s.slot k).flight with
  | some (.survey m) => m = n ∧ ∃ c, (s.line n).survey = some c ∧ c.slot = k
  | some (.calibrate t) =>
    t.taken = t.valid + t.failed + t.interrupted + 1
    ∧ (∃ c, (s.line n).calCtx = some c ∧ c.slot = k ∧ c.step ≠ .restoring)
    ∧ ∀ m c, m ≠ n → (s.line m).calCtx = some c → c.slot ≠ k ∨ c.step = .restoring
  | some (.insulation l) => ∃ c, (s.link l).test = some c ∧ c.slot = k ∧ c.step ≠ .restoring ∧ c.line = n ∧ linkOf n = l
  | some (.listen c) => c.line = n
  | some .check => ∃ c, s.gen.ctx = .check c ∧ c.slot = k
  | some .trace => ∃ c, s.gen.ctx = .trace c ∧ c.slot = k ∧ c.step ≠ .restoring ∧ c.line = n
  | none => False

/-- The detail bytes of the order in flight in a slot, if it ends ABORTED before its result: the accepted count of
a SURVEY; the tally of a CALIBRATE whose last unfinished line is INTERRUPTED; the phases done of a test; the digits
and the last receiver of a LISTEN, 0xFF for none; the digits matched of a check; the seconds of a trace's tone
(R21, R84, R104, R120, R152, R157, 11.5). -/
def abortedDetail (s : State) (k : SlotNo) (n : LineNo) : List Nat :=
  match (s.slot k).flight with
  | some (.survey _) =>
    (match (s.line n).survey with
      | some c => detail16 s c.accepted
      | none => [])
  | some (.calibrate t) =>
    [t.taken, t.valid, t.failed, t.interrupted + 1, t.badLine, t.overridden, t.lineBusy]
  | some (.insulation l) =>
    (match (s.link l).test with
      | some c => [0, c.phasesDone]
      | none => [])
  | some (.listen c) => detail16 s c.count ++ [match c.last with | some i => i.1 | none => 0xFF]
  | some .check =>
    (match s.gen.ctx with
      | .check c => [2, matched c]
      | _ => [])
  | some .trace =>
    (match s.gen.ctx with
      | .trace c => 2 :: detail16 s (match c.step with | .tone since => (s.time - since).toNat / 1000 | _ => 0)
      | _ => [])
  | none => []

/-- No survey, test or trace names a slot but that of the order in flight there: the contexts that RESTORING ones
leave behind apart. -/
def soleContext (s : State) (k : SlotNo) : Prop :=
  (∀ m c, (s.line m).survey = some c → c.slot = k → (s.slot k).flight = some (.survey m))
  ∧ (∀ m c, (s.link m).test = some c → c.slot = k → c.step ≠ .restoring →
      (s.slot k).flight = some (.insulation m))
  ∧ ∀ c, s.gen.ctx = .trace c → c.slot = k → c.step ≠ .restoring → (s.slot k).flight = some .trace

/-- The records that a command may touch besides those a claim names: another line's receiver field. -/
def sameButReceiver (a b : LineRec) : Prop :=
  { a with receiver := none }.bare = { b with receiver := none }.bare

/-- A receiver's detection over a sequence of block verdicts: the state reached and the digits
accepted. -/
def runDet (on off : Nat) : DetState → List (Option Symbol) → DetState × List Symbol
  | d, [] => (d, [])
  | d, v :: t =>
    let a := advanceDet on off d v
    let r := runDet on off a.1 t
    (r.1, a.2.toList ++ r.2)

/-! ### Invariants -/

/-- Every line's record has a property. -/
def allLinesHave (p : LineRec → Prop) (s : State) : Prop := ∀ n : LineNo, p (s.line n)

/-- An accumulator stays within its range (R9). -/
def accFits (a : Int) : Prop := -32768 ≤ a ∧ a ≤ 32752

/-- A line's counters, queue and accumulators lie in the ranges that their chapters give (R7, R9, R22,
R89, R144, R158, R159). -/
structure LineFits (r : LineRec) : Prop where
  queue : r.queue.length ≤ Config.queueMax
  lost : r.lost ≤ Config.max16
  run : r.run ≤ Config.max16
  age : r.age ≤ Config.max16
  breakCounter : r.b ≤ Config.max16
  make : r.make ≤ Config.max16
  firstDigit : r.firstDigit ≤ Config.max17
  dialEnd : r.dialEnd ≤ Config.max17
  pulses : r.pulses ≤ 15
  quiet : r.quiet ≤ Config.quietMax
  faults : ∀ f, r.fault = some f → 1 ≤ f.occurrences ∧ f.occurrences ≤ 255
  vt : accFits r.aVt
  vr : accFits r.aVr
  current : accFits r.aI

/-- Every line's numbers fit, and so does the protocol error count (R161). -/
def numbersFit (s : State) : Prop :=
  allLinesHave LineFits s ∧ s.protocolErrors ≤ Config.max16

/-- Service and supervision agree: PARKED with NONE, CALIBRATING and TESTING with SUSPENDED, ACTIVE with
one of the other states (R47, R111, R95). -/
def serviceAgrees (r : LineRec) : Prop :=
  match r.service with
  | .parked => r.sup = .none
  | .calibrating => r.sup = .suspended
  | .testing => r.sup = .suspended
  | .active => r.sup ≠ .none ∧ r.sup ≠ .suspended

/-- Only an ACTIVE line in ON_HOOK is QUIET (8.7). -/
def quietOnHook (r : LineRec) : Prop := r.rate = .quiet → r.service = .active ∧ r.sup = .onHook

/-- What the services of the lines agree with: their supervision, their scan rate, and the calibrations and
insulation tests in progress (R47, R95, R111, 8.7). -/
structure ServicesSound (s : State) : Prop where
  agrees : allLinesHave serviceAgrees s
  quiet : allLinesHave quietOnHook s
  calibrating : ∀ n, (s.line n).calCtx.isSome = true → (s.line n).service = .calibrating
  testing : ∀ l c, (s.link l).test = some c → linkOf c.line = l ∧ (s.line c.line).service = .testing

/-- The part's copy of an image's update count is even (R164). -/
def updateEven (r : LineRec) : Prop := r.update.toNat % 2 = 0

/-- Every update count of the part, those of the images and of the header, is even (R164). -/
def updatesEven (s : State) : Prop :=
  allLinesHave updateEven s ∧ s.headerUpdate.toNat % 2 = 0

/-- The exchange makes bus traffic: STARTING, RUNNING or STOPPING (11.2). -/
def onTheBus (e : Exch) : Bool :=
  decide (e = .starting) || decide (e = .running) || decide (e = .stopping)

/-- While the exchange makes bus traffic, every image holds at most 32 entries (R160). -/
def imagesFit (s : State) : Prop :=
  onTheBus s.exch = true → allLinesHave (fun r => heldEntries r ≤ Config.arrayMax) s

/-- No two entries of the waiting list are of one line, and class 1 stands before class 0 (R70). -/
def listOrdered (l : List WaitEntry) : Prop :=
  (l.map WaitEntry.line).Nodup ∧ l.Pairwise (fun a b => b.cls ≤ a.cls)

/-- A receiver serves at most one line, a line holds at most one receiver, and a line that holds one is
not on the waiting list (R69); the list is in order, and its lines, as those that hold a receiver, are ACTIVE
in a call state (R70, R49); no receiver is FREE while a line waits (R73); and the receiver of a check in
progress is CHECKING (R87). -/
structure PoolSound (s : State) : Prop where
  ordered : listOrdered s.waiting
  attached : ∀ k e, grantedEntry (s.rcv k) = some e → (s.line e.line).receiver = some k
  held : ∀ n k, (s.line n).receiver = some k → ∃ e, grantedEntry (s.rcv k) = some e ∧ e.line = n
  apart : ∀ e ∈ s.waiting, (s.line e.line).receiver = none
  listed : ∀ e ∈ s.waiting, (s.line e.line).service = .active ∧ isCall (s.line e.line).sup = true
  serving : ∀ k e, grantedEntry (s.rcv k) = some e →
    (s.line e.line).service = .active ∧ isCall (s.line e.line).sup = true
  law : s.waiting ≠ [] → ∀ k, s.rcv k ≠ .free
  checking : ∀ c, s.gen.ctx = .check c → isChecking (s.rcv c.rcv) = true

/-- A link's control queue holds control frames only, no two of one key (R140). -/
def queueKeyed (r : LinkRec) : Prop :=
  (r.queue.map keyOf).Nodup ∧ ∀ f ∈ r.queue, keyOf f ≠ none

/-- Every link's control queue is in order (R140). -/
def queuesKeyed (s : State) : Prop := ∀ l : LinkNo, queueKeyed (s.link l)

/-- A receiver is tied to a link otherwise than STRANDED. -/
def busyOn (l : LinkNo) : RcvState → Bool
  | .connecting _ tap _ => decide (tap.link = l)
  | .listening _ tap => decide (tap.link = l)
  | .releasing tap _ _ => decide (tap.link = l)
  | _ => false

/-- The link is not UP, or has come UP and its TAP CLEAR ALL still waits in the queue. -/
def freshLink (s : State) (l : LinkNo) : Prop :=
  (s.link l).state ≠ .up ∨ Frame.tapClearAll ∈ (s.link l).queue

/-- The control queues are keyed and hold at most 40 frames (R140); a link that is not UP has no control
frame anywhere (R136, R139); while the TAP CLEAR ALL of a recovery waits it stands first, with nothing else
under way on the link; and until it is taken no line of the link is in a call and no receiver is tied there
(R137, R140). -/
structure LinksSound (s : State) : Prop where
  keyed : queuesKeyed s
  bound : ∀ l, (s.link l).queue.length ≤ 40
  down : ∀ l, (s.link l).state ≠ .up →
    (s.link l).queue = [] ∧ (s.link l).retry = none
    ∧ ((s.link l).exchange = none ∨ (s.link l).exchange = some .probe)
  clearing : ∀ l, Frame.tapClearAll ∈ (s.link l).queue →
    (s.link l).queue.head? = some .tapClearAll ∧ (s.link l).exchange = none ∧ (s.link l).retry = none
    ∧ ∀ f ∈ (s.link l).queue, ∀ k, keyOf f ≠ some (.tap k)
  fresh : ∀ l, freshLink s l →
    (s.link l).toSample = [] ∧ (∀ p, isCall (s.line (lineAt l p)).sup = false)
    ∧ ∀ k, busyOn l (s.rcv k) = false

/-- A receiver that neither listens nor checks holds reset detection (R50, R52, R67). -/
def detectionIdle (s : State) : Prop :=
  ∀ k : RcvNo, hears s k = false → s.det k = Det.reset

/-- The memory is in its canonical form. -/
def memOk (s : State) : Prop := memWf s.mem

end Sys2Proof.Machine
end

