-- ==== Sys2Proof/Certificates/Slice0/Obligations.lean ====
section
/-! DEFINITION. The statements about the model, for the provers. -/

open Sys2Proof Sys2Proof.Machine

/-! ### The queue and the step -/

/-- A step takes the command at the front of the queue and runs it with the rest of the queue; with no
command waiting it lets a millisecond of cabinet time pass, the next poll tick comes a millisecond, 256
units, nearer, each tick that fell in that millisecond untaken being past, and a surge hold whose 100 ms are over
is out of force (the model's choices, logs 1, 19 and 40). -/
def Obligations.StepRunsTheFrontCommand : Prop :=
  (∀ (c : Instr) (rest : List Instr) (s : State),
    step { s with pending := c :: rest } = exec c { s with pending := rest })
  ∧ ∀ s : State, s.pending = [] →
    let i := pollInterval s.ctrl
    ∃ t q, step s = .next t ∧ t = { s with time := s.time + 1, pollIn := q, links := t.links }
      ∧ (∀ l, t.link l =
          if (s.link l).surgeOn = true ∧ 100 ≤ (s.time - (s.link l).surgeTime).toNat
          then { s.link l with surgeOn := false } else s.link l)
      ∧ (256 ≤ s.pollIn → q + 256 = s.pollIn)
      ∧ (s.pollIn < 256 → 256 ≤ s.pollIn + i → q + 256 = s.pollIn + i)
      ∧ (s.pollIn + i < 256 → q + 256 = s.pollIn + 2 * i)

/-- A command whose operands are in range always answers a next state, and no command changes the queue
of the commands that wait; a controller's byte that lies on no bus address is the one fault (log 28). -/
def Obligations.WellFormedCommandsAnswerAndKeepTheQueue : Prop :=
  (∀ (c : Instr) (s : State), c.wf = true → ∃ t, exec c s = .next t)
  ∧ (∀ (c : Instr) (s t : State), exec c s = .next t → t.pending = s.pending)
  ∧ (∀ (c : Instr) (s : State), usesBus c = true →
      (ctlOf c).all cellWf = false → exec c s = .fault .noSuchAddress)

/-! ### Resets and registers -/

/-- R172 and the reset rules of the chapters: what each reset leaves. CTRL reads 0x210, time and the
indications are 0, the exchange is STOPPED with no order in flight, an order that was in flight being dropped
without a completion; lines, links, receivers, counts, generator and profiles are as their chapters give.
Soft reset keeps ABASE, AWIN and the calibration records, pin reset does not (R108). That pin reset, too,
leaves the controller's memory as it is, is the model's reading (log 32). The state after pin reset has every
invariant below. -/
def Obligations.ResetsLeaveTheResetState : Prop :=
  (memOk State.reset ∧ numbersFit State.reset ∧ ServicesSound State.reset ∧ updatesEven State.reset
    ∧ imagesFit State.reset ∧ PoolSound State.reset ∧ LinksSound State.reset
    ∧ detectionIdle State.reset)
  ∧ ∀ (v : Word) (s : State), ∃ p q,
    exec .pinReset s = .next p ∧ exec (.softReset v) s = .next q
    ∧ readReg .abase p = 0 ∧ readReg .awin p = 0
    ∧ readReg .abase q = readReg .abase s ∧ readReg .awin q = readReg .awin s
    ∧ (∀ n, (p.line n).cal.status = .none ∧ (p.line n).cal.range = .coarse
        ∧ (p.line n).cal.code = 64 ∧ (q.line n).cal = (s.line n).cal)
    ∧ ∀ t, t = p ∨ t = q →
      readReg .ctrl t = 0x00000210#32 ∧ run t = false ∧ irqEn t = false ∧ byteOrder t = false
      ∧ namedPeriod t.ctrl = .ms4 ∧ rotate t = false
      ∧ readReg .stat t = 0 ∧ readReg .faddr t = 0 ∧ t.time = 0
      ∧ t.exch = .stopped ∧ t.sweeping = false ∧ t.sweepAgain = false ∧ t.rewriting = none
      ∧ (∀ k, (t.slot k).flight = none ∧ (t.slot k).due = none) ∧ t.mem = s.mem
      ∧ t.period = .ms4 ∧ t.periodCount = 0 ∧ t.economy = false ∧ t.changeCount = 0
      ∧ t.protocolErrors = 0 ∧ t.headerUpdate = 0 ∧ t.waiting = [] ∧ t.rotation = 7
      ∧ t.gen = { chA := { n := 0, level := 0 }, chB := { n := 0, level := 0 }, output := .silent,
                  ctx := .none }
      ∧ (∀ f, t.profile f = install .ms4 defaultProfile ∧ (t.profile f).valid = true)
      ∧ (∀ k, t.rcv k = .free ∧ t.det k = { state := .quiet, began := none })
      ∧ (∀ l, (t.link l).state = .down ∧ (t.link l).pairCount = 16 ∧ (t.link l).queue = []
          ∧ (t.link l).retry = none ∧ (t.link l).failRun = 0 ∧ (t.link l).surgeOn = false
          ∧ (t.link l).exchange = some .probe ∧ (t.link l).test = none)
      ∧ ∀ n, (t.line n).service = .parked ∧ (t.line n).sup = .none ∧ (t.line n).profile = 0
          ∧ (t.line n).b = 0 ∧ (t.line n).make = 0 ∧ (t.line n).firstDigit = 0
          ∧ (t.line n).dialEnd = 0 ∧ (t.line n).pulses = 0 ∧ (t.line n).pulseSeen = false
          ∧ (t.line n).ret = none ∧ (t.line n).accepted = .none ∧ (t.line n).candidate = none
          ∧ (t.line n).receiver = none ∧ (t.line n).queue = [] ∧ (t.line n).lost = 0
          ∧ (t.line n).lossPending = false ∧ (t.line n).fault = none ∧ (t.line n).rate = .full
          ∧ (t.line n).quiet = 0 ∧ (t.line n).update = 0 ∧ (t.line n).written = 0
          ∧ (t.line n).taken = 0 ∧ (t.line n).survey = none ∧ (t.line n).trace = false

/-- R169 to R171: ID, FADDR are read only; ABASE and AWIN take a write only while RUN is 0; a write to
CTRL makes its named bits readable, or resets the part when SOFT_RESET is set; a write of 1 to EVENT, BUS_ERR
or PERIOD_HELD of STAT clears it, a write of 0 leaves it and all else stays, the interrupt line following
IRQ_EN, EVENT and BUS_ERR; ATTN acts as its own row. ABASE reads aligned: the greatest multiple of the window
of 32 KiB times 2^n (AWIN code n, codes 6 and 7 as 5) that does not exceed what was written; that it keeps all
32 bits written, and is masked under the AWIN of the moment it is read, is log 8. -/
def Obligations.RegisterWritesFollowRun : Prop :=
  (∀ (v : Word) (s : State), ∃ t, exec (.statClear v) s = .next t
    ∧ readReg .stat t = readReg .stat s &&& ~~~(v &&& 0x70#32)
    ∧ t.event = (s.event && !v.getLsbD 4) ∧ t.busErr = (s.busErr && !v.getLsbD 5)
    ∧ t.periodHeld = (s.periodHeld && !v.getLsbD 6)
    ∧ irqLine t = ((readReg .ctrl t).getLsbD 1 && (t.event || t.busErr))
    ∧ { t with event := s.event, busErr := s.busErr, periodHeld := s.periodHeld } = s)
  ∧ (∀ (r : Reg) (v : Word) (b : Bus) (s : State), b.wf = true →
    let u := withCtl b s
    ∃ t, exec (.registerWrite r v b) s = .next t
      ∧ (r = .id ∨ r = .faddr → t = u)
      ∧ (r = .abase → t = if (readReg .ctrl u).getLsbD 0 then u else { u with abase := v })
      ∧ (r = .awin → t = if (readReg .ctrl u).getLsbD 0 then u else { u with awin := v.setWidth 3 })
      ∧ (r = .ctrl → v.getLsbD 31 = true → exec (.softReset v) u = .next t)
      ∧ (r = .ctrl → v.getLsbD 31 = false → readReg .ctrl t = v &&& 0x00001737#32)
      ∧ (r = .stat → exec (.statClear v) u = .next t)
      ∧ (r = .attn → exec (.attnWrite b) s = .next t))
  ∧ ∀ s : State,
      let w := 32768 * 2 ^ (if (readReg .awin s).toNat ≤ 5 then (readReg .awin s).toNat else 5)
      let a := (readReg .abase s).toNat
      a % w = 0 ∧ a ≤ s.abase.toNat ∧ s.abase.toNat < a + w

/-! ### The exchange states -/

/-- R173, steps 1 to 4, from STOPPED, when every master access succeeds: STARTING, the latches, no order
in flight. A slot whose counts are equal keeps its bytes, its completion count being adopted; one whose counts
differ is written ABORTED, RESTART, its issue count in both counts. Each line's taken count is adopted as its
written count (R163), and its image shows its fields, its measurement fields, the entries moved from its queue
and an even update count; the marks are clear. The header shows RUNNING, the period of R133, time and change
count, which advances once; EVENT stays, and no byte outside header, slots and images is written. That the
measurement fields of a PARKED or UNSENSED line, too, are written from its accumulators as they stand is the
model's choice (log 39). -/
def Obligations.RunSetStartsTheExchange : Prop :=
  ∀ (v : Word) (b : Bus) (s : State), b.wf = true → b.bad = none →
    s.exch = .stopped → run s = false → memOk s →
    ∃ t, exec (.runSet v b) s = .next t
      ∧ t.exch = .starting ∧ readReg .ctrl t = runSetValue v &&& 0x00001737#32
      ∧ t.latchBase = readReg .abase s ∧ t.latchWin = s.awin ∧ t.latchBig = v.getLsbD 2
      ∧ t.changeCount = s.changeCount + 1 ∧ t.event = s.event
      ∧ t.headerUpdate = s.headerUpdate + 2 ∧ t.headerPending = false
      ∧ t.rewriteList = [] ∧ t.rewriting = none ∧ t.sweeping = false ∧ t.sweepAgain = false
      ∧ periodDecided s t (namedPeriod t.ctrl)
      ∧ areaField t 0x06 1 = 2 ∧ areaField t 0x07 1 = t.period.ms
      ∧ areaField t 0x08 2 = t.headerUpdate.toNat
      ∧ areaField t 0x0C 4 = s.time.toNat ∧ areaField t 0x10 4 = t.changeCount.toNat
      ∧ keepsOutside t (controllerWrites s.mem b.ctl)
          (fun off => off < 0x500 ∨ (0x900 ≤ off ∧ off < 0x6900))
      ∧ let u : State := { t with mem := controllerWrites s.mem b.ctl }
        (∀ k,
          let off := slotOffset k
          let issue := areaField u off 2
          (t.slot k).flight = none ∧ (t.slot k).due = none
          ∧ (t.slot k).completion = BitVec.ofNat 16 issue
          ∧ (issue = areaField u (off + 0x32) 2 →
              (t.slot k).accepted = (s.slot k).accepted
              ∧ ∀ i, i < 64 → areaField t (off + i) 1 = areaField u (off + i) 1)
          ∧ (issue ≠ areaField u (off + 0x32) 2 →
              (t.slot k).accepted = BitVec.ofNat 16 issue
              ∧ areaField t (off + 0x34) 1 = codeOutcome .aborted
              ∧ areaField t (off + 0x35) 1 = codeReason .restart
              ∧ (∀ i, i < 10 → areaField t (off + 0x36 + i) 1 = 0)
              ∧ areaField t (off + 0x30) 2 = issue ∧ areaField t (off + 0x32) 2 = issue))
        ∧ ∀ n,
          let off := imageOffset n
          let was := areaField u (off + 0x178) 2
          let moved := min 32 (s.line n).queue.length
          (t.line n).update = (s.line n).update + 2 ∧ (t.line n).changePending = false
          ∧ (t.line n).pacePending = false ∧ heldEntries (t.line n) ≤ 32
          ∧ (t.line n).taken = BitVec.ofNat 16 was ∧ (t.line n).written = BitVec.ofNat 16 (was + moved)
          ∧ (t.line n).queue = (s.line n).queue.drop moved
          ∧ (t.line n).measWritten = (t.line n).measTime
          ∧ areaField t off 2 = (t.line n).update.toNat
          ∧ areaField t (off + 0x002) 2 = (t.line n).written.toNat
          ∧ areaField t (off + 0x178) 2 = was
          ∧ shows t off (imageLayout (imageOf t n)) ∧ shows t off (measureLayout (t.line n))
          ∧ ∀ i e, i < moved → (s.line n).queue[i]? = some e → shows t off (entryLayout ((was + i) % 32) e)

/-- R133: as RUN goes from 0 to 1, in STOPPING or in STOPPED, the named period is the one in use and nothing
else changes; or a profile in use forbids it and only PERIOD_HELD is set; or it is taken, every profile is
converted and tested at it, and every ACTIVE line not UNSENSED of an UP link re-enters SETTLING, its ACTIVE
fault record restored (R92). From STOPPING nothing else happens; from STOPPED the exchange goes into
STARTING. -/
def Obligations.RunSetDecidesThePeriod : Prop :=
  ∀ (v : Word) (b : Bus) (s : State), b.wf = true → s.exch = .stopping ∨ s.exch = .stopped → run s = false →
    let u : State := { withCtl b s with ctrl := runSetValue v &&& 0x00001737#32 }
    let p := namedPeriod u.ctrl
    ∃ t, exec (.runSet v b) s = .next t
      ∧ t.ctrl = u.ctrl ∧ (b.bad = none → periodDecided s t p)
      ∧ (s.exch = .stopping →
          t.exch = .stopping ∧ t.mem = u.mem ∧ periodDecided s t p
          ∧ (p = s.period → t = u)
          ∧ (p ≠ s.period → periodForbidden s p = true → t = { u with periodHeld := true }))
      ∧ (s.exch = .stopped → b.bad = none → t.exch = .starting)

/-- R174, R21, R84, R104, R118, R120, R152, R157 and R175: RUN 0 puts a RUNNING exchange into STOPPING, ends its
sweep and gives up its rewrite list, changing nothing else with no order in flight; the one order in flight, of any
kind, is ended by its block ABORTED, STOPPED with its detail: a survey's context goes; a calibration's line is
INTERRUPTED, STOPPED, its trim kept and sent again, and RESTORING, as a test, whose result buffer is partial, and a
trace are, each with a RELAY NORMAL; a LISTEN's tag leaves the list, or its receiver the line; a check frees the
generator and its receiver. Of a CALIBRATE it covers the one with a single unfinished line. That the completion is
then due, and is written by a step of its own, memory and change count staying as they are, is the model's division
of R174 step 3 (log 9). RUN 0 puts a HALTED exchange into STOPPED, changing nothing else. -/
def Obligations.RunClearStopsTheExchange : Prop :=
  (∀ (v : Word) (s : State), s.exch = .running → run s = true →
    let w : State := { s with ctrl := runClearValue v &&& 0x00001737#32, exch := .stopping, sweeping := false,
                              sweepAgain := false, rewriteList := [] }
    ((∀ j, (s.slot j).flight = none) →
      ∃ t, exec (.runClear v) s = .next t
        ∧ t.headerPending = true ∧ { t with headerPending := s.headerPending } = w)
    ∧ ∀ (k : SlotNo) (n : LineNo), inProgress s k n → (∀ j, j ≠ k → (s.slot j).flight = none) →
      ∃ t, exec (.runClear v) s = .next t
        ∧ t.exch = .stopping ∧ readReg .ctrl t = runClearValue v &&& 0x00001737#32
        ∧ t.sweeping = false ∧ t.sweepAgain = false ∧ t.rewriteList = [] ∧ t.rewriting = s.rewriting
        ∧ t.engine = w.engine
        ∧ (t.slot k).flight = none ∧ (∀ j, j ≠ k → t.slot j = s.slot j)
        ∧ (t.slot k).accepted = (s.slot k).accepted ∧ (t.slot k).completion = (s.slot k).completion
        ∧ ((t.slot k).due.map fun d => (d.outcome, d.reason, d.detail))
            = some (.aborted, .stopped, detail (abortedDetail s k n))
        ∧ (∀ m, m ≠ n → sameButReceiver (t.line m) (s.line m))
        ∧ (((t.slot k).due.bind Completion.result).isSome = true ↔ ∃ l, (s.slot k).flight = some (.insulation l))
        ∧ match (s.slot k).flight with
          | some (.survey _) =>
            (t.line n).bare = { s.line n with survey := none }.bare
            ∧ ∀ m, m ≠ n → (t.line m).bare = (s.line m).bare
          | some (.calibrate _) =>
            (t.line n).calCtx.map CalCtx.step = some .restoring
            ∧ (t.line n).cal.status = .interrupted .stopped ∧ (t.line n).cal.time = s.time
            ∧ (t.line n).cal.range = (s.line n).cal.range ∧ (t.line n).cal.code = (s.line n).cal.code
            ∧ ((s.link (linkOf n)).state = .up →
                Frame.relay (pairOf n) .normal .calibration ∈ (t.link (linkOf n)).queue
                ∧ ∃ o, Frame.trim (pairOf n) (s.line n).cal.range (s.line n).cal.code o
                    ∈ (t.link (linkOf n)).queue)
          | some (.insulation l) =>
            (t.link l).test.map TestCtx.step = some .restoring ∧ (t.line n).bare = (s.line n).bare
            ∧ ((s.link l).state = .up → Frame.relay (pairOf n) .normal .test ∈ (t.link l).queue)
          | some (.listen _) =>
            (rcvOfTag s k = none → (∀ e ∈ t.waiting, e.tag ≠ some k) ∧ t.rcvs = s.rcvs)
            ∧ ∀ i e tap, rcvOfTag s k = some i → s.rcv i = .listening e tap → s.waiting = [] →
              (t.line e.line).receiver = none ∧ t.det i = Det.reset
              ∧ t.rcv i = (if (s.link tap.link).state = .up then .releasing tap .awaitDisconnectAck false
                           else .stranded tap false)
          | some .check =>
            t.gen.ctx = .none ∧ t.gen.output = .silent ∧ t.gen.chA.level = 0 ∧ t.gen.chB.level = 0
            ∧ ∀ c prior, s.gen.ctx = .check c → s.rcv c.rcv = .checking prior → s.waiting = [] →
              t.rcv c.rcv = (match prior with | some r => .outOfService r | none => .free)
              ∧ t.det c.rcv = Det.reset
          | some .trace =>
            t.gen.output = .silent ∧ t.gen.chA.level = 0 ∧ t.gen.chB.level = 0
            ∧ (∃ c, s.gen.ctx = .trace c ∧ t.gen.ctx = .trace { c with step := .restoring })
            ∧ ((s.link (linkOf n)).state = .up →
                Frame.relay (pairOf n) .normal .trace ∈ (t.link (linkOf n)).queue)
          | none => True)
  ∧ ∀ (v : Word) (s : State), s.exch = .halted →
    ∃ t, exec (.haltClear v) s = .next t
      ∧ t.headerPending = true
      ∧ { t with headerPending := s.headerPending }
        = { s with ctrl := runClearValue v &&& 0x00001737#32, exch := .stopped }

/-- R173, step 5: STARTING ends by setting EVENT; with RUN 1 the exchange is RUNNING, sweeps at once, and
every image that bears a mark joins the rewrite list in ascending order; with RUN 0 it is STOPPING. -/
def Obligations.StartingEndsByRun : Prop :=
  ∀ (b : Bus) (s : State), b.wf = true → b.bad = none → s.exch = .starting →
    ∃ t, exec (.startingEnd b) s = .next t
      ∧ t.event = true
      ∧ (run s = true → t.exch = .running ∧ t.sweeping = true
          ∧ (allLines.filter (marked s)) <+: t.rewriteList)
      ∧ (run s = false → t.exch = .stopping ∧ t.sweeping = false ∧ t.rewriteList = []
          ∧ t.mem = controllerWrites s.mem b.ctl)
      ∧ t.ctrl = s.ctrl ∧ t.latchBase = s.latchBase ∧ t.latchBig = s.latchBig

/-- R180, R88, R164 and R174 steps 4 and 5: while RUNNING and between image rewrites, a marked header is rewritten
under its update count, its mark cleared, with every item as it stands: signature and layout revision, exchange
state, period, protocol errors, time, change count; of each link its state, pair count and revision; of each
receiver its state, attached line, out reason and out-requested mark; waiting count, generator user and economy
flag. With no rewrite and no completion outstanding STOPPING writes the header with exchange state STOPPED and, with
RUN 0, ends in STOPPED; no byte outside the header is written, and nothing else changes. With RUN 1 it enters
STARTING in place of STOPPED (R173), without a period decision: the latches are taken, every image is written, the
change count advances once, and the header shows RUNNING. -/
def Obligations.HeaderWritesCarryTheState : Prop :=
  ∀ (b : Bus) (s : State), b.wf = true → b.bad = none → memOk s →
    (s.exch = .running → s.headerPending = true → s.rewriting = none →
      ∃ t, exec (.headerRewrite b) s = .next t
        ∧ shows t 0 (headerLayout s 2) ∧ areaField t 0x08 2 = (s.headerUpdate + 2).toNat
        ∧ keepsOutside t (controllerWrites s.mem b.ctl) (fun o => o < 0x100)
        ∧ { t with headerUpdate := s.headerUpdate, headerPending := true, mem := s.mem } = s
        ∧ t.headerUpdate = s.headerUpdate + 2 ∧ t.headerPending = false)
    ∧ (s.exch = .stopping → s.rewriting = none → noneDue s = true → run s = false →
      ∃ t, exec (.stoppingEnd b) s = .next t
        ∧ t.exch = .stopped ∧ t.headerUpdate = s.headerUpdate + 2 ∧ t.changeCount = s.changeCount
        ∧ shows t 0 (headerLayout s 0) ∧ areaField t 0x08 2 = t.headerUpdate.toNat
        ∧ keepsOutside t (controllerWrites s.mem b.ctl) (fun off => off < 0x100)
        ∧ { t with exch := s.exch, headerUpdate := s.headerUpdate, headerPending := s.headerPending,
                   mem := s.mem } = s)
    ∧ (s.exch = .stopping → s.rewriting = none → noneDue s = true → run s = true →
      ∃ t, exec (.stoppingEnd b) s = .next t
        ∧ t.exch = .starting ∧ t.headerUpdate = s.headerUpdate + 4 ∧ t.changeCount = s.changeCount + 1
        ∧ t.latchBase = readReg .abase s ∧ t.latchWin = s.awin ∧ t.latchBig = s.ctrl.getLsbD 2
        ∧ t.rewriteList = [] ∧ t.headerPending = false
        ∧ shows t 0 (headerLayout t 2) ∧ areaField t 0x08 2 = t.headerUpdate.toNat
        ∧ (∀ k, (t.slot k).flight = none ∧ (t.slot k).due = none)
        ∧ (∀ n, (t.line n).update = (s.line n).update + 2 ∧ (t.line n).changePending = false
            ∧ (t.line n).pacePending = false ∧ shows t (imageOffset n) (imageLayout (imageOf t n))
            ∧ (t.line n).queue = (s.line n).queue.drop (min 32 (s.line n).queue.length))
        ∧ t.period = s.period ∧ t.profiles = s.profiles ∧ t.periodHeld = s.periodHeld ∧ t.ctrl = s.ctrl
        ∧ t.event = s.event ∧ t.links = s.links ∧ t.rcvs = s.rcvs ∧ t.waiting = s.waiting ∧ t.gen = s.gen)

/-! ### Sweeps and orders -/

/-- R176, R161, R177 and R169: a POLL_TICK acts only in a millisecond in which the timebase gives a tick, and the
next one is an interval later by the POLL_RATE code as it stands: 4, 16, 64, 256 or 1,024 a second. Outside RUNNING
a poll tick or an ATTN write does nothing else; during a sweep it sets the sweep-again mark alone; otherwise it
starts a sweep: the pending slots, however many and a CANCEL among them, are taken in ascending order, each before
the next is read; then the taken counts of the lines with entries queued are read, a valid one becoming the last
known and marking its line if there is room, another one raising the protocol error count. The end of a sweep
clears the mark and makes another so, or ends it. That a tick not due and a sweep end without a sweep have no effect
is log 2, that a sweep makes its reads at its start and lasts until SWEEP_END log 11, that a tick is reckoned in
whole milliseconds log 40. -/
def Obligations.SweepsStartAndEnd : Prop :=
  ∀ (b : Bus) (s : State), b.wf = true → b.bad = none →
    let u := withCtl b s
    let pending := fun k => slotPending (u.slot k) (BitVec.ofNat 16 (areaField u (slotOffset k) 2))
    let idleArea := (∀ k, pending k = false) ∧ ∀ n, (s.line n).queue = []
    let code := (s.ctrl >>> 8).toNat % 8
    let interval := [64000, 16000, 4000, 1000, 250].getD code 250
    (∀ c w, c = .attnWrite b ∧ w = u
        ∨ c = .pollTick b ∧ s.pollIn < 256 ∧ w = { u with pollIn := s.pollIn + interval } →
      ∃ t, exec c s = .next t
        ∧ (s.exch ≠ .running → t = w)
        ∧ (s.exch = .running → s.sweeping = true → t = { w with sweepAgain := true })
        ∧ (s.exch = .running → s.sweeping = false → sweptTo { w with sweeping := true } t)
        ∧ (s.exch = .running → s.sweeping = false → idleArea → t = { w with sweeping := true })
        ∧ (s.exch = .running → s.sweeping = false → (∀ n, (s.line n).queue = []) →
            ∀ k, pending k = true → (∀ j, j ≠ k → pending j = false) →
              areaField u (slotOffset k + 0x02) 1 ≠ 13 →
              ∃ x, takeSlot none { w with sweeping := true } k = .ok x ∧ t.bare = x.bare))
    ∧ (256 ≤ s.pollIn → exec (.pollTick b) s = .next u)
    ∧ ∃ t, exec (.sweepEnd b) s = .next t
      ∧ (s.sweeping = false → t = u)
      ∧ (s.sweeping = true → s.sweepAgain = false ∨ s.exch ≠ .running →
          t = { u with sweeping := false, sweepAgain := false })
      ∧ (s.sweeping = true → s.sweepAgain = true → s.exch = .running →
          sweptTo { u with sweepAgain := false } t)
      ∧ (s.sweeping = true → s.sweepAgain = true → s.exch = .running → idleArea →
          t = { u with sweepAgain := false })

/-- R177, stage 3, and R178: taking a slot whose kind lies outside 1 to 13 writes the issue count into its
accepted count and completes it at once REFUSED with BAD_KIND and a detail of zeros; the change count and
EVENT go on, and no other byte and no other record changes. -/
def Obligations.BadKindIsRefused : Prop :=
  ∀ (s : State) (k : SlotNo), memOk s → s.exch = .running →
    let off := slotOffset k
    let issue := areaField s off 2
    let kind := areaField s (off + 0x02) 1
    kind = 0 ∨ 13 < kind →
    ∃ t, takeSlot none s k = .ok t
      ∧ areaField t (off + 0x30) 2 = issue ∧ areaField t (off + 0x32) 2 = issue
      ∧ areaField t (off + 0x34) 1 = 4 ∧ areaField t (off + 0x35) 1 = 1
      ∧ (∀ i, i < 10 → areaField t (off + 0x36 + i) 1 = 0)
      ∧ t.slot k = { accepted := BitVec.ofNat 16 issue, completion := BitVec.ofNat 16 issue,
                     flight := none, due := none }
      ∧ (∀ j, j ≠ k → t.slot j = s.slot j)
      ∧ t.changeCount = s.changeCount + 1 ∧ t.event = true
      ∧ keepsOutside t s.mem (fun o => off + 0x30 ≤ o ∧ o < off + 0x40)
      ∧ { t with slots := s.slots, changeCount := s.changeCount, event := s.event, mem := s.mem } = s

/-- R128 to R132: an ASSIGN is refused BAD_LINE, BAD_PARAM, or PROFILE_INVALID for an ACTIVE service under an
invalid profile, changing no line; one that passes writes the profile number and completes at its dispatch. A
PARKED line made ACTIVE enters SETTLING, or UNSENSED while its link is not UP, and is scheduled from the next
period; an ACTIVE line stays as it is, or is parked with its survey aborted, its receiver given up, its fault
record restored and its queue kept; the work on a CALIBRATING or TESTING line takes the new return service, and
a park aborts it. A trace of the line ends ABORTED, LINE_CHANGED. No other line changes but for receivers. -/
def Obligations.AssignActsByTheService : Prop :=
  ∀ (s : State) (k : SlotNo) (o : OrderRead), s.exch = .running → kindOf o = 1 → ServicesSound s → PoolSound s →
    (presentLine s (lineOf o) = none → dispatch none s k o = .ok (answered s k .refused .badLine []))
    ∧ ∀ n, presentLine s (lineOf o) = some n →
      let r := s.line n
      let shown := fun (x : LineRec) => [codeService x.service, codeSup x.sup]
      (8 ≤ param8 o 0 ∨ 1 < param8 o 1 →
        dispatch none s k o = .ok (answered s k .refused .badParam (shown r)))
      ∧ ∀ p : ProfNo, param8 o 0 = p.1 →
        (∀ c, param8 o 1 = 1 → (s.profile p).valid = false → firstFailing s.period (s.profile p).ms = some c →
          dispatch none s k o = .ok (answered s k .refused .profileInvalid (shown r ++ [c])))
        ∧ (param8 o 1 = 0 ∨ (param8 o 1 = 1 ∧ (s.profile p).valid = true) →
          ∃ t, dispatch none s k o = .ok t
            ∧ (t.slot k).flight = none ∧ t.slot k = (answered s k .done .none (shown (t.line n))).slot k
            ∧ (t.line n).profile = p ∧ (t.line n).queue = r.queue ∧ (t.line n).lost = r.lost
            ∧ (∀ m, m ≠ n → sameButReceiver (t.line m) (s.line m)) ∧ t.engine = s.engine
            ∧ (∀ c, s.gen.ctx = .trace c → c.line = n → c.step ≠ .restoring → c.slot ≠ k →
                t.gen.output = .silent
                ∧ (t.slot c.slot).due.map (fun d => (d.outcome, d.reason)) = some (.aborted, .lineChanged))
            ∧ (r.service = .parked → param8 o 1 = 1 →
                (t.line n).service = .active ∧ (t.line n).fault = restored r.fault
                ∧ (t.line n).sup = (if (s.link (linkOf n)).state = .up then .settling else .unsensed)
                ∧ (t.line n).rate = .full ∧ pairOf n ∉ (t.link (linkOf n)).toSample
                ∧ ((s.link (linkOf n)).state = .up →
                    (t.line n).seedPending = true ∧ (t.line n).accepted = .none))
            ∧ (r.service = .parked → param8 o 1 = 0 → tracing s n = false →
                t = answered (s.modLine n fun x => { x with profile := p }) k .done .none (shown r))
            ∧ (r.service = .active → param8 o 1 = 1 → tracing s n = false →
                t = answered (s.modLine n fun x => { x with profile := p }) k .done .none (shown r))
            ∧ (r.service = .active → param8 o 1 = 0 →
                (t.line n).service = .parked ∧ (t.line n).sup = .none ∧ (t.line n).b = 0
                ∧ (t.line n).make = 0 ∧ (t.line n).firstDigit = 0 ∧ (t.line n).dialEnd = 0
                ∧ (t.line n).pulses = 0 ∧ (t.line n).ret = none ∧ (t.line n).candidate = none
                ∧ (t.line n).run = 0 ∧ (t.line n).accepted = .none ∧ (t.line n).rate = .full
                ∧ (t.line n).receiver = none ∧ (∀ e ∈ t.waiting, e.line ≠ n)
                ∧ (t.line n).fault = restored r.fault ∧ (t.line n).survey = none ∧ (t.line n).cal = r.cal
                ∧ (t.line n).aVt = r.aVt ∧ (t.line n).aVr = r.aVr ∧ (t.line n).aI = r.aI
                ∧ pairOf n ∉ (t.link (linkOf n)).toSample
                ∧ ∀ c, r.survey = some c → c.slot ≠ k →
                    (t.slot c.slot).due.map (fun d => (d.outcome, d.reason)) = some (.aborted, .lineChanged))
            ∧ (∀ c, r.calCtx = some c → (t.line n).service = .calibrating
                ∧ (param8 o 1 = 1 → (t.line n).calCtx = some { c with toActive := true })
                ∧ (param8 o 1 = 0 → (t.line n).calCtx = some { c with toActive := false, step := .restoring })
                ∧ (param8 o 1 = 1 ∨ c.step = .restoring → (t.line n).cal = r.cal)
                ∧ (param8 o 1 = 0 → c.step ≠ .restoring →
                    (t.line n).cal = { r.cal with status := .interrupted .lineChanged,
                                                  s1 := c.s1.getD r.cal.s1, time := s.time }))
            ∧ (∀ c, (s.link (linkOf n)).test = some c → c.line = n → (t.line n).service = .testing
                ∧ (param8 o 1 = 1 → (t.link (linkOf n)).test = some { c with toActive := true })
                ∧ (param8 o 1 = 0 →
                    (t.link (linkOf n)).test = some { c with toActive := false, step := .restoring })
                ∧ (param8 o 1 = 0 → c.step ≠ .restoring → c.slot ≠ k →
                    (t.slot c.slot).due.map (fun d => (d.outcome, d.reason)) = some (.aborted, .lineChanged))))

/-- R93, R146, R126, R127 and R121: CLEAR FAULT removes a RESTORED record, does nothing without one, and is
refused for an ACTIVE one; ECONOMY sets or clears the flag, and ON makes QUIET every ACTIVE line ON_HOOK at
FULL rate without a survey, and counts them; LOAD PROFILE reads its staging block by the layout of 11.5 and
installs it, converted at the period in use, or refuses it with the number of the first constraint that fails;
SET TRIM writes range, code, status and time of the record, keeping the decision-1 sum, and queues a TRIM on an
UP link. Each completes at its dispatch, and a refusal changes nothing else. That a refused ECONOMY shows the
flag as it stands, and a LOAD PROFILE refused for its number the period in use, is log 21. -/
def Obligations.OrdersEndAtTheirDispatch : Prop :=
  ∀ (s : State) (k : SlotNo) (o : OrderRead), s.exch = .running →
    (kindOf o = 8 →
      (64 ≤ lineOf o → dispatch none s k o = .ok (answered s k .refused .badLine []))
      ∧ ∀ n : LineNo, lineOf o = n.1 →
        ((s.line n).fault = none → dispatch none s k o = .ok (answered s k .done .none []))
        ∧ ∀ f, (s.line n).fault = some f →
          dispatch none s k o = .ok
            (if f.active then answered s k .refused .faultPresent []
             else answered (s.modLine n fun x => { x with fault := none }) k .done .none
                    [1, f.occurrences, codeCls f.latest]))
    ∧ (kindOf o = 3 →
      let takes := fun (x : LineRec) => decide (x.service = .active ∧ x.sup = .onHook ∧ x.rate = .full)
                                        && x.survey.isNone
      dispatch none s k o = .ok
        (if targetOf o = 0 then answered { s with economy := false } k .done .none [0, 0]
         else if targetOf o = 1 then
           answered { s with economy := true,
                             lines := s.lines.map fun x => if takes x then { x with rate := .quiet } else x }
             k .done .none [1, (allLines.filter fun n => takes (s.line n)).length]
         else answered s k .refused .badParam [if s.economy then 1 else 0, 0]))
    ∧ (kindOf o = 2 →
      (8 ≤ targetOf o → dispatch none s k o = .ok (answered s k .refused .badParam [s.period.ms]))
      ∧ ∀ p : ProfNo, targetOf o = p.1 →
        let base := 0x500 + 128 * p.1
        let u8 := fun off => areaField s (base + off) 1
        let u16 := fun off => areaField s (base + off) 2
        let s8 := fun off => if u8 off < 128 then (u8 off : Int) else (u8 off : Int) - 256
        let s16 := fun off => if u16 off < 32768 then (u16 off : Int) else (u16 off : Int) - 65536
        ∃ f : Profile,
          f.shift = min (u8 0x00) 4
          ∧ [f.numbering, f.flags, f.cls, f.firstDigit, f.dialEnd, f.quietCode, f.pace]
            = [0x01, 0x02, 0x03, 0x26, 0x27, 0x30, 0x31].map u8
          ∧ [f.thr.iOn, f.thr.iOff, f.thr.iLeak, f.thr.vShort, f.thr.vsNom, f.thr.vGnd, f.thr.vFpos,
              f.thr.vFneg] = [0x04, 0x06, 0x08, 0x0A, 0x0C, 0x0E, 0x10, 0x12].map s16
          ∧ [f.hook, f.fault, f.restore, f.breakMin, f.breakMax, f.flashMin, f.flashMax, f.clearMin,
              f.interdigit, f.toneOn, f.toneOff]
            = [0x14, 0x16, 0x18, 0x1A, 0x1C, 0x1E, 0x20, 0x22, 0x24, 0x2C, 0x2E].map u16
          ∧ [f.tone.min, f.tone.max] = [0x28, 0x29].map s8
          ∧ [f.tone.forward, f.tone.reverse] = [0x2A, 0x2B].map (fun off => (u8 off : Int))
          ∧ (∀ c, firstFailing s.period f = some c →
              dispatch none s k o = .ok (answered s k .refused .profileInvalid [s.period.ms, c]))
          ∧ (firstFailing s.period f = none →
              dispatch none s k o = .ok
                (answered { s with profiles := s.profiles.set p.1 (install s.period f) p.2 } k .done .none
                  [s.period.ms])))
    ∧ (kindOf o = 6 →
      (presentLine s (lineOf o) = none → dispatch none s k o = .ok (answered s k .refused .badLine []))
      ∧ ∀ n, presentLine s (lineOf o) = some n →
        let l := linkOf n
        let range : TrimRange := if param8 o 0 = 0 then .fine else .coarse
        let code : TrimCode := BitVec.ofNat 7 (param8 o 1)
        (1 < param8 o 0 ∨ 127 < param8 o 1 →
          dispatch none s k o = .ok (answered s k .refused .badParam []))
        ∧ (param8 o 0 ≤ 1 → param8 o 1 ≤ 127 → (s.line n).service = .calibrating →
            dispatch none s k o = .ok (answered s k .refused .lineBusy []))
        ∧ (param8 o 0 ≤ 1 → param8 o 1 ≤ 127 → (s.line n).service ≠ .calibrating →
          ∃ t, dispatch none s k o = .ok t
            ∧ t.line n = { s.line n with
                cal := { range := range, code := code, s1 := (s.line n).cal.s1, time := s.time,
                         status := if flagOf o then .override else .none } }
            ∧ (∀ m, m ≠ n → t.line m = s.line m)
            ∧ t.slots = (answered s k .done .none [param8 o 0, param8 o 1]).slots
            ∧ ((s.link l).state = .up →
                Frame.trim (pairOf n) range code .record ∈ (t.link l).queue
                ∧ ∀ f ∈ (s.link l).queue, keyOf f ≠ some (.trim (pairOf n)) → f ∈ (t.link l).queue)
            ∧ ((s.link l).state ≠ .up → t.link l = s.link l)
            ∧ (∀ m, m ≠ l → t.link m = s.link m) ∧ t.rcvs = s.rcvs ∧ t.engine = s.engine))

/-- R179, with R21, R84, R104, R118, R120, R152 and R157: a CANCEL whose target is above 15 or its own slot is
refused BAD_PARAM, one whose target has no order in flight NOTHING_TO_CANCEL, the target in its detail. Else
the target's block ends its order, the target is completed ABORTED, CANCELLED in the area, and the CANCEL is
DONE: a survey's context goes; a calibration's line is INTERRUPTED, CANCELLED, its trim kept, and RESTORING, as
a test and a trace are, the generator silent; a LISTEN's tag leaves the list, or its receiver leaves the line; a
check frees the generator. Of a CALIBRATE it covers the one with a single unfinished line. -/
def Obligations.CancelEndsItsTarget : Prop :=
  ∀ (s : State) (k : SlotNo) (o : OrderRead), s.exch = .running → kindOf o = 13 → memOk s →
    (16 ≤ targetOf o ∨ targetOf o = k.1 →
      dispatch none s k o = .ok (answered s k .refused .badParam [targetOf o]))
    ∧ ∀ j : SlotNo, targetOf o = j.1 → j ≠ k →
      ((s.slot j).flight = none →
        dispatch none s k o = .ok (answered s k .refused .nothingToCancel [j.1]))
      ∧ ∀ n, inProgress s j n →
        ∃ t, dispatch none s k o = .ok t
          ∧ t.slot j = { s.slot j with completion := (s.slot j).accepted, flight := none, due := none }
          ∧ areaField t (slotOffset j + 0x34) 1 = codeOutcome .aborted
          ∧ areaField t (slotOffset j + 0x35) 1 = codeReason .cancelled
          ∧ areaField t (slotOffset j + 0x32) 2 = (s.slot j).accepted.toNat
          ∧ t.slot k = (answered s k .done .none [j.1]).slot k
          ∧ (∀ i, i ≠ j → i ≠ k → (t.slot i).due = (s.slot i).due
              ∧ (t.slot i).accepted = (s.slot i).accepted ∧ (t.slot i).completion = (s.slot i).completion)
          ∧ t.changeCount = s.changeCount + 1 ∧ t.event = true
          ∧ (∀ m, m ≠ n → sameButReceiver (t.line m) (s.line m))
          ∧ match (s.slot j).flight with
            | some (.survey _) => t.line n = { s.line n with survey := none }
            | some (.calibrate _) =>
              (t.line n).calCtx.map CalCtx.step = some .restoring
              ∧ (t.line n).cal.status = .interrupted .cancelled ∧ (t.line n).cal.time = s.time
              ∧ (t.line n).cal.range = (s.line n).cal.range ∧ (t.line n).cal.code = (s.line n).cal.code
            | some (.insulation l) =>
              (t.link l).test.map TestCtx.step = some .restoring ∧ t.line n = s.line n
            | some (.listen _) =>
              (rcvOfTag s j = none → (∀ e ∈ t.waiting, e.tag ≠ some j) ∧ t.rcvs = s.rcvs)
              ∧ ∀ i e tap, rcvOfTag s j = some i → s.rcv i = .listening e tap → s.waiting = [] →
                (t.line e.line).receiver = none ∧ t.det i = Det.reset
                ∧ t.rcv i = (if (s.link tap.link).state = .up then .releasing tap .awaitDisconnectAck false
                             else .stranded tap false)
            | some .check => t.gen.ctx = .none ∧ t.gen.output = .silent ∧ t.gen.chA.level = 0
                             ∧ t.gen.chB.level = 0
            | some .trace => t.gen.output = .silent ∧ t.gen.chA.level = 0
                             ∧ ∃ c, s.gen.ctx = .trace c ∧ t.gen.ctx = .trace { c with step := .restoring }
            | none => True

/-- R18, R94 and R95: the checks of a SURVEY and of an INSULATION TEST in their order, each with its reason,
a refusal changing no line. A SURVEY that passes has its context, with N, 0 being taken as 256, and empty
counts, and its line is at FULL rate. A test that passes has its context in phase 1, RELAY_WAIT, with the least
settle_scans whose periods last as long as the settle time and M, 0 being taken as 64; its line is TESTING and
SUSPENDED with its counters cleared and its fault record restored; and a RELAY FEED_OFF is queued. -/
def Obligations.SurveysAndTestsAreTaken : Prop :=
  ∀ (s : State) (k : SlotNo) (o : OrderRead), s.exch = .running →
    let bufferOk := resultOf o % 64 = 0 ∧ 0x6900 ≤ resultOf o
                    ∧ resultOf o + 64 ≤ 32768 * 2 ^ (min s.latchWin.toNat 5)
    (kindOf o = 4 ∨ kindOf o = 7 → presentLine s (lineOf o) = none →
      dispatch none s k o = .ok (answered s k .refused .badLine []))
    ∧ ∀ n, presentLine s (lineOf o) = some n →
      let r := s.line n
      let l := linkOf n
      (kindOf o = 4 →
        (¬bufferOk → dispatch none s k o = .ok (answered s k .refused .badAddress []))
        ∧ (bufferOk → r.service ≠ .active ∨ r.sup = .suspended ∨ r.sup = .unsensed ∨ r.survey.isSome = true →
            dispatch none s k o = .ok (answered s k .refused .lineBusy []))
        ∧ (bufferOk → r.service = .active → r.sup ≠ .suspended → r.sup ≠ .unsensed → r.survey = none →
            dispatch none s k o = .ok
              ((s.modSlot k fun x => { x with flight := some (.survey n) }).modLine n fun x =>
                { x with rate := .full, quiet := 0,
                         survey := some { slot := k, n := if param8 o 0 = 0 then 256 else param8 o 0,
                                          result := resultOf o, stats := none, accepted := 0, held := 0,
                                          missing := 0, overrange := 0 } })))
      ∧ (kindOf o = 7 →
        let paramOk := param8 o 0 ≠ 0 ∧ param8 o 1 ≤ 64 ∧ param16 o 4 ≤ 2047
        let quietLine := (s.link l).state = .up ∧ (r.service = .parked
          ∨ (r.service = .active ∧ (r.sup = .onHook ∨ r.sup = .fault ∨ r.sup = .lockout)))
        let free := quietLine ∧ tracing s n = false ∧ r.survey = none
        (¬paramOk → dispatch none s k o = .ok (answered s k .refused .badParam []))
        ∧ (paramOk → ¬bufferOk → dispatch none s k o = .ok (answered s k .refused .badAddress []))
        ∧ (paramOk → bufferOk → ¬free → dispatch none s k o = .ok (answered s k .refused .lineBusy []))
        ∧ (paramOk → bufferOk → free → (s.link l).test.isSome = true →
            dispatch none s k o = .ok (answered s k .refused .resourceBusy []))
        ∧ (paramOk → bufferOk → free → (s.link l).test = none →
          ∃ t c, dispatch none s k o = .ok t
            ∧ t.slots = (s.modSlot k fun x => { x with flight := some (.insulation l) }).slots
            ∧ (t.link l).test = some c
            ∧ param8 o 0 ≤ c.settleScans * s.period.ms ∧ (c.settleScans - 1) * s.period.ms < param8 o 0
            ∧ c = { line := n, slot := k, toActive := decide (r.service = .active),
                    settleScans := c.settleScans, m := if param8 o 1 = 0 then 64 else param8 o 1,
                    passLimit := param16 o 2, foreignLimit := param16 o 4, result := resultOf o,
                    phase := 1, step := .relayWait, settleCount := 0, dwellCount := 0, sumA := 0, sumB := 0,
                    phasesDone := 0, p1 := none, p2 := none, p3 := none, p4 := none, held := 0,
                    missing := 0, mismatch := 0 }
            ∧ t.line n = { r with service := .testing, sup := .suspended, b := 0, make := 0, firstDigit := 0,
                                  dialEnd := 0, pulses := 0, ret := none, rate := .full, quiet := 0,
                                  fault := restored r.fault }
            ∧ Frame.relay (pairOf n) .feedOff .test ∈ (t.link l).queue
            ∧ (∀ m, m ≠ n → t.line m = s.line m) ∧ (∀ m, m ≠ l → t.link m = s.link m)
            ∧ t.rcvs = s.rcvs ∧ t.engine = s.engine))

/-- R110 and R111: a CALIBRATE without a line, or with a settle time of 0 or a dwell code above 3, is refused
BAD_PARAM; a line of its mask is skipped as absent, OVERRIDE, or busy, else taken; if none is taken the order is
refused with the reason of the lowest line, and the counts of the skips. Every line taken is CALIBRATING and
SUSPENDED with its counters cleared, its fault record restored and FULL rate; its context has decision 1 with
COARSE and 64, the least settle_scans whose periods last as long as the settle time, and 4, 8, 16 or 32 dwell
samples; a RELAY ZERO and a TRIM are queued. No other line changes. -/
def Obligations.CalibratesTakeTheirLines : Prop :=
  ∀ (s : State) (k : SlotNo) (o : OrderRead), s.exch = .running → kindOf o = 5 →
    let mask := allLines.filter fun n => (maskOf o).testBit n.1
    let why := fun n =>
      let r := s.line n
      if (s.link (linkOf n)).pairCount = 8 ∧ 8 ≤ n.1 % 16 then some Reason.badLine
      else if r.cal.status = .override then some .overridden
      else if (s.link (linkOf n)).state = .up
          ∧ (r.service = .parked ∨ (r.service = .active ∧ r.sup = .onHook))
          ∧ tracing s n = false ∧ r.survey.isSome = false then none
      else some .lineBusy
    let taken := mask.filter fun n => decide (why n = none)
    let count := fun y => (mask.filter fun n => decide (why n = some y)).length
    (mask = [] ∨ param8 o 0 = 0 ∨ 3 < param8 o 1 →
      dispatch none s k o = .ok (answered s k .refused .badParam []))
    ∧ (param8 o 0 ≠ 0 → param8 o 1 ≤ 3 → taken = [] → ∀ n y, mask.head? = some n → why n = some y →
      dispatch none s k o = .ok
        (answered s k .refused y [0, 0, 0, 0, count .badLine, count .overridden, count .lineBusy]))
    ∧ (param8 o 0 ≠ 0 → param8 o 1 ≤ 3 → taken ≠ [] →
      ∃ t settle, dispatch none s k o = .ok t
        ∧ param8 o 0 ≤ settle * s.period.ms ∧ (settle - 1) * s.period.ms < param8 o 0
        ∧ t.slots = (s.modSlot k fun x =>
            { x with flight := some (.calibrate
                { taken := taken.length, valid := 0, failed := 0, interrupted := 0, badLine := count .badLine,
                  overridden := count .overridden, lineBusy := count .lineBusy }) }).slots
        ∧ (∀ n ∈ taken,
            let r := s.line n
            let c : CalCtx :=
              { slot := k, toActive := decide (r.service = .active), savedRange := r.cal.range,
                savedCode := r.cal.code, settleScans := settle, d := [4, 8, 16, 32].getD (param8 o 1) 0,
                trialRange := .coarse, trialCode := 64, kept := 0, decision := 1,
                step := .frameWait true true, s1 := none, sum := 0, settleCount := 0, dwellCount := 0 }
            t.line n = { r with
              service := .calibrating, sup := .suspended, b := 0, make := 0, firstDigit := 0, dialEnd := 0,
              pulses := 0, ret := none, rate := .full, quiet := 0, fault := restored r.fault,
              calCtx := some c }
            ∧ Frame.relay (pairOf n) .zero .calibration ∈ (t.link (linkOf n)).queue
            ∧ Frame.trim (pairOf n) .coarse 64 .calibration ∈ (t.link (linkOf n)).queue)
        ∧ (∀ n, n ∉ taken → t.line n = s.line n) ∧ t.rcvs = s.rcvs ∧ t.engine = s.engine)

/-- R83, R71, R73, R85 and R86: the checks of a LISTEN; one that passes has its context, its duration clamped to 1
to 600 s, and its line waits at the tail of its class, or under the tag added to its entry, or, a receiver being
FREE and none waiting, has one granted at once. RECEIVER SERVICE: its refusals, a bad request code too showing the
receiver's state; OUT and IN by the receiver's state; and OUT of a receiver that serves a line, while none is FREE,
lets it go with out requested and puts the line at the head of its class. The detail is the state after the order;
that it is zero for a refused LISTEN, its last receiver byte too, and for a RECEIVER SERVICE naming a receiver
above 7 is the model's choice (log 21). A line whose receiver changes is marked, and listed if it is not (R165). -/
def Obligations.ListensAndReceiverServiceAct : Prop :=
  ∀ (s : State) (k : SlotNo) (o : OrderRead), s.exch = .running → PoolSound s →
    (kindOf o = 9 → presentLine s (lineOf o) = none →
      dispatch none s k o = .ok (answered s k .refused .badLine []))
    ∧ (∀ n, kindOf o = 9 → presentLine s (lineOf o) = some n →
      let r := s.line n
      let busy := r.service ≠ .active ∨ r.sup ≠ .held ∨ r.receiver ≠ none
                  ∨ ∃ j c, (s.slot j).flight = some (.listen c) ∧ c.line = n
      let c : ListenCtx :=
        { line := n, expiry := s.time + BitVec.ofNat 32 (min (max (param16 o 0) 1) 600 * 1000), count := 0,
          last := none }
      let e : WaitEntry := { line := n, cls := (s.conv n).cls, tag := some k, origin := .listen }
      (busy → dispatch none s k o = .ok (answered s k .refused .lineBusy []))
      ∧ (¬busy → (∀ j, s.rcv j ≠ .free) →
        ∃ w, dispatch none s k o = .ok
            { s.modSlot k (fun x => { x with flight := some (.listen c) }) with waiting := w }
          ∧ ((∀ x ∈ s.waiting, x.line ≠ n) →
              ∃ a d, s.waiting = a ++ d ∧ w = a ++ e :: d
                ∧ (∀ x ∈ a, e.cls ≤ x.cls) ∧ ∀ x ∈ d, x.cls < e.cls)
          ∧ (∀ x ∈ s.waiting, x.line = n →
              w = s.waiting.map fun y => if y.line = n then { y with tag := some k } else y))
      ∧ ∀ j, ¬busy → s.waiting = [] → chooseRcv s = some j → linkUp s (linkOf n) = true →
        ∃ t, dispatch none s k o = .ok t
          ∧ (t.slot k).flight = some (.listen { c with last := some j })
          ∧ t.rcv j = .connecting e { link := linkOf n, pair := pairOf n } .queued ∧ t.rotation = j
          ∧ (t.line n) = { r with receiver := some j, changePending := true }
          ∧ (∀ m, m ≠ n → t.line m = s.line m)
          ∧ t.rewriteList = s.rewriteList ++ (if n ∈ s.rewriteList then [] else [n])
          ∧ (∀ i, i ≠ j → t.rcv i = s.rcv i) ∧ t.waiting = []
          ∧ Frame.tapConnect (pairOf n) j ∈ (t.link (linkOf n)).queue ∧ t.engine = s.engine)
    ∧ (kindOf o = 10 → 8 ≤ targetOf o → dispatch none s k o = .ok (answered s k .refused .badParam []))
    ∧ ∀ j : RcvNo, kindOf o = 10 → targetOf o = j.1 →
      (1 < param8 o 0 → dispatch none s k o = .ok (answered s k .refused .badParam [codeRcv (s.rcv j)]))
      ∧ (param8 o 0 = 1 → (∀ y, s.rcv j ≠ .outOfService y) →
          dispatch none s k o = .ok (answered s k .done .none [codeRcv (s.rcv j)]))
      ∧ (∀ y, param8 o 0 = 1 → s.rcv j = .outOfService y → s.waiting = [] →
          dispatch none s k o = .ok (answered (s.setRcv j .free) k .done .none [codeRcv .free]))
      ∧ (param8 o 0 = 0 →
          (s.rcv j = .free → dispatch none s k o = .ok
            (answered (s.setRcv j (.outOfService .hostRequest)) k .done .none [6]))
          ∧ (∀ tap ph out, s.rcv j = .releasing tap ph out → dispatch none s k o = .ok
            (answered (s.setRcv j (.releasing tap ph true)) k .done .none [3]))
          ∧ (∀ tap out, s.rcv j = .stranded tap out → dispatch none s k o = .ok
            (answered (s.setRcv j (.stranded tap true)) k .done .none [5]))
          ∧ (∀ y, s.rcv j = .outOfService y → dispatch none s k o = .ok (answered s k .done .none [6]))
          ∧ (∀ y, s.rcv j = .checking y →
            dispatch none s k o = .ok (answered s k .refused .resourceBusy [4]))
          ∧ ∀ e tap,
            let up := (s.link tap.link).state = .up
            let gone := fun (c : RcvState) => if up then c else .stranded tap true
            (∀ i, s.rcv i ≠ .free) → grantedEntry (s.rcv j) = some e → tapHeld (s.rcv j) = some tap →
            ∃ t a d, dispatch none s k o = .ok t
              ∧ (s.rcv j = .connecting e tap .queued → t.rcv j = gone (.outOfService .hostRequest))
              ∧ (s.rcv j = .connecting e tap .sent → t.rcv j = gone (.releasing tap .awaitConnectAck true))
              ∧ (∀ y, s.rcv j = .connecting e tap (.guarding y) →
                  t.rcv j = gone (.releasing tap .awaitDisconnectAck true))
              ∧ (s.rcv j = .listening e tap → t.rcv j = gone (.releasing tap .awaitDisconnectAck true))
              ∧ t.slots = (answered s k .done .none [codeRcv (t.rcv j)]).slots
              ∧ t.det j = Det.reset ∧ (∀ i, i ≠ j → t.rcv i = s.rcv i)
              ∧ t.line e.line = { s.line e.line with receiver := none, changePending := true }
              ∧ t.rewriteList = s.rewriteList ++ (if e.line ∈ s.rewriteList then [] else [e.line])
              ∧ (∀ m, m ≠ e.line → t.line m = s.line m)
              ∧ s.waiting = a ++ d ∧ t.waiting = a ++ e :: d ∧ (∀ x ∈ a, e.cls < x.cls)
              ∧ (∀ x ∈ d, x.cls ≤ e.cls) ∧ t.engine = s.engine)

/-- R155, R156, R87 and R150: the checks of a RECEIVER CHECK and of a TRACE in their order. A check that passes
has its context, the on and off times clamped to 40 to 200 ms and counted in blocks, the receiver CHECKING with
its prior state and its first block beginning now, the output LOOPBACK and the channels at the first digit's row
and column codes. A trace that passes has its context in RELAY_WAIT, codes clamped to 3840 and the duration to 1
to 900 s, its line's trace flag is set and the RELAY of its mode is queued; the line does not change otherwise.
R148: the checked receiver alone is fed the digit's two tones, each 1,024,000 / (4096 - N) Hz at 2n - 31 dBm, and
the test tone bus carries nothing. That bit 0 of the flags is remove on fail and the other bits are ignored, so
that this check of R155 never refuses, is log 22 (DEDUCED); the zero detail of a refusal is log 21 (a design
choice). -/
def Obligations.ChecksAndTracesAreTaken : Prop :=
  ∀ (s : State) (k : SlotNo) (o : OrderRead), s.exch = .running →
    (kindOf o = 11 →
      let count := param8 o 0
      let paramOk := targetOf o < 8 ∧ 1 ≤ count ∧ count ≤ 16 ∧ 1 ≤ param8 o 1 ∧ param8 o 1 ≤ 15
                     ∧ ∀ i, i < count → param8 o (4 + i) ≤ 15
      (¬paramOk → dispatch none s k o = .ok (answered s k .refused .badParam []))
      ∧ ∀ j : RcvNo, targetOf o = j.1 → paramOk →
        ((s.rcv j ≠ .free ∧ ∀ y, s.rcv j ≠ .outOfService y) ∨ s.gen.ctx ≠ .none →
          dispatch none s k o = .ok (answered s k .refused .resourceBusy []))
        ∧ ∀ prior : Option OutReason,
          s.rcv j = (match prior with
            | some y => .outOfService y
            | none => .free) → s.gen.ctx = .none →
          ∃ t c a b y, dispatch none s k o = .ok t
            ∧ t.slots = (s.modSlot k fun x => { x with flight := some .check }).slots
            ∧ t.gen = { chA := { n := [2627, 2766, 2894, 3008].getD a 0, level := param8 o 1 },
                        chB := { n := [3249, 3330, 3403, 3469].getD b 0, level := param8 o 1 },
                        output := .loopback, ctx := .check c }
            ∧ toneFed t j
              = [{ hz := 1024000 / (4096 - ([2627, 2766, 2894, 3008].getD a 0 : Rat)),
                   dbm := 2 * (param8 o 1 : Int) - 31 },
                 { hz := 1024000 / (4096 - ([3249, 3330, 3403, 3469].getD b 0 : Rat)),
                   dbm := 2 * (param8 o 1 : Int) - 31 }]
            ∧ (∀ i, i ≠ j → toneFed t i = []) ∧ testToneBus t = []
            ∧ (keypadTable[a]?.bind fun row => row[b]?) = some y ∧ c.digits.head? = some y
            ∧ c.digits.map codeSymbol = (List.range count).map (fun i => param8 o (4 + i))
            ∧ c = { rcv := j, slot := k, digits := c.digits, level := param8 o 1, removeOnFail := flagOf o,
                    onBlocks := (min (max (param8 o 2) 40) 200 + 9) / 10,
                    offBlocks := (min (max (param8 o 3) 40) 200 + 9) / 10,
                    records := List.replicate count none, position := 0 }
            ∧ t.rcv j = .checking prior ∧ t.det j = { state := .quiet, began := some s.time }
            ∧ (∀ i, i ≠ j → t.rcv i = s.rcv i ∧ t.det i = s.det i)
            ∧ t.lines = s.lines ∧ t.links = s.links ∧ t.waiting = s.waiting ∧ t.engine = s.engine)
    ∧ (kindOf o = 12 →
      (presentLine s (lineOf o) = none → dispatch none s k o = .ok (answered s k .refused .badLine []))
      ∧ ∀ n, presentLine s (lineOf o) = some n →
        let r := s.line n
        let l := linkOf n
        let paramOk := 1 ≤ param8 o 4 ∧ param8 o 4 ≤ 15 ∧ param8 o 5 ≤ 2 ∧ param8 o 6 ≤ 1
        let quietLine := (s.link l).state = .up ∧ (r.service = .parked
          ∨ (r.service = .active ∧ (r.sup = .onHook ∨ r.sup = .fault ∨ r.sup = .lockout)))
        let c : TraceCtx :=
          { line := n, slot := k, na := min (param16 o 0) 3840, nb := min (param16 o 2) 3840,
            level := param8 o 4, rate := [.hz4, .hz8, .hz16].getD (param8 o 5) .hz4,
            longitudinal := decide (param8 o 6 = 1),
            expiry := s.time + BitVec.ofNat 32 (min (max (param16 o 8) 1) 900 * 1000),
            step := .relayWait, halves := 0 }
        (¬paramOk → dispatch none s k o = .ok (answered s k .refused .badParam []))
        ∧ (paramOk → ¬quietLine → dispatch none s k o = .ok (answered s k .refused .lineBusy []))
        ∧ (paramOk → quietLine → s.gen.ctx ≠ .none →
            dispatch none s k o = .ok (answered s k .refused .resourceBusy []))
        ∧ (paramOk → quietLine → s.gen.ctx = .none →
          ∃ t, dispatch none s k o = .ok t
            ∧ t.slots = (s.modSlot k fun x => { x with flight := some .trace }).slots
            ∧ t.gen = { s.gen with ctx := .trace c }
            ∧ t.line n = { r with trace := true } ∧ (∀ m, m ≠ n → t.line m = s.line m)
            ∧ Frame.relay (pairOf n) (if param8 o 6 = 1 then .traceLongitudinal else .traceMetallic) .trace
                ∈ (t.link l).queue
            ∧ (∀ m, m ≠ l → t.link m = s.link m) ∧ t.rcvs = s.rcvs ∧ t.engine = s.engine))

/-! ### Completions, rewrites and failures -/

/-- R178: writing a completion stores its result buffer, if it has one, field after field from its offset in the
free region, then outcome, reason and detail, then the accepted count as completion count, which becomes the
engine's copy; the change count and EVENT go on; no other byte of the area is written and no other record
changes. -/
def Obligations.CompletionWritesTheSlot : Prop :=
  ∀ (k : SlotNo) (b : Bus) (s : State) (c : Completion), b.wf = true → b.bad = none → memOk s →
    s.exch = .running ∨ s.exch = .stopping → (s.slot k).due = some c → c.detail.length = 10 →
    let off := slotOffset k
    let buffer := fun at_ => ∃ from_ fields, c.result = some (from_, fields) ∧ from_ ≤ at_
                               ∧ at_ < from_ + (fields.map Prod.fst).sum
    (∀ at_, buffer at_ → 0x6900 ≤ at_ ∧ at_ < 32768 * 2 ^ (min s.latchWin.toNat 5)) →
    ∃ t, exec (.completion k b) s = .next t
      ∧ (∀ from_ fields, c.result = some (from_, fields) → shows t 0 (placed from_ fields))
      ∧ areaField t (off + 0x34) 1 = codeOutcome c.outcome
      ∧ areaField t (off + 0x35) 1 = codeReason c.reason
      ∧ memReadBytes t.mem (areaAddr t (off + 0x36)) 10 = c.detail
      ∧ areaField t (off + 0x32) 2 = (s.slot k).accepted.toNat
      ∧ t.slot k = { s.slot k with completion := (s.slot k).accepted, due := none }
      ∧ (∀ j, j ≠ k → t.slot j = s.slot j)
      ∧ t.changeCount = s.changeCount + 1 ∧ t.event = true ∧ t.headerPending = true
      ∧ keepsOutside t (controllerWrites s.mem b.ctl)
          (fun o => (off + 0x32 ≤ o ∧ o < off + 0x40) ∨ buffer o)
      ∧ { t with slots := s.slots, changeCount := s.changeCount, event := s.event,
                 headerPending := s.headerPending, mem := s.mem } = s

/-- R164, step 1, R162, R165 and R167: the engine takes the line at the head of the rewrite list, clears its
marks, leaves an odd update count in its image, writes the entries that fit from the position of the written
count on, the fields whose captured value differs from the one last written, and for a pace mark the
measurement fields; every other field keeps its bytes, and no byte outside the image is written. The line's
queue, supervision and measurement do not change. With an entry to move and no room, the taken count is read: a
valid one is taken, another raises the protocol error count (R161). The rewrite is notable exactly if an entry
moves or a field other than the profile number and the fault record's peak differs (R166). That the part's copy of
the written count goes on before the even write is log 31; that a pace mark writes the measurement fields from
the accumulators whatever the line's service is by then is the model's choice (log 39). -/
def Obligations.ImageRewriteTakesTheHead : Prop :=
  ∀ (b : Bus) (s : State) (n : LineNo) (rest : List LineNo), b.wf = true → b.bad = none → memOk s →
    s.exch = .running → s.rewriting = none → s.rewriteList = n :: rest →
    (s.line n).update.toNat % 2 = 0 →
    let r := s.line n
    let u := withCtl b s
    let off := imageOffset n
    ∃ t w, exec (.imageRewrite b) s = .next t
      ∧ t.rewriting = some w ∧ w.line = n ∧ t.rewriteList = rest
      ∧ (r.queue ≠ [] → room r = 0 →
          let v := BitVec.ofNat 16 (areaField u (off + 0x178) 2)
          let valid := decide ((r.written - v).toNat ≤ 32)
          (t.line n).taken = (if valid then v else r.taken)
          ∧ t.protocolErrors = (if valid then s.protocolErrors else min (s.protocolErrors + 1) 65535)
          ∧ w.moved = (if valid then min (32 - (r.written - v).toNat) r.queue.length else 0))
      ∧ (r.queue = [] ∨ room r ≠ 0 →
          w.moved = min (room r) r.queue.length ∧ (t.line n).taken = r.taken
          ∧ t.protocolErrors = s.protocolErrors)
      ∧ (w.notable = true ↔ 0 < w.moved ∨ ∃ x ∈ (imageLayout (imageOf s n)).zip (imageLayout r.image),
          x.1.2.2 ≠ x.2.2.2 ∧ x.1.1 ≠ 0x008 ∧ x.1.1 ≠ 0x036)
      ∧ (t.line n).changePending = false ∧ (t.line n).pacePending = false
      ∧ (t.line n).image = imageOf s n
      ∧ (t.line n).written = r.written + BitVec.ofNat 16 w.moved
      ∧ (t.line n).update = r.update ∧ (t.line n).queue = r.queue
      ∧ areaField t off 2 % 2 = 1 ∧ areaField t off 2 = (r.update + 1).toNat
      ∧ areaField t (off + 0x002) 2 = (if w.moved = 0 then areaField u (off + 0x002) 2
                                       else (t.line n).written.toNat)
      ∧ (∀ x ∈ (imageLayout (imageOf s n)).zip (imageLayout r.image),
          areaField t (off + x.1.1) x.1.2.1
            = if x.1.2.2 = x.2.2.2 then areaField u (off + x.1.1) x.1.2.1
              else (x.1.2.2 % (2 ^ (8 * x.1.2.1) : Nat)).toNat)
      ∧ (∀ i e, i < w.moved → r.queue[i]? = some e →
          shows t off (entryLayout ((r.written.toNat + i) % 32) e))
      ∧ (r.pacePending = true →
          shows t off (measureLayout r) ∧ (t.line n).measWritten = r.measTime)
      ∧ (r.pacePending = false → (t.line n).measWritten = r.measWritten
          ∧ ∀ x ∈ measureLayout r, areaField t (off + x.1) x.2.1 = areaField u (off + x.1) x.2.1)
      ∧ keepsOutside t u.mem (fun o => off ≤ o ∧ o < off + 0x178)
      ∧ (∀ m, m ≠ n → t.line m = s.line m)
      ∧ t.slots = s.slots ∧ t.links = s.links ∧ t.rcvs = s.rcvs ∧ t.changeCount = s.changeCount

/-- R164, step 3, R162, R166 and R175: the even write stores the update count plus 2, which becomes the part's
copy, takes the moved entries off the queue, and, for a notable rewrite only, advances the change count and
sets EVENT; no other byte is written and no other record changes. When the even write fails, the exchange halts
at the failed address, nothing is written, the moved entries stay in the digit queue, and the copies of the
update count and of the written count are those of before the rewrite (the written copy, which the model had
advanced, is set back: log 31). That the even write of STOPPING acts as that of RUNNING is log 38. -/
def Obligations.EvenWritesEndTheRewrite : Prop :=
  (∀ (b : Bus) (s : State) (w : Rewrite), b.wf = true → b.bad = none → memOk s →
    s.exch = .running ∨ s.exch = .stopping → s.rewriting = some w →
    ∃ t, exec (.rewriteEnd b) s = .next t
      ∧ t.rewriting = none
      ∧ (t.line w.line) = { s.line w.line with update := (s.line w.line).update + 2,
                                               queue := (s.line w.line).queue.drop w.moved }
      ∧ (∀ m, m ≠ w.line → t.line m = s.line m)
      ∧ areaField t (imageOffset w.line) 2 = ((s.line w.line).update + 2).toNat
      ∧ t.changeCount = (if w.notable then s.changeCount + 1 else s.changeCount)
      ∧ t.event = (s.event || w.notable)
      ∧ t.headerPending = (s.headerPending || w.notable)
      ∧ keepsOutside t (controllerWrites s.mem b.ctl)
          (fun o => imageOffset w.line ≤ o ∧ o < imageOffset w.line + 2)
      ∧ { t with rewriting := s.rewriting, lines := s.lines, changeCount := s.changeCount,
                 event := s.event, headerPending := s.headerPending, mem := s.mem } = s)
  ∧ ∀ (b : Bus) (s : State) (w : Rewrite) (a : Word), b.wf = true → b.bad = some a →
    s.exch = .running ∨ s.exch = .stopping → s.rewriting = some w →
    (areaAddr s (imageOffset w.line) = a.toNat ∨ areaAddr s (imageOffset w.line + 1) = a.toNat) →
    ∃ t, exec (.rewriteEnd b) s = .next t
      ∧ t.exch = .halted ∧ t.busErr = true ∧ readReg .faddr t = a ∧ t.rewriting = none
      ∧ (t.line w.line).queue = (s.line w.line).queue
      ∧ (t.line w.line).update = (s.line w.line).update
      ∧ (t.line w.line).written = (s.line w.line).written - BitVec.ofNat 16 w.moved
      ∧ t.mem = controllerWrites s.mem b.ctl ∧ t.changeCount = s.changeCount ∧ t.event = s.event

/-- R175: a failed master access in STARTING, RUNNING or STOPPING sets BUS_ERR, puts the address in FADDR,
halts the exchange, ends every order in flight without a completion, gives up the rewrite and the lists, and
keeps every change-pending mark; the area, EVENT and the change count do not change. -/
def Obligations.AFailedAccessHaltsTheExchange : Prop :=
  ∀ (addr : Word) (s : State),
    s.exch = .starting ∨ s.exch = .running ∨ s.exch = .stopping →
    ∃ t, exec (.masterAccessFailure addr) s = .next t
      ∧ t.exch = .halted ∧ t.busErr = true ∧ readReg .faddr t = addr
      ∧ t.sweeping = false ∧ t.sweepAgain = false ∧ t.rewriteList = [] ∧ t.rewriting = none
      ∧ (∀ k, (t.slot k).flight = none ∧ (t.slot k).due = none
          ∧ (t.slot k).accepted = (s.slot k).accepted ∧ (t.slot k).completion = (s.slot k).completion)
      ∧ (∀ n, (s.line n).changePending = true → (t.line n).changePending = true)
      ∧ t.mem = s.mem ∧ t.event = s.event ∧ t.changeCount = s.changeCount ∧ t.ctrl = s.ctrl

/-- R167: at a cabinet time that is a multiple of a pace's interval, the ACTIVE lines neither UNSENSED nor
SUSPENDED whose profile has that pace and whose measurement time differs from the one last written are
marked pace pending and, while RUNNING, listed once each; nothing else changes. That several lines join in
ascending order is log 12, and that a tick at another time does nothing log 2. -/
def Obligations.PaceTicksMarkMeasuredLines : Prop :=
  ∀ (q : Pace) (s : State), ∃ t, exec (.paceTick q) s = .next t
    ∧ (s.time.toNat % paceMs q ≠ 0 → t = s)
    ∧ (s.time.toNat % paceMs q = 0 →
        let due := fun n =>
          decide ((s.line n).service = .active ∧ (s.line n).sup ≠ .unsensed ∧ (s.line n).sup ≠ .suspended
            ∧ (s.conv n).pace = some q ∧ (s.line n).measTime ≠ (s.line n).measWritten)
        (∀ n, t.line n = { s.line n with pacePending := (s.line n).pacePending || due n })
        ∧ t.rewriteList = s.rewriteList
            ++ (if s.exch = .running then allLines.filter (fun n => due n && decide (n ∉ s.rewriteList))
                else [])
        ∧ { t with lines := s.lines, rewriteList := s.rewriteList } = s)

/-- R165: apart from the commands that reset the part or write images in full, every step that changes a
part-owned field of a line's image marks that image, and while the exchange is RUNNING the line is then on
the rewrite list; and while it stays RUNNING the lines listed keep their places, new ones joining behind them: a
step that begins a rewrite takes the head, and every other step leaves all of them. -/
def Obligations.EveryImageChangeIsMarked : Prop :=
  (∀ (c : Instr) (s t : State) (n : LineNo), clearsMarks c = false → exec c s = .next t →
    imageOf s n ≠ imageOf t n →
    (t.line n).changePending = true ∧ (t.exch = .running → n ∈ t.rewriteList))
  ∧ ∀ (c : Instr) (s t : State), clearsMarks c = false → exec c s = .next t →
    s.exch = .running → t.exch = .running →
    (t.rewriting = s.rewriting ∨ t.rewriting = none → s.rewriteList <+: t.rewriteList)
    ∧ (t.rewriting ≠ s.rewriting → t.rewriting ≠ none →
        s.rewriteList.tail <+: t.rewriteList ∧ t.rewriting.map Rewrite.line = s.rewriteList.head?)

/-- 11.2 and R175: a command without master accesses writes no byte of the area, and while the exchange is
HALTED no command does. -/
def Obligations.AHaltedExchangeMakesNoTraffic : Prop :=
  ∀ (c : Instr) (s t : State), exec c s = .next t →
    usesBus c = false ∨ s.exch = .halted → t.mem = controllerWrites s.mem (ctlOf c)

/-! ### Scans -/

/-- R142, R143 and R141: at a multiple of the period that the period in progress has come to, the period count
goes on, the next period ends no sooner than a period later, and every UP link without an exchange sends its
retry frame, else the head of its control queue, else the SAMPLE of its first pair that is present, in service,
restored and due by its rate. That the command does nothing at another time is log 2. -/
def Obligations.PeriodStartsSendOnEveryLink : Prop :=
  ∀ s : State,
    let starts := s.time.toNat % s.period.ms = 0 ∧ (s.time - s.periodEnd).toNat < 2 ^ 31
    ∃ t, exec .scanPeriodStart s = .next t
    ∧ (¬starts → t = s)
    ∧ (starts →
        t.periodCount = s.periodCount + 1
        ∧ (∀ l, (s.link l).state = .up → (s.link l).exchange = none →
            (t.link l).exchange =
              match (s.link l).retry, (s.link l).queue with
              | some f, _ => some f
              | none, f :: _ => some f
              | none, [] =>
                (allPairs.find? fun p =>
                  eligible s (lineAt l p)
                  && (decide ((s.line (lineAt l p)).rate = .full)
                      || decide ((s.periodCount + 1).toNat % 16 = (lineAt l p).1 % 16))).map Frame.sample)
        ∧ (∀ l, (s.link l).state ≠ .up → t.link l = s.link l)
        ∧ t.engine = { s.engine with periodCount := s.periodCount + 1,
                                     periodEnd := s.time + BitVec.ofNat 32 s.period.ms })

/-- R8, R9: an ACCEPTED scan of an ACTIVE line seeds its accumulators with 16 times the sample, or moves
each by the difference over 2^k rounded down, stamps the measurement time, and touches no other line but
for receivers; no register, count or byte of memory changes. -/
def Obligations.AcceptedScansFilterTheSample : Prop :=
  ∀ (l : LinkNo) (p : PairNo) (x : Sample) (s : State),
    let n := lineAt l p
    let r := s.line n
    let k := (s.conv n).shift
    let move := fun (a y : Int) => if r.seedPending then 16 * y else a + (16 * y - a) / (2 ^ k : Nat)
    (s.link l).exchange = some (.sample p) → r.service = .active →
    x.surge = false → surgeInForce s l = false → x.testRange = false →
    ∃ t, exec (.sampleReply l p x) s = .next t
      ∧ (t.line n).aVt = move r.aVt x.vt.toInt ∧ (t.line n).aVr = move r.aVr x.vr.toInt
      ∧ (t.line n).aI = move r.aI x.i.toInt
      ∧ (t.line n).seedPending = false ∧ (t.line n).measTime = s.time
      ∧ (∀ m, m ≠ n → sameButReceiver (t.line m) (s.line m))
      ∧ (t.link l).failRun = 0 ∧ t.engine = s.engine

/-- R13 to R17: an ACCEPTED scan of an ACTIVE line gives it the raw class of its filtered values by the
profile's thresholds, the loop current threshold being I_off while the line is accepted as looped; updates
candidate and run, OPEN and LEAK counting as one class for a line that leaves a loop; and accepts the candidate
whose run has reached the persistence of its transition: the accepted class is then the candidate and the age its
run. -/
def Obligations.AcceptedScansClassifyTheLine : Prop :=
  ∀ (l : LinkNo) (p : PairNo) (x : Sample) (s : State),
    let n := lineAt l p
    let r := s.line n
    let c := s.conv n
    let open_ := fun y => decide (y = Cls.opn ∨ y = Cls.leak)
    let major := fun y => decide (y = Cls.short ∨ y = Cls.ground ∨ y = Cls.foreign)
    let looped := decide (r.accepted = .closed ∨ r.accepted = .short)
    let iThr := if looped then c.thr.iOff else c.thr.iOn
    (s.link l).exchange = some (.sample p) → r.service = .active →
    x.surge = false → surgeInForce s l = false → x.testRange = false →
    ∃ t, exec (.sampleReply l p x) s = .next t
      ∧ (let vt := vtF (t.line n)
         let vr := vrF (t.line n)
         let i := iF (t.line n)
         let raw : Cls :=
           if c.thr.vFpos < max vt vr ∨ min vt vr < c.thr.vFneg then .foreign
           else if iThr ≤ i ∧ vt - vr ≤ c.thr.vShort then .short
           else if iThr ≤ i then .closed
           else if c.thr.vGnd ≤ vt + vr - c.thr.vsNom then .ground
           else if c.thr.iLeak ≤ i then .leak
           else .opn
         let goesOn := (looped && open_ raw && (r.candidate.map open_).getD false)
                       || decide (r.candidate = some raw)
         let run := if goesOn then min (r.run + 1) 65535 else 1
         let need :=
           if major raw then c.fault
           else if major r.accepted then c.restore
           else if r.accepted ≠ .none ∧ open_ r.accepted = true ∧ open_ raw = true then c.fault
           else c.hook
         (raw = r.accepted →
             (t.line n).candidate = none ∧ (t.line n).run = 0 ∧ (t.line n).accepted = r.accepted
             ∧ (t.line n).age = r.age)
         ∧ (raw ≠ r.accepted → run < need →
             (t.line n).candidate = some raw ∧ (t.line n).run = run ∧ (t.line n).accepted = r.accepted
             ∧ (t.line n).age = r.age)
         ∧ (raw ≠ r.accepted → need ≤ run →
             (t.line n).candidate = none ∧ (t.line n).run = 0 ∧ (t.line n).accepted = raw
             ∧ (t.line n).age = run))
      ∧ (∀ m, m ≠ n → sameButReceiver (t.line m) (s.line m)) ∧ t.engine = s.engine

/-- R90 to R92, R27, R43 and R44: what an ACCEPTED scan of a supervised line does to its fault record. While
the record is ACTIVE its peak is raised by the measure of its latest kind. An acceptance of a major class, and
an entry to ON_HOOK with LEAK or an acceptance of LEAK in it, is an event: a record is created, or takes the
kind and time, one occurrence more up to 255, ACTIVE, its peak the scan's measure of a new kind, else raised by
it; first kind and time stay. Else the record is restored when OPEN is accepted on a minor one or supervision
leaves FAULT, and keeps the rest. -/
def Obligations.FaultRecordsFollowTheScans : Prop :=
  ∀ (l : LinkNo) (p : PairNo) (x : Sample) (s : State),
    let n := lineAt l p
    let r := s.line n
    let thr := (s.conv n).thr
    let front := (scanMeasure (atReply s l x) n x).line n
    let acc := acceptedNow (s.conv n) front
    let major := fun y => decide (y = Cls.short ∨ y = Cls.ground ∨ y = Cls.foreign)
    (s.link l).exchange = some (.sample p) → r.service = .active →
    r.sup ≠ .none → r.sup ≠ .unsensed → r.sup ≠ .suspended →
    x.surge = false → surgeInForce s l = false → x.testRange = false →
    ∃ t, exec (.sampleReply l p x) s = .next t
      ∧ (let vt := vtF (t.line n)
         let vr := vrF (t.line n)
         let of_ : Cls → Int := fun k =>
           match k with
           | .foreign => max (max vt vr - thr.vFpos) (thr.vFneg - min vt vr)
           | .ground => vt + vr - thr.vsNom
           | .short => vt - vr
           | .leak => iF (t.line n)
           | _ => 0
         let worst : Cls → Int → Int := fun k old => if k = .short then min old (of_ k) else max old (of_ k)
         let peak := fun (f : FaultRec) => if f.active then worst f.latest f.peak else f.peak
         let event := fun k =>
           match r.fault with
           | none => some { active := true, first := k, latest := k, occurrences := 1, firstTime := s.time,
                            latestTime := s.time, peak := of_ k : FaultRec }
           | some f => some { f with active := true, latest := k, occurrences := min (f.occurrences + 1) 255,
                                     latestTime := s.time,
                                     peak := if k = f.latest then worst k (peak f) else of_ k }
         let minor := decide ((t.line n).sup = .onHook ∧ (t.line n).accepted = .leak)
                      && (decide (r.sup ≠ .onHook) || acc.isSome)
         (t.line n).fault =
           match acc with
           | some k =>
             if major k then event k
             else if minor then event .leak
             else r.fault.map fun f =>
               { f with peak := peak f,
                        active := f.active && !decide (k = .opn ∧ f.latest = .leak) && decide (r.sup ≠ .fault) }
           | none =>
             if minor then event .leak else r.fault.map fun f => { f with peak := peak f })
      ∧ (∀ m, m ≠ n → (t.line m).fault = (s.line m).fault) ∧ t.engine = s.engine

/-- R5, R6: a reply under the surge hold, or one that carries SURGE, is HELD: it changes no measurement,
candidate, class or supervision of its ACTIVE line, and counts only in its survey; a SURGE reply puts the
hold in force from now, and the hold is in force while less than 100 ms have passed since. -/
def Obligations.HeldScansLeaveTheLineAlone : Prop :=
  ∀ (l : LinkNo) (p : PairNo) (x : Sample) (s : State),
    let n := lineAt l p
    (s.link l).exchange = some (.sample p) → (s.line n).service = .active →
    (∀ c, (s.line n).survey = some c → c.accepted < c.n) →
    x.surge = true ∨ ((s.link l).surgeOn = true ∧ (s.time - (s.link l).surgeTime).toNat < 100) →
    ∃ t, exec (.sampleReply l p x) s = .next t
      ∧ (t.line n).bare
          = { s.line n with survey :=
                (s.line n).survey.map fun (c : SurveyCtx) => { c with held := min (c.held + 1) 65535 } }.bare
      ∧ (∀ m, m ≠ n → (t.line m).bare = (s.line m).bare)
      ∧ (x.surge = true → (t.link l).surgeOn = true ∧ (t.link l).surgeTime = s.time)
      ∧ (x.surge = false → (t.link l).surgeOn = (s.link l).surgeOn
          ∧ (t.link l).surgeTime = (s.link l).surgeTime)
      ∧ (t.link l).failRun = 0 ∧ (t.link l).idleTime = s.time ∧ t.slots = s.slots
      ∧ t.engine = s.engine

/-- R28, R30, R48, R35 and R36: a SAMPLE_REPLY at which an ON_HOOK line comes to hold the accepted class CLOSED
makes it SEIZED, or LOCKOUT at once if the age of the acceptance reaches the first-digit timeout. CLOSED accepted
with age a on an ON_HOOK line makes it SEIZED with both counters at a, at FULL rate with its quiet counter at 0;
with tone dialling, a line without a receiver and not on the list joins the list, or is granted a receiver at once;
no other counter, dial-end, pulse count or break counter, moves. CLOSED accepted with age m in BREAK, the break
being no longer than break_max or no digit in progress, judges the length d = b - m as a hit, a pulse, a flash or
an invalid break, in this order, with the effect that the row gives. -/
def Obligations.AcceptancesMoveTheCall : Prop :=
  (∀ (l : LinkNo) (p : PairNo) (x : Sample) (s : State),
    let n := lineAt l p
    let r := s.line n
    (s.link l).exchange = some (.sample p) → r.service = .active → r.sup = .onHook →
    x.surge = false → surgeInForce s l = false → x.testRange = false →
    ∃ t, exec (.sampleReply l p x) s = .next t
      ∧ (r.accepted ≠ .closed → (t.line n).accepted = .closed →
          ((s.conv n).firstDigit ≤ (t.line n).age → (t.line n).sup = .lockout)
          ∧ ((t.line n).age < (s.conv n).firstDigit →
              (t.line n).sup = .seized ∧ (t.line n).firstDigit = (t.line n).age
              ∧ (t.line n).make = (t.line n).age ∧ (t.line n).rate = .full ∧ (t.line n).quiet = 0
              ∧ (t.line n).b = r.b ∧ (t.line n).dialEnd = r.dialEnd ∧ (t.line n).pulses = r.pulses
              ∧ (t.line n).pulseSeen = r.pulseSeen ∧ (t.line n).queue = r.queue
              ∧ ((s.conv n).toneDial = true → r.receiver = none → entryOf s n = none →
                  (t.line n).receiver ≠ none ∨ (entryOf t n).isSome = true)
              ∧ ((s.conv n).toneDial = false →
                  (t.line n).receiver = r.receiver ∧ t.waiting = s.waiting ∧ t.rcvs = s.rcvs)))
      ∧ t.engine = s.engine)
  ∧ (∀ (s : State) (n : LineNo) (a : Nat), (s.line n).sup = .onHook →
    let t := transition s n .closed a
    (t.line n).sup = .seized ∧ (t.line n).firstDigit = a ∧ (t.line n).make = a
    ∧ (t.line n).rate = .full ∧ (t.line n).quiet = 0 ∧ (t.line n).b = (s.line n).b
    ∧ (t.line n).dialEnd = (s.line n).dialEnd ∧ (t.line n).pulses = (s.line n).pulses
    ∧ (t.line n).pulseSeen = (s.line n).pulseSeen ∧ (t.line n).queue = (s.line n).queue
    ∧ ((s.conv n).toneDial = true → (s.line n).receiver = none → entryOf s n = none →
        ((t.line n).receiver ≠ none ∨ (entryOf t n).isSome = true))
    ∧ ((s.conv n).toneDial = false →
        (t.line n).receiver = (s.line n).receiver ∧ t.waiting = s.waiting ∧ t.rcvs = s.rcvs)
    ∧ ∀ m, m ≠ n → sameButReceiver (t.line m) (s.line m))
  ∧ ∀ (s : State) (n : LineNo) (m : Nat),
    let p := s.conv n
    let r := s.line n
    let d := r.b - m
    let t := (transition s n .closed m).line n
    r.sup = .brk → m ≤ r.b → r.pulses = 0 ∨ d ≤ p.breakMax →
    t.make = m
    ∧ (d < p.breakMin → t.sup = returnState r ∧ t.pulses = r.pulses ∧ t.queue = r.queue)
    ∧ (p.breakMin ≤ d → d ≤ p.breakMax →
        t.sup = .dialling ∧ t.pulses = min (r.pulses + 1) 15 ∧ t.dialEnd = 0 ∧ t.queue = r.queue)
    ∧ (p.breakMin ≤ d → p.breakMax < d → p.flashMin ≤ d → d ≤ p.flashMax →
        t.sup = .seized ∧ t.firstDigit = 0 ∧ t.pulseSeen = false
        ∧ t.queue = (pushEntry r .flash .hook 0 s.time).queue)
    ∧ (p.breakMin ≤ d → p.breakMax < d → d < p.flashMin ∨ p.flashMax < d →
        t.sup = returnState r ∧ t.firstDigit = r.firstDigit
        ∧ t.queue = (pushEntry r .invalid .hook 0 s.time).queue)
    ∧ t.ret = none

/-- R37, R34, R38, R41 and R159: when a scan brings an interdigit or a long-break completion, the digit of
the pulse count joins the line's queue, with its source, count, LOSS and time, or is lost while the queue
holds 16; the pulse count is then 0. That an interdigit completion leaves the line in DIALLING though the dial-end
timeout, too, was due on that scan, its counter being zeroed first, is the model's choice (log 43). -/
def Obligations.CompletedDigitsJoinTheQueue : Prop :=
  ∀ (l : LinkNo) (p : PairNo) (x : Sample) (s : State) (c : Instr),
    let n := lineAt l p
    let f := scanFront (atReply s l x) n x
    let r := f.line n
    (c = .interdigitCompletion l p x ∧ replyCase (atLimits interdigitDue) .active s l p x = true)
    ∨ (c = .longBreakCompletion l p x ∧ replyCase (atLimits longBreakDue) .active s l p x = true) →
    ∃ t, exec c s = .next t
      ∧ (t.line n).pulses = 0
      ∧ (r.queue.length < 16 → (t.line n).lost = r.lost ∧ (t.line n).lossPending = false
          ∧ (t.line n).queue = r.queue ++
              [{ symbol := pulseSymbol (s.conv n).numbering r.pulses, source := .pulse,
                 pulses := r.pulses, loss := r.lossPending, time := s.time }])
      ∧ (16 ≤ r.queue.length → (t.line n).queue = r.queue ∧ (t.line n).lossPending = true
          ∧ (t.line n).lost = min (r.lost + 1) 65535)
      ∧ (c = .interdigitCompletion l p x → 0 < (s.conv n).dialEnd →
          (t.line n).sup = .dialling ∧ (t.line n).dialEnd = 0 ∧ (t.line n).pulseSeen = true)
      ∧ (c = .longBreakCompletion l p x → clearDue f n = false → firstDigitDue f n = false →
          (t.line n).sup = .brk)
      ∧ (∀ m, m ≠ n → sameButReceiver (t.line m) (s.line m))
      ∧ t.engine = s.engine

/-- R33, R42, R27, R30 and R31: when a scan brings a clear, of a line in BREAK or in LOCKOUT, the line is
ON_HOOK with every counter at 0, no return state, and the rate that the economy flag gives; when it brings a
first-digit timeout the line is in LOCKOUT, with b kept unless the loop is accepted CLOSED; when it brings a
dial-end timeout the line is HELD, and a digit in progress was completed first. Other lines may only be granted
receivers. -/
def Obligations.ClearsAndTimeoutsEndTheCall : Prop :=
  (∀ (l : LinkNo) (p : PairNo) (x : Sample) (s : State) (c : Instr),
    let n := lineAt l p
    (c = .clear l p x ∧ replyCase (atLimits clearDue) .active s l p x = true)
    ∨ (c = .lockoutClear l p x ∧ replyCase (atLimits lockoutClearDue) .active s l p x = true) →
    ∃ t, exec c s = .next t
      ∧ (t.line n).sup = .onHook ∧ (t.line n).service = .active
      ∧ (t.line n).b = 0 ∧ (t.line n).make = 0 ∧ (t.line n).firstDigit = 0 ∧ (t.line n).dialEnd = 0
      ∧ (t.line n).pulses = 0 ∧ (t.line n).pulseSeen = false ∧ (t.line n).ret = none
      ∧ (t.line n).quiet = 0
      ∧ (t.line n).rate = (if s.economy = true ∧ (s.line n).survey = none then .quiet else .full)
      ∧ (∀ m, m ≠ n → sameButReceiver (t.line m) (s.line m))
      ∧ t.engine = s.engine)
  ∧ ∀ (l : LinkNo) (p : PairNo) (x : Sample) (s : State),
    let n := lineAt l p
    let r := (scanFront (atReply s l x) n x).line n
    (replyCase (atLimits firstDigitReached) .active s l p x = true →
      ∃ t, exec (.firstDigitTimeout l p x) s = .next t
        ∧ (t.line n).sup = .lockout ∧ (t.line n).ret = none ∧ (t.line n).pulses = 0
        ∧ (t.line n).make = 0 ∧ (t.line n).firstDigit = 0 ∧ (t.line n).dialEnd = 0
        ∧ (t.line n).b = (if r.accepted = .closed then 0 else r.b)
        ∧ (∀ m, m ≠ n → sameButReceiver (t.line m) (s.line m)) ∧ t.engine = s.engine)
    ∧ (replyCase (atLimits dialEndReached) .active s l p x = true →
      ∃ t, exec (.dialEndTimeout l p x) s = .next t
        ∧ (t.line n).sup = .held ∧ (t.line n).pulses = 0
        ∧ (t.line n).queue =
            (if 0 < r.pulses then
              (pushEntry r (pulseSymbol (s.conv n).numbering r.pulses) .pulse r.pulses s.time).queue
             else r.queue)
        ∧ (∀ m, m ≠ n → sameButReceiver (t.line m) (s.line m)) ∧ t.engine = s.engine)

/-- R19, R20 and R2: the scan that brings a survey's accepted count to N ends the survey; its order is DONE,
with the accepted count in the detail and, in the 64 bytes of the result buffer, N, the accepted class, minimum,
maximum and mean of Vt, Vr and I with this sample taken in, the means rounded to the nearest with ties away from
zero, the filtered values, and the HELD, MISSING and overrange counts. -/
def Obligations.SurveysCompleteAtTheirLastScan : Prop :=
  ∀ (l : LinkNo) (p : PairNo) (x : Sample) (s : State) (c : SurveyCtx),
    let n := lineAt l p
    let with_ := fun (o : Option SurveyStat) (y : Int) =>
      match o with
      | none => (y, y, y)
      | some q => (min q.min y, max q.max y, q.sum + y)
    let vt := with_ (c.stats.map fun q => q.1) x.vt.toInt
    let vr := with_ (c.stats.map fun q => q.2.1) x.vr.toInt
    let i := with_ (c.stats.map fun q => q.2.2) x.i.toInt
    let beyond := x.overrange = true ∨ ∃ y ∈ [x.vt, x.vr, x.i], y.toInt = -2048 ∨ y.toInt = 2047
    replyCase surveyDue .active s l p x = true → (s.line n).survey = some c → 1 ≤ c.n →
    s.exch = .running ∨ s.exch = .stopping →
    ∃ t a b d h, exec (.surveyCompletion l p x) s = .next t
      ∧ (t.line n).survey = none
      ∧ (t.slot c.slot).flight = none
      ∧ nearest vt.2.2 c.n a ∧ nearest vr.2.2 c.n b ∧ nearest i.2.2 c.n d
      ∧ (beyond → h = min (c.overrange + 1) 65535) ∧ (¬beyond → h = c.overrange)
      ∧ (t.slot c.slot).due = some
          { outcome := .done, reason := .none, detail := detail (detail16 s (c.accepted + 1)),
            result := some (c.result,
              [(2, (c.n : Int)), (1, codeCls (t.line n).accepted), (1, 0),
               (2, vt.1), (2, vt.2.1), (2, a), (2, vr.1), (2, vr.2.1), (2, b), (2, i.1), (2, i.2.1), (2, d),
               (2, vtF (t.line n)), (2, vrF (t.line n)), (2, iF (t.line n)),
               (2, c.held), (2, c.missing), (2, (h : Nat))] ++ List.replicate 30 (1, 0)) }
      ∧ (∀ m, m ≠ n → sameButReceiver (t.line m) (s.line m)) ∧ t.engine = s.engine

/-- R144, R147: when an ACCEPTED scan brings a FULL-rate ON_HOOK line's quiet counter to the delay in
force, the line becomes QUIET and stays ON_HOOK; its digit queue does not change. -/
def Obligations.QuietDelaysMakeLinesQuiet : Prop :=
  ∀ (l : LinkNo) (p : PairNo) (x : Sample) (s : State),
    let n := lineAt l p
    replyCase quietReached .active s l p x = true →
    ∃ t, exec (.quietDelay l p x) s = .next t
      ∧ (s.line n).rate = .full ∧ (t.line n).rate = .quiet
      ∧ (s.line n).sup = .onHook ∧ (t.line n).sup = .onHook
      ∧ (t.line n).quiet = min ((s.line n).quiet + 1) 33554431
      ∧ (s.economy = false → ∃ q, (s.conv n).quiet = some q ∧ q ≤ (t.line n).quiet)
      ∧ (t.line n).queue = (s.line n).queue
      ∧ (∀ m, m ≠ n → sameButReceiver (t.line m) (s.line m)) ∧ t.engine = s.engine

/-- R113 to R116: the scan that ends a decision judges its sum S. Decision 1 fails the line above 100 d,
takes FINE up to 20 d and COARSE between; a decision on a bit keeps the bit when S is above 0; the last one
goes to the commit with the code found. -/
def Obligations.DecisionsJudgeTheSum : Prop :=
  ∀ (l : LinkNo) (p : PairNo) (x : Sample) (s : State) (c : CalCtx),
    let n := lineAt l p
    let S := c.sum + x.i.toInt
    let kept := if 0 < S then c.trialCode else c.kept
    replyCase decisionDue .calibrating s l p x = true → (s.line n).calCtx = some c →
    ∃ t, exec (.decisionEnd l p x) s = .next t
      ∧ (c.decision = 1 → 100 * c.d < S.natAbs →
          (t.line n).cal = { (s.line n).cal with status := .failed .outOfRange, s1 := S, time := s.time }
          ∧ (t.line n).calCtx.map CalCtx.step = some .restoring)
      ∧ (c.decision = 1 → S.natAbs ≤ 100 * c.d →
          (t.line n).cal = (s.line n).cal
          ∧ (t.line n).calCtx = some
            { c with s1 := some S, trialRange := if S.natAbs ≤ 20 * c.d then .fine else .coarse,
                     trialCode := 64, kept := 0, decision := 2, step := .frameWait false true,
                     sum := 0, settleCount := 0, dwellCount := 0 })
      ∧ (2 ≤ c.decision → c.decision < 8 →
          (t.line n).cal = (s.line n).cal
          ∧ (t.line n).calCtx = some
            { c with kept := kept, decision := c.decision + 1,
                     trialCode := withBit kept (7 - c.decision), step := .frameWait false true,
                     sum := 0, settleCount := 0, dwellCount := 0 })
      ∧ (c.decision = 8 →
          (t.line n).cal = (s.line n).cal
          ∧ (t.line n).calCtx.map (fun y => (y.trialRange, y.trialCode, y.step))
              = some (c.trialRange, kept, .commit))
      ∧ (∀ m, m ≠ n → (t.line m).bare = (s.line m).bare) ∧ t.engine = s.engine

/-- R97 to R102 and R105: the scan that completes a phase stores its means, rounded to the nearest with ties
away from zero, or the resistance of R99, and starts the next phase; phase 4, or phase 2 with less than 20
kilohms, ends the test DONE and goes to RESTORING. The verdict is FAIL_FOREIGN when a mean of phase 1 reaches
the foreign limit, else LOOP after phase 2, else FAIL_INSULATION when a resistance lies below the pass limit,
else PASS; it stands in the detail and, with times, limits, phases, means, resistances and counts, in the 64
bytes of the result buffer. -/
def Obligations.PhasesCompleteInTurn : Prop :=
  ∀ (l : LinkNo) (p : PairNo) (x : Sample) (s : State) (c : TestCtx),
    let codes : Int × Int :=
      if c.phase = 1 then (x.vt.toInt, x.vr.toInt)
      else if c.phase = 2 then (x.vt.toInt - x.vr.toInt, x.i.toInt)
      else if c.phase = 3 then (x.vt.toInt, x.i.toInt)
      else (x.vr.toInt, x.i.toInt)
    let fresh : TestCtx :=
      { c with step := .relayWait, settleCount := 0, dwellCount := 0, sumA := 0, sumB := 0,
               phasesDone := c.phasesDone + 1 }
    replyCase phaseDue .testing s l p x = true → (s.link l).test = some c → 1 ≤ c.m →
    c.phasesDone + 1 = c.phase → s.exch = .running ∨ s.exch = .stopping →
    ∃ t a b, exec (.phaseComplete l p x) s = .next t
      ∧ nearest (c.sumA + codes.1) c.m a ∧ nearest (c.sumB + codes.2) c.m b
      ∧ (c.phase = 1 → (t.link l).test = some { fresh with phase := 2, p1 := some (a, b) })
      ∧ (c.phase = 2 → 20 ≤ (ohm a b).r →
          (t.link l).test = some { fresh with phase := 3, p2 := some (ohm a b) })
      ∧ (c.phase = 3 → (t.link l).test = some { fresh with phase := 4, p3 := some (ohm a b) })
      ∧ (c.phase = 2 ∧ (ohm a b).r < 20 ∨ c.phase = 4 →
          let p2 := if c.phase = 2 then some (ohm a b) else c.p2
          let p4 := if c.phase = 4 then some (ohm a b) else c.p4
          let foreign := ∃ v w, c.p1 = some (v, w)
            ∧ ((c.foreignLimit : Int) ≤ |v| ∨ (c.foreignLimit : Int) ≤ |w|)
          let low := ∃ q : OhmResult, some q ∈ [p2, c.p3, p4] ∧ q.r < c.passLimit
          let ran := fun (o : Option OhmResult) (w h : Nat) =>
            match o with
            | some q => w + (if q.high then h else 0)
            | none => 0
          let out := fun (o : Option OhmResult) =>
            match o with
            | some q => [(2, q.v), (2, q.i), (4, (q.r : Int))]
            | none => [(2, (0 : Int)), (2, 0), (4, 0)]
          let p1 := c.p1.getD (0, 0)
          ∃ v : Verdict,
            (foreign → v = .failForeign) ∧ (¬foreign → c.phase = 2 → v = .loop)
            ∧ (¬foreign → c.phase = 4 → low → v = .failInsulation)
            ∧ (¬foreign → c.phase = 4 → ¬low → v = .pass)
            ∧ (t.link l).test.map TestCtx.step = some .restoring
            ∧ (t.slot c.slot).flight = none
            ∧ (t.slot c.slot).due = some
              { outcome := .done, reason := .none, detail := detail [codeVerdict v, c.phase],
                result := some (c.result,
                  [(1, (codeVerdict v : Int)), (1, c.phase), (1, c.settleScans), (1, c.m), (4, s.time.toNat),
                   (2, c.passLimit), (2, c.foreignLimit),
                   (1, ((if c.p1.isSome then 1 else 0) + ran p2 2 16 + ran c.p3 4 32 + ran p4 8 64 : Nat)),
                   (1, 0), (2, p1.1), (2, p1.2), (2, 0)] ++ out p2 ++ out c.p3 ++ out p4
                  ++ [(2, (c.held : Int)), (2, c.missing), (2, c.mismatch)] ++ List.replicate 14 (1, 0)) })
      ∧ (∀ m, (t.line m).bare = (s.line m).bare) ∧ t.engine = s.engine

/-- R99: the resistance in kilohms of a mean voltage and a mean current of 1 microampere or more is 125
times the magnitude of the voltage over the current, rounded down, and 50,000 with HIGH set above that; a
current of 0 or less reads 50,000 with HIGH set. The table's rows are as it gives them. -/
def Obligations.ResistanceFollowsTheMeans : Prop :=
  (∀ v i : Int, 1 ≤ i →
    let q := (125 * |v|) / i
    (q ≤ 50000 → ((ohm v i).r : Int) = q ∧ (ohm v i).high = false)
    ∧ (50000 < q → (ohm v i).r = 50000 ∧ (ohm v i).high = true))
  ∧ (∀ v i : Int, i ≤ 0 → (ohm v i).r = 50000 ∧ (ohm v i).high = true)
  ∧ ([(384, 12), (-384, 96), (384, 7), (-200, 1500), (384, 0), (2047, 1), (0, 25)] : List (Int × Int)).map
      (fun p => ((ohm p.1 p.2).r, (ohm p.1 p.2).high))
    = [(4000, false), (500, false), (6857, false), (16, false), (50000, true), (50000, true), (0, false)]

/-! ### Links -/

/-- R134, R138, R141, R4 and R6: a timeout short of the third on an UP link counts in the failure run and ends
the exchange. A control frame becomes the retry frame, ends the control exchanges of the period, and the next
SAMPLE follows; a SAMPLE is not sent again, its scan being MISSING, which counts in the survey of an ACTIVE
line and in the insulation test of its line, and changes nothing else; a PROBE only ends. A PROBE of a link that
is not UP only ends, without a count. -/
def Obligations.TimeoutsKeepTheFrameForRetry : Prop :=
  ∀ (l : LinkNo) (s : State) (f : Frame), (s.link l).exchange = some f →
    ∃ t, exec (.exchangeTimeout l) s = .next t
      ∧ ((s.link l).state = .up → (s.link l).failRun + 1 < 3 →
          (t.link l).failRun = (s.link l).failRun + 1 ∧ (t.link l).state = .up
          ∧ (t.link l).idleTime = s.time ∧ (∀ m, m ≠ l → t.link m = s.link m) ∧ t.engine = s.engine
          ∧ (keyOf f ≠ none →
              (t.link l).retry = some f ∧ (t.link l).controlOver = true
              ∧ (t.link l).queue = (s.link l).queue
              ∧ (t.link l).exchange
                  = ((s.link l).toSample.find? fun p => eligible s (lineAt l p)).map Frame.sample
              ∧ t.lines = s.lines ∧ t.rcvs = s.rcvs)
          ∧ (f = .probe → t.lines = s.lines)
          ∧ (keyOf f = none → (s.link l).controlOver = true →
              (t.link l).retry = (s.link l).retry ∧ (t.link l).queue = (s.link l).queue
              ∧ (t.link l).exchange
                  = ((s.link l).toSample.find? fun p => eligible s (lineAt l p)).map Frame.sample)
          ∧ ∀ p, f = .sample p →
              let n := lineAt l p
              let r := s.line n
              (∀ m, m ≠ n → (t.line m).bare = (s.line m).bare)
              ∧ (r.service ≠ .active → (t.line n).bare = r.bare)
              ∧ (r.service = .active → (∀ c, r.survey = some c → c.accepted < c.n) →
                  (t.line n).bare
                    = { r with survey := r.survey.map fun (c : SurveyCtx) =>
                          { c with missing := min (c.missing + 1) 65535 } }.bare)
              ∧ ∀ c, r.service = .testing → (s.link l).test = some c → c.line = n →
                  (t.link l).test = some (if c.step = .settle ∨ c.step = .dwell
                    then { c with missing := min (c.missing + 1) 65535 } else c))
      ∧ ((s.link l).state ≠ .up →
          t.bare = (s.modLink l fun r => { r with exchange := none, idleTime := s.time }).bare)

/-- R138, R139, R80 and R92: the timeout that brings the failure run to 3 loses the link: its record, queue,
marks and hold are cleared and a PROBE is sent; its ACTIVE lines are UNSENSED, their ACTIVE fault records
restored; its calibrations, test and surveys are over; all its lines are at FULL rate; and every receiver
connecting in any phase, listening, or being released, there is STRANDED, its line holding none. An order in flight
on a line of the link completes with its detail: a SURVEY, a test, its result buffer partial, and a trace ABORTED,
LINK_LOST, the trace's context, tone and flag going (R21, R104, R152, R154); a LISTEN ABORTED, LINE_CLEARED (R84); a
CALIBRATE by its last unfinished line, INTERRUPTED, LINK_LOST, DONE (R119, R120); the lines calibrated and tested are
released. -/
def Obligations.ThirdTimeoutLosesTheLink : Prop :=
  ∀ (l : LinkNo) (s : State), ServicesSound s → lossDue s l = true →
    ∃ t, exec (.linkLoss l) s = .next t
      ∧ (t.link l).state = .lost ∧ (t.link l).failRun = 0 ∧ (t.link l).queue = []
      ∧ (t.link l).retry = none ∧ (t.link l).surgeOn = false ∧ (t.link l).test = none
      ∧ (t.link l).exchange = some .probe ∧ (t.link l).probeTime = s.time
      ∧ (∀ i : PairNo, (t.link l).restored[i.1] = false)
      ∧ (∀ p, (t.line (lineAt l p)).rate = .full ∧ (t.line (lineAt l p)).quiet = 0
          ∧ (t.line (lineAt l p)).calCtx = none ∧ (t.line (lineAt l p)).survey = none)
      ∧ (∀ p, (s.line (lineAt l p)).service = .active →
          (t.line (lineAt l p)).service = .active ∧ (t.line (lineAt l p)).sup = .unsensed
          ∧ (t.line (lineAt l p)).pulses = 0 ∧ (t.line (lineAt l p)).candidate = none
          ∧ (t.line (lineAt l p)).fault = restored (s.line (lineAt l p)).fault)
      ∧ (∀ k e tap, s.rcv k = .listening e tap → tap.link = l →
          t.rcv k = .stranded tap false ∧ t.det k = Det.reset)
      ∧ (∀ k e tap ph, s.rcv k = .connecting e tap ph → tap.link = l → t.rcv k = .stranded tap false)
      ∧ (PoolSound s → ∀ k e, grantedEntry (s.rcv k) = some e →
          (tapHeld (s.rcv k)).map Tap.link = some l → (t.line e.line).receiver = none)
      ∧ (∀ k tap ph out, s.rcv k = .releasing tap ph out → tap.link = l → t.rcv k = .stranded tap out)
      ∧ (PoolSound s → s.exch = .running ∨ s.exch = .stopping →
          ∀ k n, inProgress s k n → linkOf n = l → soleContext s k → (s.slot k).flight ≠ some .check →
            (∀ c, (s.line n).survey = some c → c.accepted < c.n) →
            (∀ c, (s.slot k).flight = some (.listen c) →
              tagOfLine s n = some k ∧ (s.line n).service = .active ∧ isCall (s.line n).sup = true) →
            (t.slot k).flight = none
            ∧ ((t.slot k).due.map fun d => (d.outcome, d.reason, d.detail))
                = some (match (s.slot k).flight with
                  | some (.calibrate _) => (.done, .none, detail (abortedDetail s k n))
                  | some (.listen _) => (.aborted, .lineCleared, detail (abortedDetail s k n))
                  | _ => (.aborted, .linkLost, detail (abortedDetail s k n)))
            ∧ (((t.slot k).due.bind Completion.result).isSome = true
                ↔ ∃ m, (s.slot k).flight = some (.insulation m))
            ∧ ((s.slot k).flight = some .trace →
                t.gen.ctx = .none ∧ t.gen.output = .silent ∧ t.gen.chA.level = 0 ∧ t.gen.chB.level = 0
                ∧ (t.line n).trace = false)
            ∧ (∀ c, (s.line n).calCtx = some c → c.slot = k → (∃ y, (s.slot k).flight = some (.calibrate y)) →
                (t.line n).cal.status = .interrupted .linkLost ∧ (t.line n).cal.time = s.time
                ∧ (t.line n).cal.range = (s.line n).cal.range ∧ (t.line n).cal.code = (s.line n).cal.code
                ∧ (t.line n).service = (if c.toActive then .active else .parked)
                ∧ (t.line n).sup = (if c.toActive then .unsensed else .none))
            ∧ ∀ c m, (s.link l).test = some c → (s.slot k).flight = some (.insulation m) →
                (t.line n).service = (if c.toActive then .active else .parked)
                ∧ (t.line n).sup = (if c.toActive then .unsensed else .none))
      ∧ t.engine = s.engine

/-- R134, R136, R138 and R5: a reply that does not match the outstanding exchange, or comes when none is
outstanding, is discarded: it has no effect on any block. 250 ms after its last PROBE a link that is not UP
sends another; an UP link idle for 250 ms with nothing to send sends one; and the surge hold is out of force
100 ms after its last SURGE; each does nothing else. -/
def Obligations.StrayRepliesAndTimersOfLinks : Prop :=
  (∀ (l : LinkNo) (s : State),
    (∀ r, exec (.unmatchedReply l r) s = .next s)
    ∧ (∀ p x, (s.link l).exchange ≠ some (.sample p) → exec (.sampleReply l p x) s = .next s)
    ∧ (∀ count rev, (s.link l).exchange ≠ some .probe ∨ (count ≠ 8 ∧ count ≠ 16) →
        exec (.probeReply l count rev) s = .next s)
    ∧ (∀ ack, (∀ p r c o, (s.link l).exchange ≠ some (.trim p r c o)) →
        exec (.trimReply l ack) s = .next s)
    ∧ (∀ ack, (∀ p c o, (s.link l).exchange ≠ some (.relay p c o)) →
        exec (.relayReply l ack) s = .next s)
    ∧ (∀ ack, (∀ p k, (s.link l).exchange ≠ some (.tapConnect p k)) →
        exec (.tapConnectReply l ack) s = .next s)
    ∧ (∀ ack, (∀ k, (s.link l).exchange ≠ some (.tapDisconnect k)) →
        exec (.tapDisconnectReply l ack) s = .next s)
    ∧ (∀ ack, (s.link l).exchange ≠ some .tapClearAll →
        exec (.tapClearAllReply l ack) s = .next s))
  ∧ ∀ (l : LinkNo) (s : State),
    let r := s.link l
    ((r.state ≠ .up → r.exchange = none → 250 ≤ (s.time - r.probeTime).toNat →
        ∃ t, exec (.probeTimer l) s = .next t
          ∧ t = s.modLink l fun y => { y with exchange := some .probe, probeTime := s.time })
    ∧ (r.state = .up → r.exchange = none → r.queue = [] → r.retry = none →
        (∀ p ∈ r.toSample, eligible s (lineAt l p) = false) → 250 ≤ (s.time - r.idleTime).toNat →
        ∃ t, exec (.idleProbe l) s = .next t
          ∧ t = s.modLink l fun y => { y with exchange := some .probe, probeTime := s.time }))
    ∧ (r.surgeOn = true → 100 ≤ (s.time - r.surgeTime).toNat →
        ∃ t, exec (.surgeHoldExpiry l) s = .next t
          ∧ t = s.modLink l fun y => { y with surgeOn := false })

/-- R136 to R138: a matching PROBE-REPLY brings a link UP with the reported pair count and revision and the
recovery frames queued: TAP CLEAR ALL, RELAY NORMAL and TRIM for each present pair, 33 or 17 of them; its
ACTIVE lines settle, those now absent are PARKED. On an UP link it records the revision, or loses the link
when the pair count differs. -/
def Obligations.ProbeRepliesBringLinksUp : Prop :=
  ∀ (l : LinkNo) (count : Nat) (rev : Byte) (s : State), (s.link l).exchange = some .probe →
    count = 8 ∨ count = 16 →
    ∃ t, exec (.probeReply l count rev) s = .next t
      ∧ ((s.link l).state ≠ .up →
          (t.link l).state = .up ∧ (t.link l).pairCount = count ∧ (t.link l).revision = rev
          ∧ (t.link l).failRun = 0 ∧ (t.link l).exchange = none ∧ (t.link l).retry = none
          ∧ (t.link l).queue = recoveryFrames s l count ∧ (t.link l).queue.length = 2 * count + 1
          ∧ (t.link l).queue.head? = some .tapClearAll
          ∧ (∀ i : PairNo, (t.link l).restored[i.1] = false)
          ∧ (∀ p : PairNo, p.1 < count → (s.line (lineAt l p)).service = .active →
              (s.line (lineAt l p)).sup = .unsensed →
              (t.line (lineAt l p)).sup = .settling ∧ (t.line (lineAt l p)).seedPending = true)
          ∧ (∀ p : PairNo, count ≤ p.1 → (s.line (lineAt l p)).service = .active →
              (t.line (lineAt l p)).service = .parked ∧ (t.line (lineAt l p)).sup = .none))
      ∧ ((s.link l).state = .up → count = (s.link l).pairCount →
          (t.link l).state = .up ∧ (t.link l).revision = rev ∧ (t.link l).failRun = 0
          ∧ (∀ n, t.line n = s.line n))
      ∧ ((s.link l).state = .up → count ≠ (s.link l).pairCount →
          (t.link l).state = .lost ∧ (t.link l).exchange = some .probe)
      ∧ t.engine = s.engine

/-- R109, R112, R115, R116 and R120: a NAK to a TRIM of the record makes the record FAILED with FRONT_END_REFUSED
at this time, its trim kept, and an ACK changes nothing of it; that this is so, too, while the line's calibration
is unfinished, where R108 says that the record does not change until the calibration ends, is the model's choice
(log 41). An ACK to the TRIM that a decision waits for starts its settling; a NAK ends the line FAILED. The reply
to the commit makes the record VALID with the trim found and the decision-1 sum, or FAILED with the saved trim;
both times the line is RESTORING, a TRIM with the saved trim being queued again after a NAK, and it has finished in
the order's tally, which completes DONE with its last line. No other line changes. -/
def Obligations.TrimRepliesActOnTheRecord : Prop :=
  ∀ (l : LinkNo) (p : PairNo) (range : TrimRange) (code : TrimCode) (s : State),
    let n := lineAt l p
    let r := s.line n
    ((s.link l).exchange = some (.trim p range code .record) →
      ∃ t u, exec (.trimReply l true) s = .next t ∧ exec (.trimReply l false) s = .next u
        ∧ (t.line n).bare = r.bare
        ∧ (u.line n).bare
            = { r with cal := { r.cal with status := .failed .frontEndRefused, time := s.time } }.bare
        ∧ (∀ m, m ≠ n → (t.line m).bare = (s.line m).bare ∧ (u.line m).bare = (s.line m).bare)
        ∧ (t.link l).failRun = 0 ∧ (u.link l).failRun = 0
        ∧ t.engine = s.engine ∧ u.engine = s.engine)
    ∧ ∀ c, (s.link l).exchange = some (.trim p range code .calibration) → r.calCtx = some c →
      (c.step = .frameWait false true →
        ∃ t, exec (.trimReply l true) s = .next t
          ∧ (t.line n).bare = { r with calCtx := some { c with step := .settle, settleCount := 0 } }.bare
          ∧ (∀ m, m ≠ n → (t.line m).bare = (s.line m).bare) ∧ t.engine = s.engine)
      ∧ (c.step = .frameWait true true →
        ∃ t, exec (.trimReply l true) s = .next t
          ∧ (t.line n).bare = { r with calCtx := some { c with step := .frameWait true false } }.bare
          ∧ (∀ m, m ≠ n → (t.line m).bare = (s.line m).bare) ∧ t.engine = s.engine)
      ∧ ∀ ack y, c.step = .commit ∨ (ack = false ∧ ∃ relay, c.step = .frameWait relay true) →
        (s.slot c.slot).flight = some (.calibrate y) → (s.link l).state = .up →
        s.exch = .running ∨ s.exch = .stopping →
        let z : Tally := if ack then { y with valid := y.valid + 1 } else { y with failed := y.failed + 1 }
        ∃ t, exec (.trimReply l ack) s = .next t
          ∧ (t.line n).bare = { r with
              calCtx := some { c with step := .restoring },
              cal := if ack then { range := c.trialRange, code := c.trialCode, status := .valid,
                                   s1 := c.s1.getD r.cal.s1, time := s.time }
                     else { r.cal with status := .failed .frontEndRefused, s1 := c.s1.getD r.cal.s1,
                                       time := s.time } }.bare
          ∧ (ack = false →
              Frame.trim p r.cal.range r.cal.code .record ∈ (t.link l).queue
              ∨ (t.link l).exchange = some (.trim p r.cal.range r.cal.code .record))
          ∧ (ack = false → c.step ≠ .commit →
              Frame.relay p .normal .calibration ∈ (t.link l).queue
              ∨ (t.link l).exchange = some (.relay p .normal .calibration))
          ∧ (z.valid + z.failed + z.interrupted < z.taken →
              (t.slot c.slot).flight = some (.calibrate z) ∧ (t.slot c.slot).due = (s.slot c.slot).due)
          ∧ (z.taken ≤ z.valid + z.failed + z.interrupted →
              (t.slot c.slot).flight = none
              ∧ (t.slot c.slot).due = some
                { outcome := .done, reason := .none, result := none,
                  detail := detail [z.taken, z.valid, z.failed, z.interrupted, z.badLine, z.overridden,
                                    z.lineBusy] })
          ∧ (∀ m, m ≠ n → (t.line m).bare = (s.line m).bare) ∧ t.engine = s.engine

/-- R137, R151, R112, R116, R117, R96, R102 and R103: a reply to a RELAY, ACK or NAK, sets its pair's restored
mark; the reply to a recovery's RELAY does nothing else to a line. The ACK to a trace's RELAY starts the tone on
the test tone bus, 1,024,000 / (4096 - NA) Hz at 2n - 31 dBm (R148), channel A at NA, its warble beginning. The ACK
to a calibration's RELAY ZERO or to a phase's RELAY is awaited no longer and, all being answered, settling begins;
a NAK makes the calibration FAILED with FRONT_END_REFUSED, ends the test DONE with RELAY_REFUSED, or ends the trace
FAILED with no reason, end code RELAY_REFUSED and no second of tone, the generator silent (R152, R154), and the
line is RESTORING, a RELAY NORMAL being placed. The reply to the RELAY NORMAL of RESTORING removes the context: a
trace's flag is cleared and the generator has no user; a calibration's or a test's line is released: to SETTLING,
or parked, its candidate and accepted class cleared (R7; log 35). -/
def Obligations.RelayRepliesRestoreThePair : Prop :=
  ∀ (l : LinkNo) (p : PairNo) (cfg : RelayCfg) (s : State),
    let n := lineAt l p
    let r := s.line n
    let released := fun (t : State) (toActive : Bool) =>
      (t.line n).survey = r.survey ∧ (t.line n).queue = r.queue
      ∧ (t.line n).candidate = none ∧ (t.line n).run = 0
      ∧ (toActive = true → (t.line n).service = .active
          ∧ (t.line n).sup = (if (s.link l).state = .up then .settling else .unsensed)
          ∧ ((s.link l).state = .up → (t.line n).seedPending = true ∧ (t.line n).accepted = .none))
      ∧ (toActive = false → (t.line n).service = .parked ∧ (t.line n).sup = .none
          ∧ (t.line n).accepted = .none)
    (∀ o ack, (s.link l).exchange = some (.relay p cfg o) →
      ∃ t, exec (.relayReply l ack) s = .next t
        ∧ (t.link l).restored[p.1] = true ∧ (t.link l).failRun = 0
        ∧ (o = .recovery → (∀ m, (t.line m).bare = (s.line m).bare) ∧ t.gen = s.gen ∧ t.slots = s.slots)
        ∧ t.engine = s.engine)
    ∧ (∀ c, (s.link l).exchange = some (.relay p cfg .trace) → s.gen.ctx = .trace c →
        c.line = n → c.step = .relayWait → cfg = traceCfg c.longitudinal →
        ∃ t, exec (.relayReply l true) s = .next t
          ∧ t.gen = { chA := { n := c.na, level := c.level }, chB := { s.gen.chB with level := 0 },
                      output := .testBus, ctx := .trace { c with step := .tone s.time, halves := 0 } }
          ∧ (1 ≤ c.level → c.na ≤ 3840 →
              testToneBus t = [{ hz := 1024000 / (4096 - (c.na : Rat)), dbm := 2 * (c.level : Int) - 31 }])
          ∧ (∀ m, (t.line m).bare = (s.line m).bare) ∧ t.slots = s.slots)
    ∧ (∀ c, (s.link l).exchange = some (.relay p cfg .trace) → s.gen.ctx = .trace c → c.line = n →
        let quiet : GenRec := { s.gen with chA := { s.gen.chA with level := 0 },
                                           chB := { s.gen.chB with level := 0 }, output := .silent }
        (c.step = .relayWait → cfg = traceCfg c.longitudinal → s.exch = .running ∨ s.exch = .stopping →
          ∃ t, exec (.relayReply l false) s = .next t
            ∧ t.gen = { quiet with ctx := .trace { c with step := .restoring } }
            ∧ (t.slot c.slot).flight = none
            ∧ (t.slot c.slot).due = some { outcome := .failed, reason := .none, detail := detail [1, 0, 0],
                                           result := none }
            ∧ (∀ k, k ≠ c.slot → t.slot k = s.slot k)
            ∧ ((s.link l).state = .up →
                Frame.relay p .normal .trace ∈ (t.link l).queue
                ∨ (t.link l).exchange = some (.relay p .normal .trace))
            ∧ (∀ m, (t.line m).bare = (s.line m).bare) ∧ t.engine = s.engine)
        ∧ ∀ ack, c.step = .restoring → cfg = .normal →
          ∃ t, exec (.relayReply l ack) s = .next t
            ∧ t.gen = { quiet with ctx := .none } ∧ t.slots = s.slots
            ∧ (t.line n).bare = { r with trace := false }.bare
            ∧ (∀ m, m ≠ n → (t.line m).bare = (s.line m).bare) ∧ t.engine = s.engine)
    ∧ (∀ c, (s.link l).exchange = some (.relay p cfg .calibration) → r.calCtx = some c →
        (∀ trim, cfg = .zero → c.step = .frameWait true trim →
          (∃ t, exec (.relayReply l true) s = .next t
            ∧ (trim = true →
                (t.line n).bare = { r with calCtx := some { c with step := .frameWait false true } }.bare)
            ∧ (trim = false →
                (t.line n).bare = { r with calCtx := some { c with step := .settle, settleCount := 0 } }.bare))
          ∧ ∃ t, exec (.relayReply l false) s = .next t
            ∧ (t.line n).bare = { r with
                calCtx := some { c with step := .restoring },
                cal := { r.cal with status := .failed .frontEndRefused, s1 := c.s1.getD r.cal.s1,
                                    time := s.time } }.bare)
        ∧ ∀ ack, cfg = .normal → c.step = .restoring → ServicesSound s →
          ∃ t, exec (.relayReply l ack) s = .next t
            ∧ (t.line n).calCtx = none ∧ (t.line n).cal = r.cal ∧ released t c.toActive
            ∧ ∀ m, m ≠ n → (t.line m).bare = (s.line m).bare)
    ∧ ∀ c, (s.link l).exchange = some (.relay p cfg .test) → (s.link l).test = some c → c.line = n →
      (cfg = phaseCfg c.phase → c.step = .relayWait →
        (∃ t, exec (.relayReply l true) s = .next t
          ∧ (t.link l).test = some { c with step := .settle, settleCount := 0 }
          ∧ (∀ m, (t.line m).bare = (s.line m).bare) ∧ t.slots = s.slots)
        ∧ (s.exch = .running ∨ s.exch = .stopping →
          ∃ t, exec (.relayReply l false) s = .next t
            ∧ (t.link l).test = some { c with step := .restoring }
            ∧ (t.slot c.slot).flight = none
            ∧ (t.slot c.slot).due.map (fun d => (d.outcome, d.reason, d.detail))
                = some (.done, .none, detail [codeVerdict .relayRefused, c.phasesDone])
            ∧ ∀ m, (t.line m).bare = (s.line m).bare))
      ∧ ∀ ack, cfg = .normal → c.step = .restoring → ServicesSound s →
        ∃ t, exec (.relayReply l ack) s = .next t
          ∧ (t.link l).test = none ∧ released t c.toActive
          ∧ ∀ m, m ≠ n → (t.line m).bare = (s.line m).bare

/-! ### Receivers -/

/-- R76, R79 and R81: the ACK to a TAP CONNECT of a CONNECTING receiver starts its 16 ms guard now; a NAK puts it
out of service with TAP_REFUSED, frees its line, which goes back to the head of its class on the list, and leaves
it there while no receiver is FREE. A TAP CONNECT whose receiver is RELEASING already, its line having let it go:
an ACK queues the TAP DISCONNECT and it awaits that reply; a NAK puts it out of service with TAP_REFUSED, out
requested or not; no line takes part. While no line waits, the replies to a TAP DISCONNECT free a RELEASING
receiver, take it out of service if that was requested, or strand it; the reply to a recovery's TAP CLEAR ALL does
the same with every receiver STRANDED on the link, a NAK taking it out with TAP_REFUSED. -/
def Obligations.TapRepliesMoveTheReceiver : Prop :=
  (∀ (l : LinkNo) (p : PairNo) (k : RcvNo) (e : WaitEntry) (tap : Tap) (s : State),
    (s.link l).exchange = some (.tapConnect p k) → s.rcv k = .connecting e tap .sent →
    (∃ t, exec (.tapConnectReply l true) s = .next t
      ∧ t.rcv k = .connecting e tap (.guarding s.time) ∧ t.waiting = s.waiting
      ∧ (∀ m, (t.line m).bare = (s.line m).bare) ∧ t.engine = s.engine)
    ∧ ((∀ j, s.rcv j ≠ .free) →
      ∃ t, exec (.tapConnectReply l false) s = .next t
        ∧ t.rcv k = .outOfService .tapRefused ∧ t.det k = Det.reset
        ∧ t.waiting = insertHead e s.waiting
        ∧ (t.line e.line).receiver = none
        ∧ (∀ m, m ≠ e.line → (t.line m).bare = (s.line m).bare) ∧ t.engine = s.engine))
  ∧ (∀ (l : LinkNo) (p : PairNo) (k : RcvNo) (tap : Tap) (out : Bool) (s : State),
    (s.link l).exchange = some (.tapConnect p k) → s.rcv k = .releasing tap .awaitConnectAck out →
    ∃ t u, exec (.tapConnectReply l true) s = .next t ∧ exec (.tapConnectReply l false) s = .next u
      ∧ t.rcv k = .releasing tap .awaitDisconnectAck out
      ∧ ((s.link tap.link).state = .up →
          Frame.tapDisconnect k ∈ (t.link tap.link).queue
          ∨ (t.link tap.link).exchange = some (.tapDisconnect k))
      ∧ u.rcv k = .outOfService .tapRefused
      ∧ ∀ w, w = t ∨ w = u →
        (∀ j, j ≠ k → (∀ e y, s.rcv j ≠ .connecting e y .queued) → w.rcv j = s.rcv j)
        ∧ w.det k = Det.reset ∧ w.waiting = s.waiting ∧ w.slots = s.slots
        ∧ (∀ m, (w.line m).bare = (s.line m).bare) ∧ w.engine = s.engine)
  ∧ ∀ (l : LinkNo) (ack : Bool) (s : State), s.waiting = [] →
    (∀ k tap out, (s.link l).exchange = some (.tapDisconnect k) →
      s.rcv k = .releasing tap .awaitDisconnectAck out →
      ∃ t, exec (.tapDisconnectReply l ack) s = .next t
        ∧ t.rcv k = (if ack then (if out then .outOfService .hostRequest else .free)
                     else .stranded tap out)
        ∧ t.det k = Det.reset ∧ t.waiting = []
        ∧ (∀ m, (t.line m).bare = (s.line m).bare) ∧ t.engine = s.engine)
    ∧ ((s.link l).exchange = some .tapClearAll →
      ∃ t, exec (.tapClearAllReply l ack) s = .next t
        ∧ (∀ k tap out, s.rcv k = .stranded tap out →
            t.rcv k = (if tap.link = l then
                        (if ack then (if out then .outOfService .hostRequest else .free)
                         else .outOfService .tapRefused)
                       else .stranded tap out))
        ∧ t.waiting = [] ∧ (∀ m, (t.line m).bare = (s.line m).bare) ∧ t.engine = s.engine)

/-- R77, R51, R63, R61, R64, R40 and R41: the end of the 16 ms guard makes the receiver LISTENING with its first
block beginning now; at every multiple of 10 ms after that a block ends and the next begins: of a LISTENING
receiver that accepts no digit it moves the detection by the verdict alone, and a gap ends in QUIET; a digit
accepted is queued as a TONE entry of its line, if the line is in a call state, and moves the line to DIALLING,
or its break's return to DIALLING, the receiver being then in ON, and no other line changes. That the multiples
are counted from the last block end that was taken is log 20. -/
def Obligations.BlockEndsAdvanceDetection : Prop :=
  ∀ (k : RcvNo) (e : WaitEntry) (tap : Tap) (p : BlockPowers) (s : State),
    let v := readLevels p
    let ends := ∃ w, (s.det k).began = some w ∧ 0 < (s.time - w).toNat ∧ (s.time - w).toNat % 10 = 0
    let n := e.line
    let r := s.line n
    (∀ since, s.rcv k = .connecting e tap (.guarding since) → 16 ≤ (s.time - since).toNat →
      ∃ t, exec (.guardEnd k) s = .next t
        ∧ t.bare = { s with rcvs := s.rcvs.set k.1 (.listening e tap) k.2,
                            dets := s.dets.set k.1 { state := .quiet, began := some s.time } k.2 }.bare)
    ∧ (s.rcv k = .listening e tap → ¬ends → exec (.blockEnd k p) s = .next s)
    ∧ (s.rcv k = .listening e tap → ends → (blockAdvance s k v).2 = none →
      ∃ t, exec (.blockEnd k p) s = .next t
        ∧ t = s.setDet k { state := (blockAdvance s k v).1, began := some s.time })
    ∧ (gapDue s k v = true → s.rcv k = .listening e tap →
      ∃ t, exec (.gapEnd k p) s = .next t
        ∧ t = s.setDet k { state := .quiet, began := some s.time })
    ∧ ∀ sym, s.rcv k = .listening e tap → ends → (blockAdvance s k v).2 = some sym →
      ∃ t, exec (.toneAcceptance k p) s = .next t
        ∧ (isCall r.sup = true →
            (t.line n).queue = (pushEntry r sym .tone 0 s.time).queue
            ∧ (t.line n).lost = (pushEntry r sym .tone 0 s.time).lost
            ∧ (t.line n).dialEnd = 0
            ∧ (r.sup ≠ .brk → (t.line n).sup = .dialling)
            ∧ (r.sup = .brk → (t.line n).sup = .brk ∧ (t.line n).ret = some .dialling))
        ∧ (isCall r.sup = false → t.lines = s.lines)
        ∧ t.det k = { state := .on sym false, began := some s.time }
        ∧ (∀ j, j ≠ k → t.det j = s.det j) ∧ t.rcvs = s.rcvs
        ∧ (∀ m, m ≠ n → t.line m = s.line m) ∧ t.engine = s.engine

/-- R53 to R58 and R148: a power reads as the nearest whole dBm, ties away from zero, from -64 to +6; and the block end
of a QUIET receiver that needs two blocks or more makes it PENDING on a symbol exactly when its levels are that
symbol under the limits of its profile: those of the attached line's profile for a LISTENING receiver, where a
block under the surge hold of the line's link is NONE whatever its levels (at 100 ms exactly as long as the hold's
expiry has not been taken, the model's choice, log 19); those of profile 0 for a CHECKING one, which hears the
generator: a channel of level code n from 1 reads 2n - 31 dBm at its frequency code, and every other frequency the
floor. -/
def Obligations.BlocksAreJudgedByTheirLevels : Prop :=
  (∀ p : Rat, readsAs p (readLevel p))
  ∧ ∀ (k : RcvNo) (v : BlockPowers) (s : State), blockDue s k = true →
    (s.det k).state = .quiet →
    let low : Fin 4 → Int := fun i => readLevel ([v.l697, v.l770, v.l852, v.l941].getD i.1 0)
    let high : Fin 4 → Int := fun i => readLevel ([v.h1209, v.h1336, v.h1477, v.h1633].getD i.1 0)
    (∀ e tap, s.rcv k = .listening e tap → 2 ≤ (s.conv e.line).toneOn →
      ∃ t, exec (.blockEnd k v) s = .next t
        ∧ ((s.link (linkOf e.line)).surgeOn = true →
            (s.time - (s.link (linkOf e.line)).surgeTime).toNat ≤ 100 → (t.det k).state = .quiet)
        ∧ ((s.link (linkOf e.line)).surgeOn = false
              ∨ 100 < (s.time - (s.link (linkOf e.line)).surgeTime).toNat →
            (∀ y, (t.det k).state = .pending y 1 ↔ heard (s.conv e.line).tone low high y)
            ∧ ((t.det k).state = .quiet ↔ ∀ y, ¬heard (s.conv e.line).tone low high y)))
    ∧ ∀ prior, s.rcv k = .checking prior → 2 ≤ (s.profile 0).conv.toneOn → checkDue s k = false →
      let level := fun code =>
        if s.gen.chA.n = code ∧ s.gen.chA.level ≠ 0 then 2 * (s.gen.chA.level : Int) - 31
        else if s.gen.chB.n = code ∧ s.gen.chB.level ≠ 0 then 2 * (s.gen.chB.level : Int) - 31
        else -64
      let row : Fin 4 → Int := fun i => [level 2627, level 2766, level 2894, level 3008].getD i.1 0
      let col : Fin 4 → Int := fun i => [level 3249, level 3330, level 3403, level 3469].getD i.1 0
      s.gen.chA.level ≤ 15 → s.gen.chB.level ≤ 15 →
      ∃ t, exec (.blockEnd k v) s = .next t
        ∧ (∀ y, (t.det k).state = .pending y 1 ↔ heard (s.profile 0).conv.tone row col y)
        ∧ ((t.det k).state = .quiet ↔ ∀ y, ¬heard (s.profile 0).conv.tone row col y)

/-- R59 to R61: a symbol heard for m blocks in a row from QUIET is accepted once if m reaches tone_on, and
never otherwise. -/
def Obligations.AHeldKeyGivesOneDigit : Prop :=
  ∀ (on off m : Nat) (e : Symbol), 1 ≤ on →
    (runDet on off .quiet (List.replicate m (some e))).2 = if on ≤ m then [e] else []

/-- R157, while no line waits: the block end that completes the last window ends the check DONE with its
detail; the generator is silent and free, and the receiver goes to its prior state, or out of service with
CHECK_FAILED on a failure with remove on fail. -/
def Obligations.ChecksEndWithTheirResult : Prop :=
  ∀ (k : RcvNo) (prior : Option OutReason) (c : CheckCtx) (s : State),
    s.rcv k = .checking prior → s.gen.ctx = .check c → c.rcv = k → checkDue s k = true →
    s.waiting = [] → s.exch = .running ∨ s.exch = .stopping →
    let heard := match (blockAdvance s k (loopLevels s.gen)).2 with
      | some sym => recordDigit c sym
      | none => c
    let failed := decide (heard.records ≠ heard.digits.map some)
    c.records.length = c.digits.length →
    ∃ t, exec (.checkEnd k) s = .next t
      ∧ t.gen.ctx = .none ∧ t.gen.output = .silent ∧ t.gen.chA.level = 0 ∧ t.gen.chB.level = 0
      ∧ t.rcv k = (if c.removeOnFail ∧ failed then .outOfService .checkFailed
                   else match prior with
                     | some r => .outOfService r
                     | none => .free)
      ∧ t.det k = Det.reset
      ∧ (t.slot c.slot).flight = none
      ∧ ((t.slot c.slot).due.map fun d => (d.outcome, d.reason, d.detail.head?))
          = some (.done, .none, some (if failed then 1 else 0))
      ∧ (∀ m, (t.line m).bare = (s.line m).bare) ∧ t.engine = s.engine

/-- R84: at its expiry a LISTEN that waits ends FAILED with NO_RECEIVER, its tag leaving the list and an
entry of its own with it; one that holds a LISTENING receiver on an UP link ends DONE and the receiver is
RELEASING with a TAP DISCONNECT queued; one that holds a receiver whose TAP CONNECT is still queued ends DONE and
gives the receiver up at once to the one line that waits, and the line that lost it is listed for a rewrite before
the line that gained it (R78, R73, R165). -/
def Obligations.ListensEndAtTheirExpiry : Prop :=
  ∀ (k : SlotNo) (c : ListenCtx) (s : State),
    (s.slot k).flight = some (.listen c) → reached s.time c.expiry = true →
    s.exch = .running ∨ s.exch = .stopping →
    (rcvOfTag s k = none →
      ∃ t, exec (.listenExpiry k) s = .next t
        ∧ (t.slot k).flight = none
        ∧ ((t.slot k).due.map fun d => (d.outcome, d.reason)) = some (.failed, .noReceiver)
        ∧ (∀ e ∈ t.waiting, e.tag ≠ some k)
        ∧ t.waiting.map WaitEntry.line
            = (s.waiting.filter fun e => decide (¬(e.tag = some k ∧ e.origin = .listen))).map WaitEntry.line
        ∧ (∀ m, (t.line m).bare = (s.line m).bare) ∧ t.rcvs = s.rcvs ∧ t.engine = s.engine)
    ∧ (∀ j e tap, rcvOfTag s k = some j → s.rcv j = .listening e tap → linkUp s tap.link = true →
      s.waiting = [] →
      ∃ t, exec (.listenExpiry k) s = .next t
        ∧ (t.slot k).flight = none
        ∧ ((t.slot k).due.map fun d => (d.outcome, d.reason)) = some (.done, .none)
        ∧ t.rcv j = .releasing tap .awaitDisconnectAck false ∧ t.det j = Det.reset
        ∧ (t.line e.line).receiver = none
        ∧ Frame.tapDisconnect j ∈ (t.link tap.link).queue
        ∧ (∀ m, sameButReceiver (t.line m) (s.line m)) ∧ t.engine = s.engine)
    ∧ ∀ j e tap x, rcvOfTag s k = some j → s.rcv j = .connecting e tap .queued → linkUp s tap.link = true →
      s.waiting = [x] → (∀ i, s.rcv i ≠ .free) → PoolSound s → s.exch = .running →
      ∃ t, exec (.listenExpiry k) s = .next t
        ∧ (t.slot k).flight = none
        ∧ ((t.slot k).due.map fun d => (d.outcome, d.reason)) = some (.done, .none)
        ∧ t.rcv j = .connecting x { link := linkOf x.line, pair := pairOf x.line } .queued
        ∧ t.rotation = j ∧ t.waiting = []
        ∧ (t.line e.line).receiver = none ∧ (t.line x.line).receiver = some j
        ∧ t.rewriteList = s.rewriteList ++ [e.line, x.line].filter (fun n => decide (n ∉ s.rewriteList))
        ∧ (∀ m, sameButReceiver (t.line m) (s.line m)) ∧ t.engine = s.engine

/-- R152, R154 and R151: at its expiry a trace in TONE ends DONE with the seconds of its tone, the generator
falls silent and a RELAY NORMAL is queued. The tone begins at NA; each half cycle of 125, 62.5 or 31.25 ms ends
with a warble half that moves channel A to the other of NA and NB and nothing else; one not yet due, by the
millisecond in which it falls (log 27), does nothing. -/
def Obligations.TracesExpireAndWarble : Prop :=
  ∀ (c : TraceCtx) (since : Word) (s : State), s.gen.ctx = .trace c → c.step = .tone since →
    let quarter := match c.rate with
      | .hz4 => 500
      | .hz8 => 250
      | .hz16 => 125
    (∃ t, exec .warbleHalf s = .next t
      ∧ ((c.halves + 1) * quarter < 4 * ((s.time - since).toNat + 1) →
          t = { s with gen := { s.gen with
                  chA := { s.gen.chA with n := if c.halves % 2 = 0 then c.nb else c.na },
                  ctx := .trace { c with halves := c.halves + 1 } } })
      ∧ (4 * ((s.time - since).toNat + 1) ≤ (c.halves + 1) * quarter → t = s))
    ∧ (reached s.time c.expiry = true → s.exch = .running ∨ s.exch = .stopping →
        linkUp s (linkOf c.line) = true →
      ∃ t, exec .traceExpiry s = .next t
        ∧ t.gen.output = .silent ∧ t.gen.chA.level = 0 ∧ t.gen.chB.level = 0 ∧ testToneBus t = []
        ∧ t.gen.ctx = .trace { c with step := .restoring }
        ∧ (t.slot c.slot).flight = none
        ∧ (t.slot c.slot).due = some
            { outcome := .done, reason := .none,
              detail := detail (0 :: detail16 s ((s.time - since).toNat / 1000)), result := none }
        ∧ Frame.relay (pairOf c.line) .normal .trace ∈ (t.link (linkOf c.line)).queue
        ∧ (∀ m, (t.line m).bare = (s.line m).bare) ∧ t.rcvs = s.rcvs ∧ t.engine = s.engine)

/-- R74: under LOWEST the lowest-numbered FREE receiver is chosen, under ROTATE the first FREE one met going
up from the pointer with DR7 followed by DR0; a grant in either setting moves the pointer to the receiver
granted; after either reset the pointer names DR7, so that the first grant under ROTATE goes to DR0; and a
write of the setting moves no pointer and counts from the next grant, in every exchange state, as long as RUN
keeps its value, for such a write grants nothing itself. -/
def Obligations.GrantsFollowPoolSelect : Prop :=
  (∀ (s : State) (k : RcvNo), rotate s = false →
    (chooseRcv s = some k ↔ s.rcv k = .free ∧ ∀ j, j < k → s.rcv j ≠ .free))
  ∧ (∀ (s : State) (i : RcvNo), rotate s = true →
    (chooseRcv s = some (s.rotation + 1 + i)
      ↔ s.rcv (s.rotation + 1 + i) = .free ∧ ∀ j, j < i → s.rcv (s.rotation + 1 + j) ≠ .free))
  ∧ (∀ (s : State) (e : WaitEntry) (k : RcvNo), (grant s e k).rotation = k)
  ∧ (∀ s v, ∃ p q, exec .pinReset s = .next p ∧ exec (.softReset v) s = .next q
      ∧ p.rotation = 7 ∧ q.rotation = 7)
  ∧ (∀ s : State, s.rotation = 7 → rotate s = true → s.rcv 0 = .free → chooseRcv s = some 0)
  ∧ (∀ (v : Word) (b : Bus) (s : State), b.wf = true → v.getLsbD 31 = false →
      (v.getLsbD 0 = run s ∧ (s.exch = .halted → run s = true)) ∨ s.exch = .starting →
      ∃ t, exec (.registerWrite .ctrl v b) s = .next t
        ∧ t = { withCtl b s with ctrl := v &&& 0x00001737#32 } ∧ rotate t = v.getLsbD 12)

/-! ### Profiles -/

/-- R124 and R125: a time in milliseconds becomes the least number of scans that lasts as long, at least 1 and at
most 65,535; seconds convert exactly; tone times become blocks of 10 ms, at least 1; the defaults convert as the
table gives; and a profile is valid at a period exactly when its fields, and its times in scans, meet the
fifteen constraints. -/
def Obligations.TimesConvertToScans : Prop :=
  (∀ (p : Period) (ms : Nat), 1 ≤ ms → ms ≤ 65535 →
    ms ≤ toScans p ms * p.ms ∧ (toScans p ms - 1) * p.ms < ms
    ∧ 1 ≤ toScans p ms ∧ toScans p ms ≤ 65535)
  ∧ (∀ p, toScans p 0 = 1)
  ∧ (∀ (p : Period) (sec : Nat), secondsToScans p sec * p.ms = sec * 1000)
  ∧ (∀ ms, 1 ≤ toBlocks ms ∧ ms ≤ toBlocks ms * 10 ∧ (1 ≤ ms → (toBlocks ms - 1) * 10 < ms))
  ∧ (let c := fun p => convert p defaultProfile
     [(c .ms2).hook, (c .ms2).fault, (c .ms2).restore, (c .ms2).breakMin, (c .ms2).breakMax]
       = [4, 250, 1000, 10, 60]
     ∧ [(c .ms8).hook, (c .ms8).fault, (c .ms8).restore, (c .ms8).breakMin, (c .ms8).breakMax]
       = [1, 63, 250, 3, 15]
     ∧ [(c .ms4).flashMin, (c .ms4).flashMax, (c .ms4).clearMin, (c .ms4).interdigit,
        (c .ms4).firstDigit, (c .ms4).dialEnd] = [50, 200, 250, 50, 5000, 2000]
     ∧ (c .ms4).quiet = some 7500)
  ∧ ∀ (p : Period) (f : Profile),
    let within := fun (x lo hi : Int) => lo ≤ x ∧ x ≤ hi
    validAt p f = true ↔
      (∀ x ∈ [f.thr.iOn, f.thr.iOff, f.thr.iLeak, f.thr.vShort], within x (-2048) 2047)
      ∧ within f.thr.vFpos (-2048) 2045 ∧ within f.thr.vFneg (-2047) 2047
      ∧ within f.thr.vsNom (-4096) 4094 ∧ within f.thr.vGnd 0 8190
      ∧ (∀ x ∈ [f.firstDigit, f.dialEnd], 1 ≤ x ∧ x ≤ 255)
      ∧ f.numbering ≤ 2 ∧ f.cls ≤ 1 ∧ f.flags < 8 ∧ f.pace ≤ 4
      ∧ within f.tone.min (-64) 6 ∧ within f.tone.max (-64) 6
      ∧ within f.tone.forward 0 70 ∧ within f.tone.reverse 0 70
      ∧ f.toneOn ≤ 2550 ∧ f.toneOff ≤ 2550
      ∧ toScans p f.hook < toScans p f.breakMin
      ∧ toScans p f.breakMin ≤ toScans p f.breakMax ∧ toScans p f.breakMax < toScans p f.flashMin
      ∧ toScans p f.flashMin ≤ toScans p f.flashMax ∧ toScans p f.flashMax < toScans p f.clearMin
      ∧ toScans p f.hook < toScans p f.interdigit
      ∧ f.thr.iLeak < f.thr.iOff ∧ f.thr.iOff ≤ f.thr.iOn ∧ f.thr.vFneg < f.thr.vsNom

/-! ### Invariants that every step keeps -/

/-- Every step keeps the memory in its canonical form (the model's own invariant, log 4). -/
def Obligations.StepsKeepTheMemoryCanonical : Prop :=
  ∀ s t : State, memOk s → step s = .next t → memOk t

/-- Every step keeps each line's counters, queue, fault count and accumulators, and the protocol error
count, in the ranges that the chapters give them (R9, R22, R89, R144, R158, R159, R161). -/
def Obligations.StepsKeepTheNumbersInRange : Prop :=
  ∀ s t : State, numbersFit s → step s = .next t → numbersFit t

/-- Every step keeps service, supervision, scan rate, calibrations and insulation tests in agreement
(R47, R95, R111, R145). -/
def Obligations.StepsKeepTheServicesSound : Prop :=
  ∀ s t : State, ServicesSound s → step s = .next t → ServicesSound t

/-- Every step keeps the part's copies of the update counts even (R164), and at most 32 entries held in each
image while the exchange makes bus traffic (R160). -/
def Obligations.StepsKeepTheImageCounts : Prop :=
  ∀ s t : State, updatesEven s → imagesFit s → step s = .next t → updatesEven t ∧ imagesFit t

/-- Every step keeps the pool sound: one line for a receiver and one receiver for a line, none for a waiting
line, the list in class order, every line listed or served ACTIVE in a call state, no receiver FREE while a line
waits, the receiver of a check CHECKING (R69, R70, R73, R87). -/
def Obligations.StepsKeepThePoolSound : Prop :=
  ∀ s t : State, ServicesSound s → PoolSound s → step s = .next t → PoolSound t

/-- Every step keeps the links sound: control queues hold control frames only, no two of one key, and never more
than 40; a link that is not UP has none; a recovery's TAP CLEAR ALL stands first, and until it is taken no line
of the link is in a call and no receiver tied there (R136, R137, R139, R140). -/
def Obligations.StepsKeepTheLinksSound : Prop :=
  ∀ s t : State, ServicesSound s → PoolSound s → LinksSound s → step s = .next t → LinksSound t

/-- Every step keeps the detection of a receiver that neither listens nor checks reset (R50, R52, R67). -/
def Obligations.StepsKeepIdleDetectionReset : Prop :=
  ∀ s t : State, detectionIdle s → step s = .next t → detectionIdle t
end

