-- ==== Sys2Proof/Laws/Memory.lean ====
section
/-! SUPPORT. The memory: a read after a write, and the canonical form that every memory operation keeps. -/

namespace Sys2Proof.Machine

/-- A byte reads as written; every other byte reads as before. -/
theorem memRead_memWrite (m : List Host.Cell) (a b : Nat) (v : Byte) (h : memWf m) :
    memRead (memWrite m a v) b = if b = a then v else memRead m b := by
  induction m with
  | nil =>
    by_cases hv : v = unlisted <;> by_cases hb : b = a <;> simp [memWrite, memRead, hv, hb, eq_comm]
    intro e; exact absurd e.symm hb
  | cons c t ih =>
    obtain ⟨k, w⟩ := c
    have hs := h.1
    rw [List.pairwise_cons] at hs
    have ht : memWf t := ⟨hs.2, fun c hc => h.2 c (List.mem_cons_of_mem _ hc)⟩
    have hnone : ∀ x, x ≤ k → memRead t x = unlisted := by
      intro x hx
      have : ∀ c ∈ t, x < c.1 := fun c hc => lt_of_le_of_lt hx (hs.1 c hc)
      clear ih ht hs h
      induction t with
      | nil => rfl
      | cons d u ih2 =>
        have hd := this d List.mem_cons_self
        have : d.1 ≠ x := by omega
        rw [memRead.eq_def]
        simp only [this, if_false]
        exact ih2 fun c hc => ‹∀ c ∈ d :: u, x < c.1› c (List.mem_cons_of_mem _ hc)
    by_cases h1 : a < k
    · by_cases hv : v = unlisted
      · by_cases hb : b = a
        · have : k ≠ b := by omega
          simp [memWrite, memRead, h1, hv, hb]
          rw [if_neg (by omega)]
          exact hnone a (by omega)
        · simp [memWrite, h1, hv, hb]
      · by_cases hb : b = a
        · simp [memWrite, memRead, h1, hv, hb]
        · have : a ≠ b := fun e => hb e.symm
          simp [memWrite, memRead, h1, hv, hb, this]
    · by_cases h2 : a = k
      · subst h2
        by_cases hv : v = unlisted
        · by_cases hb : b = a
          · simp [memWrite, hv, hb]; exact hnone a le_rfl
          · have : a ≠ b := fun e => hb e.symm
            simp [memWrite, memRead, hv, hb, this]
        · by_cases hb : b = a
          · simp [memWrite, memRead, hv, hb]
          · have : a ≠ b := fun e => hb e.symm
            simp [memWrite, memRead, hv, hb, this]
      · by_cases hb : k = b
        · have : b ≠ a := by omega
          subst hb
          simp [memWrite, memRead, h1, h2, this]
        · simp [memWrite, memRead, h1, h2, hb, ih ht]

/-- Every listed address after a write was listed before or is the one written. -/
theorem memWrite_mem (m : List Host.Cell) (a : Nat) (v : Byte) :
    ∀ c ∈ memWrite m a v, c ∈ m ∨ (c.1 = a ∧ c.2 = v ∧ v ≠ unlisted) := by
  induction m with
  | nil =>
    intro c hc
    by_cases hv : v = unlisted
    · simp [memWrite, hv] at hc
    · simp [memWrite, hv] at hc; subst hc; exact .inr ⟨rfl, rfl, hv⟩
  | cons d t ih =>
    obtain ⟨k, w⟩ := d
    intro c hc
    by_cases h1 : a < k
    · by_cases hv : v = unlisted
      · simp [memWrite, h1, hv] at hc; simpa using Or.inl hc
      · simp [memWrite, h1, hv] at hc
        rcases hc with rfl | hc
        · exact .inr ⟨rfl, rfl, hv⟩
        · exact .inl (by simpa using hc)
    · by_cases h2 : a = k
      · by_cases hv : v = unlisted
        · simp [memWrite, h2, hv] at hc; exact .inl (List.mem_cons_of_mem _ hc)
        · simp [memWrite, h2, hv] at hc
          rcases hc with rfl | hc
          · exact .inr ⟨h2.symm, rfl, hv⟩
          · exact .inl (List.mem_cons_of_mem _ hc)
      · simp [memWrite, h1, h2] at hc
        rcases hc with rfl | hc
        · exact .inl List.mem_cons_self
        · rcases ih c hc with h | h
          · exact .inl (List.mem_cons_of_mem _ h)
          · exact .inr h

/-- A write at a bus address keeps the canonical form. -/
theorem memWrite_wf (m : List Host.Cell) (a : Nat) (v : Byte) (h : memWf m) (ha : a < 2 ^ 32) :
    memWf (memWrite m a v) := by
  refine ⟨?_, ?_⟩
  · have hs := h.1
    clear h
    induction m with
    | nil => by_cases hv : v = unlisted <;> simp [memWrite, hv]
    | cons d t ih =>
      obtain ⟨k, w⟩ := d
      have hs' := hs
      rw [List.pairwise_cons] at hs
      by_cases h1 : a < k
      · by_cases hv : v = unlisted
        · simpa [memWrite, h1, hv] using hs'
        · simp only [memWrite, h1, hv, if_true, if_false]
          refine List.pairwise_cons.2 ⟨fun c hc => ?_, hs'⟩
          rcases List.mem_cons.1 hc with rfl | hc
          · exact h1
          · exact lt_trans h1 (hs.1 c hc)
      · by_cases h2 : a = k
        · subst h2
          by_cases hv : v = unlisted
          · simpa [memWrite, hv] using hs.2
          · simp only [memWrite, hv, lt_irrefl, if_true, if_false]
            exact List.pairwise_cons.2 ⟨hs.1, hs.2⟩
        · simp only [memWrite, h1, h2, if_false]
          refine List.pairwise_cons.2 ⟨fun c hc => ?_, ih hs.2⟩
          rcases memWrite_mem t a v c hc with hc | ⟨hc, -, -⟩
          · exact hs.1 c hc
          · show k < c.1
            omega
  · intro c hc
    rcases memWrite_mem m a v c hc with hc | ⟨h1, h2, h3⟩
    · exact h.2 c hc
    · exact ⟨h2 ▸ h3, h1 ▸ ha⟩

/-- Writing bytes keeps the canonical form. -/
theorem memWriteBytes_wf (l : List Byte) (m : List Host.Cell) (a : Nat) (h : memWf m) :
    memWf (memWriteBytes m a l) := by
  induction l generalizing m a with
  | nil => exact h
  | cons v t ih => exact ih _ _ (memWrite_wf _ _ _ h (Nat.mod_lt _ (by norm_num)))

/-- The controller's writes on the bus keep the canonical form. -/
theorem controllerWrites_wf (w : List (Nat × Byte)) (m : List Host.Cell) (h : memWf m)
    (hw : ∀ c ∈ w, c.1 < 2 ^ 32) : memWf (controllerWrites m w) := by
  unfold controllerWrites
  induction w generalizing m with
  | nil => exact h
  | cons c t ih =>
    exact ih _ (memWrite_wf _ _ _ h (hw c List.mem_cons_self))
      fun d hd => hw d (List.mem_cons_of_mem _ hd)

/-- A byte that lies at none of the addresses written reads as before. -/
theorem memRead_memWriteBytes_other (l : List Byte) (m : List Host.Cell) (a b : Nat) (h : memWf m)
    (hb : ∀ i, i < l.length → b ≠ (a + i) % 2 ^ 32) :
    memRead (memWriteBytes m a l) b = memRead m b := by
  induction l generalizing m a with
  | nil => rfl
  | cons v t ih =>
    have h0 := hb 0 (by simp)
    simp only [Nat.add_zero] at h0
    show memRead (memWriteBytes (memWrite m (a % 2 ^ 32) v) (a + 1) t) b = _
    rw [ih _ _ (memWrite_wf _ _ _ h (Nat.mod_lt _ (by norm_num))), memRead_memWrite _ _ _ _ h,
      if_neg h0]
    intro i hi
    have := hb (i + 1) (by simpa using hi)
    rwa [show a + (i + 1) = a + 1 + i by omega] at this

end Sys2Proof.Machine
end

