-- ==== Sys2Proof/Laws/Bus.lean ====
section
/-! SUPPORT. Master accesses: what a field reads after it is written, what other fields read then, and the
series of accesses when none fails. -/

namespace Sys2Proof.Machine

/-! ### Bytes of a value -/

theorem toBytesLE_length (x n : Nat) : (toBytesLE x n).length = n := by
  induction n generalizing x with
  | zero => rfl
  | succ n ih => simp [toBytesLE, ih]

@[simp] theorem toBytes_length (big : Bool) (n x : Nat) : (toBytes big n x).length = n := by
  cases big <;> simp [toBytes, toBytesLE_length]

theorem ofBytesLE_toBytesLE (n x : Nat) : ofBytesLE (toBytesLE x n) = x % 256 ^ n := by
  induction n generalizing x with
  | zero => simp [toBytesLE, ofBytesLE, Nat.mod_one]
  | succ n ih =>
    rw [toBytesLE, ofBytesLE, ih, Nat.pow_succ, Nat.mul_comm (256 ^ n), Nat.mod_mul]
    simp

/-- The bytes of a value in a byte order give back the value, modulo the width. -/
@[simp] theorem ofBytes_toBytes (big : Bool) (n x : Nat) : ofBytes big (toBytes big n x) = x % 256 ^ n := by
  cases big <;> simp [ofBytes, toBytes, ofBytesLE_toBytesLE]

theorem encodeInt_lt (n : Nat) (v : Int) : encodeInt n v < 256 ^ n := by
  have h2 : ((256 ^ n : Nat) : Int) ≠ 0 := by positivity
  unfold encodeInt
  rw [Nat.pow_mul]
  have h1 := Int.emod_nonneg v h2
  have h3 := Int.emod_lt_of_pos v (b := ((256 ^ n : Nat) : Int)) (by positivity)
  have h4 : ((2 ^ 8) ^ n : Nat) = 256 ^ n := rfl
  rw [h4]
  omega

/-- A natural number is written as itself, modulo the width. -/
theorem encodeInt_natCast (n x : Nat) : encodeInt n (x : Int) = x % 256 ^ n := by
  unfold encodeInt
  rw [Nat.pow_mul, ← Int.natCast_emod, Int.toNat_natCast]

/-! ### Reading after writing -/

@[simp] theorem memReadBytes_length (m : List Host.Cell) (a n : Nat) : (memReadBytes m a n).length = n := by
  induction n generalizing a with
  | zero => rfl
  | succ n ih => simp [memReadBytes, ih]

/-- Two reads agree when each byte does. -/
theorem memReadBytes_congr (m m' : List Host.Cell) (a n : Nat)
    (h : ∀ i, i < n → memRead m ((a + i) % 2 ^ 32) = memRead m' ((a + i) % 2 ^ 32)) :
    memReadBytes m a n = memReadBytes m' a n := by
  induction n generalizing a with
  | zero => rfl
  | succ n ih =>
    rw [memReadBytes, memReadBytes]
    congr 1
    · exact h 0 (by omega)
    · refine ih _ fun i hi => ?_
      have := h (i + 1) (by omega)
      rwa [show a + (i + 1) = a + 1 + i by omega] at this

/-- Bytes written read back as they were written. -/
theorem memReadBytes_memWriteBytes (l : List Byte) (m : List Host.Cell) (a : Nat) (h : memWf m)
    (hl : l.length ≤ 2 ^ 32) : memReadBytes (memWriteBytes m a l) a l.length = l := by
  induction l generalizing m a with
  | nil => rfl
  | cons v t ih =>
    have hw := memWrite_wf m (a % 2 ^ 32) v h (Nat.mod_lt _ (by norm_num))
    have hl' : t.length + 1 ≤ 2 ^ 32 := hl
    show memReadBytes (memWriteBytes (memWrite m (a % 2 ^ 32) v) (a + 1) t) a (t.length + 1) = v :: t
    rw [memReadBytes, ih _ _ hw (by omega), memRead_memWriteBytes_other _ _ _ _ hw (by omega),
      memRead_memWrite _ _ _ _ h, if_pos rfl]

/-- Bytes that lie at none of the addresses written read as before. -/
theorem memReadBytes_memWriteBytes_other (l : List Byte) (m : List Host.Cell) (a b n : Nat) (h : memWf m)
    (hb : ∀ i j, i < n → j < l.length → (b + i) % 2 ^ 32 ≠ (a + j) % 2 ^ 32) :
    memReadBytes (memWriteBytes m a l) b n = memReadBytes m b n :=
  memReadBytes_congr _ _ _ _ fun i hi =>
    memRead_memWriteBytes_other _ _ _ _ h fun j hj => hb i j hi hj

/-! ### A series of accesses of which none fails -/

@[simp] theorem andThen_ok (s : State) (f : State → BusRes) : (BusRes.ok s).andThen f = f s := rfl

@[simp] theorem andThen_err (s : State) (a : Word) (f : State → BusRes) :
    (BusRes.err s a).andThen f = .err s a := rfl

@[simp] theorem settle_ok (s : State) : (BusRes.ok s).settle = s := rfl

@[simp] theorem busWrite_none (s : State) (off : Nat) (l : List Byte) :
    busWrite none s off l = .ok { s with mem := memWriteBytes s.mem (areaAddr s off) l } := rfl

@[simp] theorem busWriteField_none (s : State) (off n : Nat) (v : Int) :
    busWriteField none s off n v
      = .ok { s with mem := memWriteBytes s.mem (areaAddr s off) (toBytes s.latchBig n (encodeInt n v)) } :=
  rfl

@[simp] theorem busRead_none (s : State) (off n : Nat) (k : List Byte → BusRes) :
    busRead none s off n k = k (memReadBytes s.mem (areaAddr s off) n) := rfl

@[simp] theorem busReadField_none (s : State) (off n : Nat) (k : Nat → BusRes) :
    busReadField none s off n k = k (areaField s off n) := rfl

@[simp] theorem busEach_nil {α : Type} (f : State → α → BusRes) (s : State) : busEach f [] s = .ok s := rfl

@[simp] theorem busEach_cons {α : Type} (f : State → α → BusRes) (x : α) (l : List α) (s : State) :
    busEach f (x :: l) s = (f s x).andThen (busEach f l) := rfl

/-! ### Fields of the exchange area -/

@[simp] theorem areaAddr_mem (s : State) (m : List Host.Cell) (off : Nat) :
    areaAddr { s with mem := m } off = areaAddr s off := rfl

theorem areaAddr_add (s : State) (off i : Nat) : (areaAddr s off + i) % 2 ^ 32 = areaAddr s (off + i) := by
  unfold areaAddr
  omega

/-- Offsets apart within the bus's range lie at addresses apart. -/
theorem areaAddr_ne (s : State) {a b i j : Nat} (hab : a + i ≠ b + j) (ha : a + i < 2 ^ 32)
    (hb : b + j < 2 ^ 32) : (areaAddr s a + i) % 2 ^ 32 ≠ (areaAddr s b + j) % 2 ^ 32 := by
  unfold areaAddr
  have := s.latchBase.isLt
  omega

/-- A field reads as it was written. -/
theorem areaField_written (s : State) (off n : Nat) (v : Int) (h : memOk s) (hn : n ≤ 2 ^ 32) :
    areaField { s with mem := memWriteBytes s.mem (areaAddr s off) (toBytes s.latchBig n (encodeInt n v)) }
      off n = encodeInt n v := by
  have hb := memReadBytes_memWriteBytes (toBytes s.latchBig n (encodeInt n v)) s.mem (areaAddr s off) h
    (by simpa using hn)
  rw [toBytes_length] at hb
  unfold areaField
  simp only [areaAddr_mem]
  rw [hb, ofBytes_toBytes, Nat.mod_eq_of_lt (encodeInt_lt n v)]

/-- A field reads as before when bytes beside it are written. -/
theorem areaField_other (s : State) (off n b : Nat) (l : List Byte) (h : memOk s)
    (hd : off + n ≤ b ∨ b + l.length ≤ off) (ho : off + n ≤ 2 ^ 32) (hb : b + l.length ≤ 2 ^ 32) :
    areaField { s with mem := memWriteBytes s.mem (areaAddr s b) l } off n = areaField s off n := by
  unfold areaField
  simp only [areaAddr_mem]
  rw [memReadBytes_memWriteBytes_other _ _ _ _ _ h]
  intro i j hi hj
  exact areaAddr_ne s (by omega) (by omega) (by omega)

/-- Bytes written at offsets in a range leave every byte outside the range as it was. -/
theorem keepsOutside_write (s : State) (off : Nat) (l : List Byte) (p : Nat → Prop) (h : memOk s)
    (hp : ∀ i, i < l.length → p (off + i)) :
    keepsOutside { s with mem := memWriteBytes s.mem (areaAddr s off) l } s.mem p := by
  intro a ha
  refine memRead_memWriteBytes_other _ _ _ _ h fun i hi e => ha (off + i) (hp i hi) ?_
  rw [e, areaAddr_add]
  rfl

/-- Writing bytes keeps the canonical form. -/
theorem memOk_write (s : State) (off : Nat) (l : List Byte) (h : memOk s) :
    memOk { s with mem := memWriteBytes s.mem (areaAddr s off) l } :=
  memWriteBytes_wf l s.mem (areaAddr s off) h

/-- The controller's writes keep the canonical form. -/
theorem memOk_withCtl (b : Bus) (s : State) (hb : b.wf = true) (h : memOk s) : memOk (withCtl b s) := by
  refine controllerWrites_wf b.ctl s.mem h fun c hc => ?_
  simp only [Bus.wf, List.all_eq_true] at hb
  simpa [cellWf] using hb c hc

end Sys2Proof.Machine
end

