-- ==== Sys2Proof/Laws/State.lean ====
section
/-! SUPPORT. One lemma for each field of State under each named update, and for each record read after an
update: all true by rfl or by the two lemmas on Vector.set, all simp lemmas. -/

namespace Sys2Proof.Machine

/-! ### modLine -/

@[simp] theorem State.modLine_time (s : State) (n : LineNo) (f : LineRec → LineRec) :
    (s.modLine n f).time = s.time := rfl

@[simp] theorem State.modLine_ctrl (s : State) (n : LineNo) (f : LineRec → LineRec) :
    (s.modLine n f).ctrl = s.ctrl := rfl

@[simp] theorem State.modLine_event (s : State) (n : LineNo) (f : LineRec → LineRec) :
    (s.modLine n f).event = s.event := rfl

@[simp] theorem State.modLine_busErr (s : State) (n : LineNo) (f : LineRec → LineRec) :
    (s.modLine n f).busErr = s.busErr := rfl

@[simp] theorem State.modLine_periodHeld (s : State) (n : LineNo) (f : LineRec → LineRec) :
    (s.modLine n f).periodHeld = s.periodHeld := rfl

@[simp] theorem State.modLine_abase (s : State) (n : LineNo) (f : LineRec → LineRec) :
    (s.modLine n f).abase = s.abase := rfl

@[simp] theorem State.modLine_awin (s : State) (n : LineNo) (f : LineRec → LineRec) :
    (s.modLine n f).awin = s.awin := rfl

@[simp] theorem State.modLine_faddr (s : State) (n : LineNo) (f : LineRec → LineRec) :
    (s.modLine n f).faddr = s.faddr := rfl

@[simp] theorem State.modLine_exch (s : State) (n : LineNo) (f : LineRec → LineRec) :
    (s.modLine n f).exch = s.exch := rfl

@[simp] theorem State.modLine_latchBase (s : State) (n : LineNo) (f : LineRec → LineRec) :
    (s.modLine n f).latchBase = s.latchBase := rfl

@[simp] theorem State.modLine_latchWin (s : State) (n : LineNo) (f : LineRec → LineRec) :
    (s.modLine n f).latchWin = s.latchWin := rfl

@[simp] theorem State.modLine_latchBig (s : State) (n : LineNo) (f : LineRec → LineRec) :
    (s.modLine n f).latchBig = s.latchBig := rfl

@[simp] theorem State.modLine_sweeping (s : State) (n : LineNo) (f : LineRec → LineRec) :
    (s.modLine n f).sweeping = s.sweeping := rfl

@[simp] theorem State.modLine_sweepAgain (s : State) (n : LineNo) (f : LineRec → LineRec) :
    (s.modLine n f).sweepAgain = s.sweepAgain := rfl

@[simp] theorem State.modLine_rewriteList (s : State) (n : LineNo) (f : LineRec → LineRec) :
    (s.modLine n f).rewriteList = s.rewriteList := rfl

@[simp] theorem State.modLine_rewriting (s : State) (n : LineNo) (f : LineRec → LineRec) :
    (s.modLine n f).rewriting = s.rewriting := rfl

@[simp] theorem State.modLine_headerUpdate (s : State) (n : LineNo) (f : LineRec → LineRec) :
    (s.modLine n f).headerUpdate = s.headerUpdate := rfl

@[simp] theorem State.modLine_headerPending (s : State) (n : LineNo) (f : LineRec → LineRec) :
    (s.modLine n f).headerPending = s.headerPending := rfl

@[simp] theorem State.modLine_changeCount (s : State) (n : LineNo) (f : LineRec → LineRec) :
    (s.modLine n f).changeCount = s.changeCount := rfl

@[simp] theorem State.modLine_protocolErrors (s : State) (n : LineNo) (f : LineRec → LineRec) :
    (s.modLine n f).protocolErrors = s.protocolErrors := rfl

@[simp] theorem State.modLine_slots (s : State) (n : LineNo) (f : LineRec → LineRec) :
    (s.modLine n f).slots = s.slots := rfl

@[simp] theorem State.modLine_period (s : State) (n : LineNo) (f : LineRec → LineRec) :
    (s.modLine n f).period = s.period := rfl

@[simp] theorem State.modLine_periodCount (s : State) (n : LineNo) (f : LineRec → LineRec) :
    (s.modLine n f).periodCount = s.periodCount := rfl

@[simp] theorem State.modLine_periodEnd (s : State) (n : LineNo) (f : LineRec → LineRec) :
    (s.modLine n f).periodEnd = s.periodEnd := rfl

@[simp] theorem State.modLine_pollIn (s : State) (n : LineNo) (f : LineRec → LineRec) :
    (s.modLine n f).pollIn = s.pollIn := rfl

@[simp] theorem State.modLine_economy (s : State) (n : LineNo) (f : LineRec → LineRec) :
    (s.modLine n f).economy = s.economy := rfl

@[simp] theorem State.modLine_links (s : State) (n : LineNo) (f : LineRec → LineRec) :
    (s.modLine n f).links = s.links := rfl

@[simp] theorem State.modLine_rcvs (s : State) (n : LineNo) (f : LineRec → LineRec) :
    (s.modLine n f).rcvs = s.rcvs := rfl

@[simp] theorem State.modLine_dets (s : State) (n : LineNo) (f : LineRec → LineRec) :
    (s.modLine n f).dets = s.dets := rfl

@[simp] theorem State.modLine_waiting (s : State) (n : LineNo) (f : LineRec → LineRec) :
    (s.modLine n f).waiting = s.waiting := rfl

@[simp] theorem State.modLine_rotation (s : State) (n : LineNo) (f : LineRec → LineRec) :
    (s.modLine n f).rotation = s.rotation := rfl

@[simp] theorem State.modLine_profiles (s : State) (n : LineNo) (f : LineRec → LineRec) :
    (s.modLine n f).profiles = s.profiles := rfl

@[simp] theorem State.modLine_gen (s : State) (n : LineNo) (f : LineRec → LineRec) :
    (s.modLine n f).gen = s.gen := rfl

@[simp] theorem State.modLine_mem (s : State) (n : LineNo) (f : LineRec → LineRec) :
    (s.modLine n f).mem = s.mem := rfl

@[simp] theorem State.modLine_pending (s : State) (n : LineNo) (f : LineRec → LineRec) :
    (s.modLine n f).pending = s.pending := rfl

/-! ### modLink -/

@[simp] theorem State.modLink_time (s : State) (l : LinkNo) (f : LinkRec → LinkRec) :
    (s.modLink l f).time = s.time := rfl

@[simp] theorem State.modLink_ctrl (s : State) (l : LinkNo) (f : LinkRec → LinkRec) :
    (s.modLink l f).ctrl = s.ctrl := rfl

@[simp] theorem State.modLink_event (s : State) (l : LinkNo) (f : LinkRec → LinkRec) :
    (s.modLink l f).event = s.event := rfl

@[simp] theorem State.modLink_busErr (s : State) (l : LinkNo) (f : LinkRec → LinkRec) :
    (s.modLink l f).busErr = s.busErr := rfl

@[simp] theorem State.modLink_periodHeld (s : State) (l : LinkNo) (f : LinkRec → LinkRec) :
    (s.modLink l f).periodHeld = s.periodHeld := rfl

@[simp] theorem State.modLink_abase (s : State) (l : LinkNo) (f : LinkRec → LinkRec) :
    (s.modLink l f).abase = s.abase := rfl

@[simp] theorem State.modLink_awin (s : State) (l : LinkNo) (f : LinkRec → LinkRec) :
    (s.modLink l f).awin = s.awin := rfl

@[simp] theorem State.modLink_faddr (s : State) (l : LinkNo) (f : LinkRec → LinkRec) :
    (s.modLink l f).faddr = s.faddr := rfl

@[simp] theorem State.modLink_exch (s : State) (l : LinkNo) (f : LinkRec → LinkRec) :
    (s.modLink l f).exch = s.exch := rfl

@[simp] theorem State.modLink_latchBase (s : State) (l : LinkNo) (f : LinkRec → LinkRec) :
    (s.modLink l f).latchBase = s.latchBase := rfl

@[simp] theorem State.modLink_latchWin (s : State) (l : LinkNo) (f : LinkRec → LinkRec) :
    (s.modLink l f).latchWin = s.latchWin := rfl

@[simp] theorem State.modLink_latchBig (s : State) (l : LinkNo) (f : LinkRec → LinkRec) :
    (s.modLink l f).latchBig = s.latchBig := rfl

@[simp] theorem State.modLink_sweeping (s : State) (l : LinkNo) (f : LinkRec → LinkRec) :
    (s.modLink l f).sweeping = s.sweeping := rfl

@[simp] theorem State.modLink_sweepAgain (s : State) (l : LinkNo) (f : LinkRec → LinkRec) :
    (s.modLink l f).sweepAgain = s.sweepAgain := rfl

@[simp] theorem State.modLink_rewriteList (s : State) (l : LinkNo) (f : LinkRec → LinkRec) :
    (s.modLink l f).rewriteList = s.rewriteList := rfl

@[simp] theorem State.modLink_rewriting (s : State) (l : LinkNo) (f : LinkRec → LinkRec) :
    (s.modLink l f).rewriting = s.rewriting := rfl

@[simp] theorem State.modLink_headerUpdate (s : State) (l : LinkNo) (f : LinkRec → LinkRec) :
    (s.modLink l f).headerUpdate = s.headerUpdate := rfl

@[simp] theorem State.modLink_headerPending (s : State) (l : LinkNo) (f : LinkRec → LinkRec) :
    (s.modLink l f).headerPending = s.headerPending := rfl

@[simp] theorem State.modLink_changeCount (s : State) (l : LinkNo) (f : LinkRec → LinkRec) :
    (s.modLink l f).changeCount = s.changeCount := rfl

@[simp] theorem State.modLink_protocolErrors (s : State) (l : LinkNo) (f : LinkRec → LinkRec) :
    (s.modLink l f).protocolErrors = s.protocolErrors := rfl

@[simp] theorem State.modLink_slots (s : State) (l : LinkNo) (f : LinkRec → LinkRec) :
    (s.modLink l f).slots = s.slots := rfl

@[simp] theorem State.modLink_period (s : State) (l : LinkNo) (f : LinkRec → LinkRec) :
    (s.modLink l f).period = s.period := rfl

@[simp] theorem State.modLink_periodCount (s : State) (l : LinkNo) (f : LinkRec → LinkRec) :
    (s.modLink l f).periodCount = s.periodCount := rfl

@[simp] theorem State.modLink_periodEnd (s : State) (l : LinkNo) (f : LinkRec → LinkRec) :
    (s.modLink l f).periodEnd = s.periodEnd := rfl

@[simp] theorem State.modLink_pollIn (s : State) (l : LinkNo) (f : LinkRec → LinkRec) :
    (s.modLink l f).pollIn = s.pollIn := rfl

@[simp] theorem State.modLink_economy (s : State) (l : LinkNo) (f : LinkRec → LinkRec) :
    (s.modLink l f).economy = s.economy := rfl

@[simp] theorem State.modLink_lines (s : State) (l : LinkNo) (f : LinkRec → LinkRec) :
    (s.modLink l f).lines = s.lines := rfl

@[simp] theorem State.modLink_rcvs (s : State) (l : LinkNo) (f : LinkRec → LinkRec) :
    (s.modLink l f).rcvs = s.rcvs := rfl

@[simp] theorem State.modLink_dets (s : State) (l : LinkNo) (f : LinkRec → LinkRec) :
    (s.modLink l f).dets = s.dets := rfl

@[simp] theorem State.modLink_waiting (s : State) (l : LinkNo) (f : LinkRec → LinkRec) :
    (s.modLink l f).waiting = s.waiting := rfl

@[simp] theorem State.modLink_rotation (s : State) (l : LinkNo) (f : LinkRec → LinkRec) :
    (s.modLink l f).rotation = s.rotation := rfl

@[simp] theorem State.modLink_profiles (s : State) (l : LinkNo) (f : LinkRec → LinkRec) :
    (s.modLink l f).profiles = s.profiles := rfl

@[simp] theorem State.modLink_gen (s : State) (l : LinkNo) (f : LinkRec → LinkRec) :
    (s.modLink l f).gen = s.gen := rfl

@[simp] theorem State.modLink_mem (s : State) (l : LinkNo) (f : LinkRec → LinkRec) :
    (s.modLink l f).mem = s.mem := rfl

@[simp] theorem State.modLink_pending (s : State) (l : LinkNo) (f : LinkRec → LinkRec) :
    (s.modLink l f).pending = s.pending := rfl

/-! ### modSlot -/

@[simp] theorem State.modSlot_time (s : State) (k : SlotNo) (f : SlotRec → SlotRec) :
    (s.modSlot k f).time = s.time := rfl

@[simp] theorem State.modSlot_ctrl (s : State) (k : SlotNo) (f : SlotRec → SlotRec) :
    (s.modSlot k f).ctrl = s.ctrl := rfl

@[simp] theorem State.modSlot_event (s : State) (k : SlotNo) (f : SlotRec → SlotRec) :
    (s.modSlot k f).event = s.event := rfl

@[simp] theorem State.modSlot_busErr (s : State) (k : SlotNo) (f : SlotRec → SlotRec) :
    (s.modSlot k f).busErr = s.busErr := rfl

@[simp] theorem State.modSlot_periodHeld (s : State) (k : SlotNo) (f : SlotRec → SlotRec) :
    (s.modSlot k f).periodHeld = s.periodHeld := rfl

@[simp] theorem State.modSlot_abase (s : State) (k : SlotNo) (f : SlotRec → SlotRec) :
    (s.modSlot k f).abase = s.abase := rfl

@[simp] theorem State.modSlot_awin (s : State) (k : SlotNo) (f : SlotRec → SlotRec) :
    (s.modSlot k f).awin = s.awin := rfl

@[simp] theorem State.modSlot_faddr (s : State) (k : SlotNo) (f : SlotRec → SlotRec) :
    (s.modSlot k f).faddr = s.faddr := rfl

@[simp] theorem State.modSlot_exch (s : State) (k : SlotNo) (f : SlotRec → SlotRec) :
    (s.modSlot k f).exch = s.exch := rfl

@[simp] theorem State.modSlot_latchBase (s : State) (k : SlotNo) (f : SlotRec → SlotRec) :
    (s.modSlot k f).latchBase = s.latchBase := rfl

@[simp] theorem State.modSlot_latchWin (s : State) (k : SlotNo) (f : SlotRec → SlotRec) :
    (s.modSlot k f).latchWin = s.latchWin := rfl

@[simp] theorem State.modSlot_latchBig (s : State) (k : SlotNo) (f : SlotRec → SlotRec) :
    (s.modSlot k f).latchBig = s.latchBig := rfl

@[simp] theorem State.modSlot_sweeping (s : State) (k : SlotNo) (f : SlotRec → SlotRec) :
    (s.modSlot k f).sweeping = s.sweeping := rfl

@[simp] theorem State.modSlot_sweepAgain (s : State) (k : SlotNo) (f : SlotRec → SlotRec) :
    (s.modSlot k f).sweepAgain = s.sweepAgain := rfl

@[simp] theorem State.modSlot_rewriteList (s : State) (k : SlotNo) (f : SlotRec → SlotRec) :
    (s.modSlot k f).rewriteList = s.rewriteList := rfl

@[simp] theorem State.modSlot_rewriting (s : State) (k : SlotNo) (f : SlotRec → SlotRec) :
    (s.modSlot k f).rewriting = s.rewriting := rfl

@[simp] theorem State.modSlot_headerUpdate (s : State) (k : SlotNo) (f : SlotRec → SlotRec) :
    (s.modSlot k f).headerUpdate = s.headerUpdate := rfl

@[simp] theorem State.modSlot_headerPending (s : State) (k : SlotNo) (f : SlotRec → SlotRec) :
    (s.modSlot k f).headerPending = s.headerPending := rfl

@[simp] theorem State.modSlot_changeCount (s : State) (k : SlotNo) (f : SlotRec → SlotRec) :
    (s.modSlot k f).changeCount = s.changeCount := rfl

@[simp] theorem State.modSlot_protocolErrors (s : State) (k : SlotNo) (f : SlotRec → SlotRec) :
    (s.modSlot k f).protocolErrors = s.protocolErrors := rfl

@[simp] theorem State.modSlot_period (s : State) (k : SlotNo) (f : SlotRec → SlotRec) :
    (s.modSlot k f).period = s.period := rfl

@[simp] theorem State.modSlot_periodCount (s : State) (k : SlotNo) (f : SlotRec → SlotRec) :
    (s.modSlot k f).periodCount = s.periodCount := rfl

@[simp] theorem State.modSlot_periodEnd (s : State) (k : SlotNo) (f : SlotRec → SlotRec) :
    (s.modSlot k f).periodEnd = s.periodEnd := rfl

@[simp] theorem State.modSlot_pollIn (s : State) (k : SlotNo) (f : SlotRec → SlotRec) :
    (s.modSlot k f).pollIn = s.pollIn := rfl

@[simp] theorem State.modSlot_economy (s : State) (k : SlotNo) (f : SlotRec → SlotRec) :
    (s.modSlot k f).economy = s.economy := rfl

@[simp] theorem State.modSlot_lines (s : State) (k : SlotNo) (f : SlotRec → SlotRec) :
    (s.modSlot k f).lines = s.lines := rfl

@[simp] theorem State.modSlot_links (s : State) (k : SlotNo) (f : SlotRec → SlotRec) :
    (s.modSlot k f).links = s.links := rfl

@[simp] theorem State.modSlot_rcvs (s : State) (k : SlotNo) (f : SlotRec → SlotRec) :
    (s.modSlot k f).rcvs = s.rcvs := rfl

@[simp] theorem State.modSlot_dets (s : State) (k : SlotNo) (f : SlotRec → SlotRec) :
    (s.modSlot k f).dets = s.dets := rfl

@[simp] theorem State.modSlot_waiting (s : State) (k : SlotNo) (f : SlotRec → SlotRec) :
    (s.modSlot k f).waiting = s.waiting := rfl

@[simp] theorem State.modSlot_rotation (s : State) (k : SlotNo) (f : SlotRec → SlotRec) :
    (s.modSlot k f).rotation = s.rotation := rfl

@[simp] theorem State.modSlot_profiles (s : State) (k : SlotNo) (f : SlotRec → SlotRec) :
    (s.modSlot k f).profiles = s.profiles := rfl

@[simp] theorem State.modSlot_gen (s : State) (k : SlotNo) (f : SlotRec → SlotRec) :
    (s.modSlot k f).gen = s.gen := rfl

@[simp] theorem State.modSlot_mem (s : State) (k : SlotNo) (f : SlotRec → SlotRec) :
    (s.modSlot k f).mem = s.mem := rfl

@[simp] theorem State.modSlot_pending (s : State) (k : SlotNo) (f : SlotRec → SlotRec) :
    (s.modSlot k f).pending = s.pending := rfl

/-! ### setDet -/

@[simp] theorem State.setDet_time (s : State) (k : RcvNo) (d : Det) :
    (s.setDet k d).time = s.time := rfl

@[simp] theorem State.setDet_ctrl (s : State) (k : RcvNo) (d : Det) :
    (s.setDet k d).ctrl = s.ctrl := rfl

@[simp] theorem State.setDet_event (s : State) (k : RcvNo) (d : Det) :
    (s.setDet k d).event = s.event := rfl

@[simp] theorem State.setDet_busErr (s : State) (k : RcvNo) (d : Det) :
    (s.setDet k d).busErr = s.busErr := rfl

@[simp] theorem State.setDet_periodHeld (s : State) (k : RcvNo) (d : Det) :
    (s.setDet k d).periodHeld = s.periodHeld := rfl

@[simp] theorem State.setDet_abase (s : State) (k : RcvNo) (d : Det) :
    (s.setDet k d).abase = s.abase := rfl

@[simp] theorem State.setDet_awin (s : State) (k : RcvNo) (d : Det) :
    (s.setDet k d).awin = s.awin := rfl

@[simp] theorem State.setDet_faddr (s : State) (k : RcvNo) (d : Det) :
    (s.setDet k d).faddr = s.faddr := rfl

@[simp] theorem State.setDet_exch (s : State) (k : RcvNo) (d : Det) :
    (s.setDet k d).exch = s.exch := rfl

@[simp] theorem State.setDet_latchBase (s : State) (k : RcvNo) (d : Det) :
    (s.setDet k d).latchBase = s.latchBase := rfl

@[simp] theorem State.setDet_latchWin (s : State) (k : RcvNo) (d : Det) :
    (s.setDet k d).latchWin = s.latchWin := rfl

@[simp] theorem State.setDet_latchBig (s : State) (k : RcvNo) (d : Det) :
    (s.setDet k d).latchBig = s.latchBig := rfl

@[simp] theorem State.setDet_sweeping (s : State) (k : RcvNo) (d : Det) :
    (s.setDet k d).sweeping = s.sweeping := rfl

@[simp] theorem State.setDet_sweepAgain (s : State) (k : RcvNo) (d : Det) :
    (s.setDet k d).sweepAgain = s.sweepAgain := rfl

@[simp] theorem State.setDet_rewriteList (s : State) (k : RcvNo) (d : Det) :
    (s.setDet k d).rewriteList = s.rewriteList := rfl

@[simp] theorem State.setDet_rewriting (s : State) (k : RcvNo) (d : Det) :
    (s.setDet k d).rewriting = s.rewriting := rfl

@[simp] theorem State.setDet_headerUpdate (s : State) (k : RcvNo) (d : Det) :
    (s.setDet k d).headerUpdate = s.headerUpdate := rfl

@[simp] theorem State.setDet_headerPending (s : State) (k : RcvNo) (d : Det) :
    (s.setDet k d).headerPending = s.headerPending := rfl

@[simp] theorem State.setDet_changeCount (s : State) (k : RcvNo) (d : Det) :
    (s.setDet k d).changeCount = s.changeCount := rfl

@[simp] theorem State.setDet_protocolErrors (s : State) (k : RcvNo) (d : Det) :
    (s.setDet k d).protocolErrors = s.protocolErrors := rfl

@[simp] theorem State.setDet_slots (s : State) (k : RcvNo) (d : Det) :
    (s.setDet k d).slots = s.slots := rfl

@[simp] theorem State.setDet_period (s : State) (k : RcvNo) (d : Det) :
    (s.setDet k d).period = s.period := rfl

@[simp] theorem State.setDet_periodCount (s : State) (k : RcvNo) (d : Det) :
    (s.setDet k d).periodCount = s.periodCount := rfl

@[simp] theorem State.setDet_periodEnd (s : State) (k : RcvNo) (d : Det) :
    (s.setDet k d).periodEnd = s.periodEnd := rfl

@[simp] theorem State.setDet_pollIn (s : State) (k : RcvNo) (d : Det) :
    (s.setDet k d).pollIn = s.pollIn := rfl

@[simp] theorem State.setDet_economy (s : State) (k : RcvNo) (d : Det) :
    (s.setDet k d).economy = s.economy := rfl

@[simp] theorem State.setDet_lines (s : State) (k : RcvNo) (d : Det) :
    (s.setDet k d).lines = s.lines := rfl

@[simp] theorem State.setDet_links (s : State) (k : RcvNo) (d : Det) :
    (s.setDet k d).links = s.links := rfl

@[simp] theorem State.setDet_rcvs (s : State) (k : RcvNo) (d : Det) :
    (s.setDet k d).rcvs = s.rcvs := rfl

@[simp] theorem State.setDet_waiting (s : State) (k : RcvNo) (d : Det) :
    (s.setDet k d).waiting = s.waiting := rfl

@[simp] theorem State.setDet_rotation (s : State) (k : RcvNo) (d : Det) :
    (s.setDet k d).rotation = s.rotation := rfl

@[simp] theorem State.setDet_profiles (s : State) (k : RcvNo) (d : Det) :
    (s.setDet k d).profiles = s.profiles := rfl

@[simp] theorem State.setDet_gen (s : State) (k : RcvNo) (d : Det) :
    (s.setDet k d).gen = s.gen := rfl

@[simp] theorem State.setDet_mem (s : State) (k : RcvNo) (d : Det) :
    (s.setDet k d).mem = s.mem := rfl

@[simp] theorem State.setDet_pending (s : State) (k : RcvNo) (d : Det) :
    (s.setDet k d).pending = s.pending := rfl

/-! ### setRcv -/

@[simp] theorem State.setRcv_time (s : State) (k : RcvNo) (r : RcvState) :
    (s.setRcv k r).time = s.time := rfl

@[simp] theorem State.setRcv_ctrl (s : State) (k : RcvNo) (r : RcvState) :
    (s.setRcv k r).ctrl = s.ctrl := rfl

@[simp] theorem State.setRcv_event (s : State) (k : RcvNo) (r : RcvState) :
    (s.setRcv k r).event = s.event := rfl

@[simp] theorem State.setRcv_busErr (s : State) (k : RcvNo) (r : RcvState) :
    (s.setRcv k r).busErr = s.busErr := rfl

@[simp] theorem State.setRcv_periodHeld (s : State) (k : RcvNo) (r : RcvState) :
    (s.setRcv k r).periodHeld = s.periodHeld := rfl

@[simp] theorem State.setRcv_abase (s : State) (k : RcvNo) (r : RcvState) :
    (s.setRcv k r).abase = s.abase := rfl

@[simp] theorem State.setRcv_awin (s : State) (k : RcvNo) (r : RcvState) :
    (s.setRcv k r).awin = s.awin := rfl

@[simp] theorem State.setRcv_faddr (s : State) (k : RcvNo) (r : RcvState) :
    (s.setRcv k r).faddr = s.faddr := rfl

@[simp] theorem State.setRcv_exch (s : State) (k : RcvNo) (r : RcvState) :
    (s.setRcv k r).exch = s.exch := rfl

@[simp] theorem State.setRcv_latchBase (s : State) (k : RcvNo) (r : RcvState) :
    (s.setRcv k r).latchBase = s.latchBase := rfl

@[simp] theorem State.setRcv_latchWin (s : State) (k : RcvNo) (r : RcvState) :
    (s.setRcv k r).latchWin = s.latchWin := rfl

@[simp] theorem State.setRcv_latchBig (s : State) (k : RcvNo) (r : RcvState) :
    (s.setRcv k r).latchBig = s.latchBig := rfl

@[simp] theorem State.setRcv_sweeping (s : State) (k : RcvNo) (r : RcvState) :
    (s.setRcv k r).sweeping = s.sweeping := rfl

@[simp] theorem State.setRcv_sweepAgain (s : State) (k : RcvNo) (r : RcvState) :
    (s.setRcv k r).sweepAgain = s.sweepAgain := rfl

@[simp] theorem State.setRcv_rewriteList (s : State) (k : RcvNo) (r : RcvState) :
    (s.setRcv k r).rewriteList = s.rewriteList := rfl

@[simp] theorem State.setRcv_rewriting (s : State) (k : RcvNo) (r : RcvState) :
    (s.setRcv k r).rewriting = s.rewriting := rfl

@[simp] theorem State.setRcv_headerUpdate (s : State) (k : RcvNo) (r : RcvState) :
    (s.setRcv k r).headerUpdate = s.headerUpdate := rfl

@[simp] theorem State.setRcv_headerPending (s : State) (k : RcvNo) (r : RcvState) :
    (s.setRcv k r).headerPending = s.headerPending := rfl

@[simp] theorem State.setRcv_changeCount (s : State) (k : RcvNo) (r : RcvState) :
    (s.setRcv k r).changeCount = s.changeCount := rfl

@[simp] theorem State.setRcv_protocolErrors (s : State) (k : RcvNo) (r : RcvState) :
    (s.setRcv k r).protocolErrors = s.protocolErrors := rfl

@[simp] theorem State.setRcv_slots (s : State) (k : RcvNo) (r : RcvState) :
    (s.setRcv k r).slots = s.slots := rfl

@[simp] theorem State.setRcv_period (s : State) (k : RcvNo) (r : RcvState) :
    (s.setRcv k r).period = s.period := rfl

@[simp] theorem State.setRcv_periodCount (s : State) (k : RcvNo) (r : RcvState) :
    (s.setRcv k r).periodCount = s.periodCount := rfl

@[simp] theorem State.setRcv_periodEnd (s : State) (k : RcvNo) (r : RcvState) :
    (s.setRcv k r).periodEnd = s.periodEnd := rfl

@[simp] theorem State.setRcv_pollIn (s : State) (k : RcvNo) (r : RcvState) :
    (s.setRcv k r).pollIn = s.pollIn := rfl

@[simp] theorem State.setRcv_economy (s : State) (k : RcvNo) (r : RcvState) :
    (s.setRcv k r).economy = s.economy := rfl

@[simp] theorem State.setRcv_lines (s : State) (k : RcvNo) (r : RcvState) :
    (s.setRcv k r).lines = s.lines := rfl

@[simp] theorem State.setRcv_links (s : State) (k : RcvNo) (r : RcvState) :
    (s.setRcv k r).links = s.links := rfl

@[simp] theorem State.setRcv_waiting (s : State) (k : RcvNo) (r : RcvState) :
    (s.setRcv k r).waiting = s.waiting := rfl

@[simp] theorem State.setRcv_rotation (s : State) (k : RcvNo) (r : RcvState) :
    (s.setRcv k r).rotation = s.rotation := rfl

@[simp] theorem State.setRcv_profiles (s : State) (k : RcvNo) (r : RcvState) :
    (s.setRcv k r).profiles = s.profiles := rfl

@[simp] theorem State.setRcv_gen (s : State) (k : RcvNo) (r : RcvState) :
    (s.setRcv k r).gen = s.gen := rfl

@[simp] theorem State.setRcv_mem (s : State) (k : RcvNo) (r : RcvState) :
    (s.setRcv k r).mem = s.mem := rfl

@[simp] theorem State.setRcv_pending (s : State) (k : RcvNo) (r : RcvState) :
    (s.setRcv k r).pending = s.pending := rfl

/-! ### startListening -/

@[simp] theorem State.startListening_time (s : State) (k : RcvNo) (r : RcvState) :
    (s.startListening k r).time = s.time := rfl

@[simp] theorem State.startListening_ctrl (s : State) (k : RcvNo) (r : RcvState) :
    (s.startListening k r).ctrl = s.ctrl := rfl

@[simp] theorem State.startListening_event (s : State) (k : RcvNo) (r : RcvState) :
    (s.startListening k r).event = s.event := rfl

@[simp] theorem State.startListening_busErr (s : State) (k : RcvNo) (r : RcvState) :
    (s.startListening k r).busErr = s.busErr := rfl

@[simp] theorem State.startListening_periodHeld (s : State) (k : RcvNo) (r : RcvState) :
    (s.startListening k r).periodHeld = s.periodHeld := rfl

@[simp] theorem State.startListening_abase (s : State) (k : RcvNo) (r : RcvState) :
    (s.startListening k r).abase = s.abase := rfl

@[simp] theorem State.startListening_awin (s : State) (k : RcvNo) (r : RcvState) :
    (s.startListening k r).awin = s.awin := rfl

@[simp] theorem State.startListening_faddr (s : State) (k : RcvNo) (r : RcvState) :
    (s.startListening k r).faddr = s.faddr := rfl

@[simp] theorem State.startListening_exch (s : State) (k : RcvNo) (r : RcvState) :
    (s.startListening k r).exch = s.exch := rfl

@[simp] theorem State.startListening_latchBase (s : State) (k : RcvNo) (r : RcvState) :
    (s.startListening k r).latchBase = s.latchBase := rfl

@[simp] theorem State.startListening_latchWin (s : State) (k : RcvNo) (r : RcvState) :
    (s.startListening k r).latchWin = s.latchWin := rfl

@[simp] theorem State.startListening_latchBig (s : State) (k : RcvNo) (r : RcvState) :
    (s.startListening k r).latchBig = s.latchBig := rfl

@[simp] theorem State.startListening_sweeping (s : State) (k : RcvNo) (r : RcvState) :
    (s.startListening k r).sweeping = s.sweeping := rfl

@[simp] theorem State.startListening_sweepAgain (s : State) (k : RcvNo) (r : RcvState) :
    (s.startListening k r).sweepAgain = s.sweepAgain := rfl

@[simp] theorem State.startListening_rewriteList (s : State) (k : RcvNo) (r : RcvState) :
    (s.startListening k r).rewriteList = s.rewriteList := rfl

@[simp] theorem State.startListening_rewriting (s : State) (k : RcvNo) (r : RcvState) :
    (s.startListening k r).rewriting = s.rewriting := rfl

@[simp] theorem State.startListening_headerUpdate (s : State) (k : RcvNo) (r : RcvState) :
    (s.startListening k r).headerUpdate = s.headerUpdate := rfl

@[simp] theorem State.startListening_headerPending (s : State) (k : RcvNo) (r : RcvState) :
    (s.startListening k r).headerPending = s.headerPending := rfl

@[simp] theorem State.startListening_changeCount (s : State) (k : RcvNo) (r : RcvState) :
    (s.startListening k r).changeCount = s.changeCount := rfl

@[simp] theorem State.startListening_protocolErrors (s : State) (k : RcvNo) (r : RcvState) :
    (s.startListening k r).protocolErrors = s.protocolErrors := rfl

@[simp] theorem State.startListening_slots (s : State) (k : RcvNo) (r : RcvState) :
    (s.startListening k r).slots = s.slots := rfl

@[simp] theorem State.startListening_period (s : State) (k : RcvNo) (r : RcvState) :
    (s.startListening k r).period = s.period := rfl

@[simp] theorem State.startListening_periodCount (s : State) (k : RcvNo) (r : RcvState) :
    (s.startListening k r).periodCount = s.periodCount := rfl

@[simp] theorem State.startListening_periodEnd (s : State) (k : RcvNo) (r : RcvState) :
    (s.startListening k r).periodEnd = s.periodEnd := rfl

@[simp] theorem State.startListening_pollIn (s : State) (k : RcvNo) (r : RcvState) :
    (s.startListening k r).pollIn = s.pollIn := rfl

@[simp] theorem State.startListening_economy (s : State) (k : RcvNo) (r : RcvState) :
    (s.startListening k r).economy = s.economy := rfl

@[simp] theorem State.startListening_lines (s : State) (k : RcvNo) (r : RcvState) :
    (s.startListening k r).lines = s.lines := rfl

@[simp] theorem State.startListening_links (s : State) (k : RcvNo) (r : RcvState) :
    (s.startListening k r).links = s.links := rfl

@[simp] theorem State.startListening_waiting (s : State) (k : RcvNo) (r : RcvState) :
    (s.startListening k r).waiting = s.waiting := rfl

@[simp] theorem State.startListening_rotation (s : State) (k : RcvNo) (r : RcvState) :
    (s.startListening k r).rotation = s.rotation := rfl

@[simp] theorem State.startListening_profiles (s : State) (k : RcvNo) (r : RcvState) :
    (s.startListening k r).profiles = s.profiles := rfl

@[simp] theorem State.startListening_gen (s : State) (k : RcvNo) (r : RcvState) :
    (s.startListening k r).gen = s.gen := rfl

@[simp] theorem State.startListening_mem (s : State) (k : RcvNo) (r : RcvState) :
    (s.startListening k r).mem = s.mem := rfl

@[simp] theorem State.startListening_pending (s : State) (k : RcvNo) (r : RcvState) :
    (s.startListening k r).pending = s.pending := rfl

/-! ### setProfile -/

@[simp] theorem State.setProfile_time (s : State) (p : ProfNo) (e : ProfEntry) :
    (s.setProfile p e).time = s.time := rfl

@[simp] theorem State.setProfile_ctrl (s : State) (p : ProfNo) (e : ProfEntry) :
    (s.setProfile p e).ctrl = s.ctrl := rfl

@[simp] theorem State.setProfile_event (s : State) (p : ProfNo) (e : ProfEntry) :
    (s.setProfile p e).event = s.event := rfl

@[simp] theorem State.setProfile_busErr (s : State) (p : ProfNo) (e : ProfEntry) :
    (s.setProfile p e).busErr = s.busErr := rfl

@[simp] theorem State.setProfile_periodHeld (s : State) (p : ProfNo) (e : ProfEntry) :
    (s.setProfile p e).periodHeld = s.periodHeld := rfl

@[simp] theorem State.setProfile_abase (s : State) (p : ProfNo) (e : ProfEntry) :
    (s.setProfile p e).abase = s.abase := rfl

@[simp] theorem State.setProfile_awin (s : State) (p : ProfNo) (e : ProfEntry) :
    (s.setProfile p e).awin = s.awin := rfl

@[simp] theorem State.setProfile_faddr (s : State) (p : ProfNo) (e : ProfEntry) :
    (s.setProfile p e).faddr = s.faddr := rfl

@[simp] theorem State.setProfile_exch (s : State) (p : ProfNo) (e : ProfEntry) :
    (s.setProfile p e).exch = s.exch := rfl

@[simp] theorem State.setProfile_latchBase (s : State) (p : ProfNo) (e : ProfEntry) :
    (s.setProfile p e).latchBase = s.latchBase := rfl

@[simp] theorem State.setProfile_latchWin (s : State) (p : ProfNo) (e : ProfEntry) :
    (s.setProfile p e).latchWin = s.latchWin := rfl

@[simp] theorem State.setProfile_latchBig (s : State) (p : ProfNo) (e : ProfEntry) :
    (s.setProfile p e).latchBig = s.latchBig := rfl

@[simp] theorem State.setProfile_sweeping (s : State) (p : ProfNo) (e : ProfEntry) :
    (s.setProfile p e).sweeping = s.sweeping := rfl

@[simp] theorem State.setProfile_sweepAgain (s : State) (p : ProfNo) (e : ProfEntry) :
    (s.setProfile p e).sweepAgain = s.sweepAgain := rfl

@[simp] theorem State.setProfile_rewriteList (s : State) (p : ProfNo) (e : ProfEntry) :
    (s.setProfile p e).rewriteList = s.rewriteList := rfl

@[simp] theorem State.setProfile_rewriting (s : State) (p : ProfNo) (e : ProfEntry) :
    (s.setProfile p e).rewriting = s.rewriting := rfl

@[simp] theorem State.setProfile_headerUpdate (s : State) (p : ProfNo) (e : ProfEntry) :
    (s.setProfile p e).headerUpdate = s.headerUpdate := rfl

@[simp] theorem State.setProfile_headerPending (s : State) (p : ProfNo) (e : ProfEntry) :
    (s.setProfile p e).headerPending = s.headerPending := rfl

@[simp] theorem State.setProfile_changeCount (s : State) (p : ProfNo) (e : ProfEntry) :
    (s.setProfile p e).changeCount = s.changeCount := rfl

@[simp] theorem State.setProfile_protocolErrors (s : State) (p : ProfNo) (e : ProfEntry) :
    (s.setProfile p e).protocolErrors = s.protocolErrors := rfl

@[simp] theorem State.setProfile_slots (s : State) (p : ProfNo) (e : ProfEntry) :
    (s.setProfile p e).slots = s.slots := rfl

@[simp] theorem State.setProfile_period (s : State) (p : ProfNo) (e : ProfEntry) :
    (s.setProfile p e).period = s.period := rfl

@[simp] theorem State.setProfile_periodCount (s : State) (p : ProfNo) (e : ProfEntry) :
    (s.setProfile p e).periodCount = s.periodCount := rfl

@[simp] theorem State.setProfile_periodEnd (s : State) (p : ProfNo) (e : ProfEntry) :
    (s.setProfile p e).periodEnd = s.periodEnd := rfl

@[simp] theorem State.setProfile_pollIn (s : State) (p : ProfNo) (e : ProfEntry) :
    (s.setProfile p e).pollIn = s.pollIn := rfl

@[simp] theorem State.setProfile_economy (s : State) (p : ProfNo) (e : ProfEntry) :
    (s.setProfile p e).economy = s.economy := rfl

@[simp] theorem State.setProfile_lines (s : State) (p : ProfNo) (e : ProfEntry) :
    (s.setProfile p e).lines = s.lines := rfl

@[simp] theorem State.setProfile_links (s : State) (p : ProfNo) (e : ProfEntry) :
    (s.setProfile p e).links = s.links := rfl

@[simp] theorem State.setProfile_rcvs (s : State) (p : ProfNo) (e : ProfEntry) :
    (s.setProfile p e).rcvs = s.rcvs := rfl

@[simp] theorem State.setProfile_dets (s : State) (p : ProfNo) (e : ProfEntry) :
    (s.setProfile p e).dets = s.dets := rfl

@[simp] theorem State.setProfile_waiting (s : State) (p : ProfNo) (e : ProfEntry) :
    (s.setProfile p e).waiting = s.waiting := rfl

@[simp] theorem State.setProfile_rotation (s : State) (p : ProfNo) (e : ProfEntry) :
    (s.setProfile p e).rotation = s.rotation := rfl

@[simp] theorem State.setProfile_gen (s : State) (p : ProfNo) (e : ProfEntry) :
    (s.setProfile p e).gen = s.gen := rfl

@[simp] theorem State.setProfile_mem (s : State) (p : ProfNo) (e : ProfEntry) :
    (s.setProfile p e).mem = s.mem := rfl

@[simp] theorem State.setProfile_pending (s : State) (p : ProfNo) (e : ProfEntry) :
    (s.setProfile p e).pending = s.pending := rfl

/-! ### Records read after an update of another kind -/

@[simp] theorem State.link_modLine (s : State) (n : LineNo) (f : LineRec → LineRec) (m : LinkNo) :
    (s.modLine n f).link m = s.link m := rfl

@[simp] theorem State.slot_modLine (s : State) (n : LineNo) (f : LineRec → LineRec) (m : SlotNo) :
    (s.modLine n f).slot m = s.slot m := rfl

@[simp] theorem State.rcv_modLine (s : State) (n : LineNo) (f : LineRec → LineRec) (m : RcvNo) :
    (s.modLine n f).rcv m = s.rcv m := rfl

@[simp] theorem State.det_modLine (s : State) (n : LineNo) (f : LineRec → LineRec) (m : RcvNo) :
    (s.modLine n f).det m = s.det m := rfl

@[simp] theorem State.profile_modLine (s : State) (n : LineNo) (f : LineRec → LineRec) (m : ProfNo) :
    (s.modLine n f).profile m = s.profile m := rfl

@[simp] theorem State.line_modLink (s : State) (l : LinkNo) (f : LinkRec → LinkRec) (m : LineNo) :
    (s.modLink l f).line m = s.line m := rfl

@[simp] theorem State.slot_modLink (s : State) (l : LinkNo) (f : LinkRec → LinkRec) (m : SlotNo) :
    (s.modLink l f).slot m = s.slot m := rfl

@[simp] theorem State.rcv_modLink (s : State) (l : LinkNo) (f : LinkRec → LinkRec) (m : RcvNo) :
    (s.modLink l f).rcv m = s.rcv m := rfl

@[simp] theorem State.det_modLink (s : State) (l : LinkNo) (f : LinkRec → LinkRec) (m : RcvNo) :
    (s.modLink l f).det m = s.det m := rfl

@[simp] theorem State.profile_modLink (s : State) (l : LinkNo) (f : LinkRec → LinkRec) (m : ProfNo) :
    (s.modLink l f).profile m = s.profile m := rfl

@[simp] theorem State.line_modSlot (s : State) (k : SlotNo) (f : SlotRec → SlotRec) (m : LineNo) :
    (s.modSlot k f).line m = s.line m := rfl

@[simp] theorem State.link_modSlot (s : State) (k : SlotNo) (f : SlotRec → SlotRec) (m : LinkNo) :
    (s.modSlot k f).link m = s.link m := rfl

@[simp] theorem State.rcv_modSlot (s : State) (k : SlotNo) (f : SlotRec → SlotRec) (m : RcvNo) :
    (s.modSlot k f).rcv m = s.rcv m := rfl

@[simp] theorem State.det_modSlot (s : State) (k : SlotNo) (f : SlotRec → SlotRec) (m : RcvNo) :
    (s.modSlot k f).det m = s.det m := rfl

@[simp] theorem State.profile_modSlot (s : State) (k : SlotNo) (f : SlotRec → SlotRec) (m : ProfNo) :
    (s.modSlot k f).profile m = s.profile m := rfl

@[simp] theorem State.line_setDet (s : State) (k : RcvNo) (d : Det) (m : LineNo) :
    (s.setDet k d).line m = s.line m := rfl

@[simp] theorem State.link_setDet (s : State) (k : RcvNo) (d : Det) (m : LinkNo) :
    (s.setDet k d).link m = s.link m := rfl

@[simp] theorem State.slot_setDet (s : State) (k : RcvNo) (d : Det) (m : SlotNo) :
    (s.setDet k d).slot m = s.slot m := rfl

@[simp] theorem State.rcv_setDet (s : State) (k : RcvNo) (d : Det) (m : RcvNo) :
    (s.setDet k d).rcv m = s.rcv m := rfl

@[simp] theorem State.profile_setDet (s : State) (k : RcvNo) (d : Det) (m : ProfNo) :
    (s.setDet k d).profile m = s.profile m := rfl

@[simp] theorem State.line_setRcv (s : State) (k : RcvNo) (r : RcvState) (m : LineNo) :
    (s.setRcv k r).line m = s.line m := rfl

@[simp] theorem State.link_setRcv (s : State) (k : RcvNo) (r : RcvState) (m : LinkNo) :
    (s.setRcv k r).link m = s.link m := rfl

@[simp] theorem State.slot_setRcv (s : State) (k : RcvNo) (r : RcvState) (m : SlotNo) :
    (s.setRcv k r).slot m = s.slot m := rfl

@[simp] theorem State.profile_setRcv (s : State) (k : RcvNo) (r : RcvState) (m : ProfNo) :
    (s.setRcv k r).profile m = s.profile m := rfl

@[simp] theorem State.line_startListening (s : State) (k : RcvNo) (r : RcvState) (m : LineNo) :
    (s.startListening k r).line m = s.line m := rfl

@[simp] theorem State.link_startListening (s : State) (k : RcvNo) (r : RcvState) (m : LinkNo) :
    (s.startListening k r).link m = s.link m := rfl

@[simp] theorem State.slot_startListening (s : State) (k : RcvNo) (r : RcvState) (m : SlotNo) :
    (s.startListening k r).slot m = s.slot m := rfl

@[simp] theorem State.profile_startListening (s : State) (k : RcvNo) (r : RcvState) (m : ProfNo) :
    (s.startListening k r).profile m = s.profile m := rfl

@[simp] theorem State.line_setProfile (s : State) (p : ProfNo) (e : ProfEntry) (m : LineNo) :
    (s.setProfile p e).line m = s.line m := rfl

@[simp] theorem State.link_setProfile (s : State) (p : ProfNo) (e : ProfEntry) (m : LinkNo) :
    (s.setProfile p e).link m = s.link m := rfl

@[simp] theorem State.slot_setProfile (s : State) (p : ProfNo) (e : ProfEntry) (m : SlotNo) :
    (s.setProfile p e).slot m = s.slot m := rfl

@[simp] theorem State.rcv_setProfile (s : State) (p : ProfNo) (e : ProfEntry) (m : RcvNo) :
    (s.setProfile p e).rcv m = s.rcv m := rfl

@[simp] theorem State.det_setProfile (s : State) (p : ProfNo) (e : ProfEntry) (m : RcvNo) :
    (s.setProfile p e).det m = s.det m := rfl

/-! ### Records read after an update of their own kind -/

@[simp] theorem State.line_modLine_same (s : State) (n : LineNo) (f : LineRec → LineRec) :
    (s.modLine n f).line n = f (s.line n) := by
  simp [State.modLine, State.line]

theorem State.line_modLine_other (s : State) {n m : LineNo} (h : m ≠ n) (f : LineRec → LineRec) :
    (s.modLine n f).line m = s.line m := by
  have h' : n.1 ≠ m.1 := fun e => h (Fin.ext e.symm)
  simp [State.modLine, State.line, h']

theorem State.line_modLine_ite (s : State) (n m : LineNo) (f : LineRec → LineRec) :
    (s.modLine n f).line m = if m = n then f (s.line n) else s.line m := by
  by_cases h : m = n
  · subst h; simp
  · simp [h, State.line_modLine_other]

@[simp] theorem State.link_modLink_same (s : State) (n : LinkNo) (f : LinkRec → LinkRec) :
    (s.modLink n f).link n = f (s.link n) := by
  simp [State.modLink, State.link]

theorem State.link_modLink_other (s : State) {n m : LinkNo} (h : m ≠ n) (f : LinkRec → LinkRec) :
    (s.modLink n f).link m = s.link m := by
  have h' : n.1 ≠ m.1 := fun e => h (Fin.ext e.symm)
  simp [State.modLink, State.link, h']

theorem State.link_modLink_ite (s : State) (n m : LinkNo) (f : LinkRec → LinkRec) :
    (s.modLink n f).link m = if m = n then f (s.link n) else s.link m := by
  by_cases h : m = n
  · subst h; simp
  · simp [h, State.link_modLink_other]

@[simp] theorem State.slot_modSlot_same (s : State) (n : SlotNo) (f : SlotRec → SlotRec) :
    (s.modSlot n f).slot n = f (s.slot n) := by
  simp [State.modSlot, State.slot]

theorem State.slot_modSlot_other (s : State) {n m : SlotNo} (h : m ≠ n) (f : SlotRec → SlotRec) :
    (s.modSlot n f).slot m = s.slot m := by
  have h' : n.1 ≠ m.1 := fun e => h (Fin.ext e.symm)
  simp [State.modSlot, State.slot, h']

theorem State.slot_modSlot_ite (s : State) (n m : SlotNo) (f : SlotRec → SlotRec) :
    (s.modSlot n f).slot m = if m = n then f (s.slot n) else s.slot m := by
  by_cases h : m = n
  · subst h; simp
  · simp [h, State.slot_modSlot_other]

@[simp] theorem State.det_setDet_same (s : State) (n : RcvNo) (d : Det) :
    (s.setDet n d).det n = d := by
  simp [State.setDet, State.det]

theorem State.det_setDet_other (s : State) {n m : RcvNo} (h : m ≠ n) (d : Det) :
    (s.setDet n d).det m = s.det m := by
  have h' : n.1 ≠ m.1 := fun e => h (Fin.ext e.symm)
  simp [State.setDet, State.det, h']

theorem State.det_setDet_ite (s : State) (n m : RcvNo) (d : Det) :
    (s.setDet n d).det m = if m = n then d else s.det m := by
  by_cases h : m = n
  · subst h; simp
  · simp [h, State.det_setDet_other]

@[simp] theorem State.rcv_setRcv_same (s : State) (n : RcvNo) (r : RcvState) :
    (s.setRcv n r).rcv n = r := by
  simp [State.setRcv, State.rcv]

theorem State.rcv_setRcv_other (s : State) {n m : RcvNo} (h : m ≠ n) (r : RcvState) :
    (s.setRcv n r).rcv m = s.rcv m := by
  have h' : n.1 ≠ m.1 := fun e => h (Fin.ext e.symm)
  simp [State.setRcv, State.rcv, h']

theorem State.rcv_setRcv_ite (s : State) (n m : RcvNo) (r : RcvState) :
    (s.setRcv n r).rcv m = if m = n then r else s.rcv m := by
  by_cases h : m = n
  · subst h; simp
  · simp [h, State.rcv_setRcv_other]

@[simp] theorem State.det_setRcv_same (s : State) (n : RcvNo) (r : RcvState) :
    (s.setRcv n r).det n = Det.reset := by
  simp [State.setRcv, State.det]

theorem State.det_setRcv_other (s : State) {n m : RcvNo} (h : m ≠ n) (r : RcvState) :
    (s.setRcv n r).det m = s.det m := by
  have h' : n.1 ≠ m.1 := fun e => h (Fin.ext e.symm)
  simp [State.setRcv, State.det, h']

theorem State.det_setRcv_ite (s : State) (n m : RcvNo) (r : RcvState) :
    (s.setRcv n r).det m = if m = n then Det.reset else s.det m := by
  by_cases h : m = n
  · subst h; simp
  · simp [h, State.det_setRcv_other]

@[simp] theorem State.rcv_startListening_same (s : State) (n : RcvNo) (r : RcvState) :
    (s.startListening n r).rcv n = r := by
  simp [State.startListening, State.rcv]

theorem State.rcv_startListening_other (s : State) {n m : RcvNo} (h : m ≠ n) (r : RcvState) :
    (s.startListening n r).rcv m = s.rcv m := by
  have h' : n.1 ≠ m.1 := fun e => h (Fin.ext e.symm)
  simp [State.startListening, State.rcv, h']

theorem State.rcv_startListening_ite (s : State) (n m : RcvNo) (r : RcvState) :
    (s.startListening n r).rcv m = if m = n then r else s.rcv m := by
  by_cases h : m = n
  · subst h; simp
  · simp [h, State.rcv_startListening_other]

@[simp] theorem State.det_startListening_same (s : State) (n : RcvNo) (r : RcvState) :
    (s.startListening n r).det n = { state := .quiet, began := some s.time } := by
  simp [State.startListening, State.det]

theorem State.det_startListening_other (s : State) {n m : RcvNo} (h : m ≠ n) (r : RcvState) :
    (s.startListening n r).det m = s.det m := by
  have h' : n.1 ≠ m.1 := fun e => h (Fin.ext e.symm)
  simp [State.startListening, State.det, h']

theorem State.det_startListening_ite (s : State) (n m : RcvNo) (r : RcvState) :
    (s.startListening n r).det m = if m = n then { state := .quiet, began := some s.time } else s.det m := by
  by_cases h : m = n
  · subst h; simp
  · simp [h, State.det_startListening_other]

@[simp] theorem State.profile_setProfile_same (s : State) (n : ProfNo) (e : ProfEntry) :
    (s.setProfile n e).profile n = e := by
  simp [State.setProfile, State.profile]

theorem State.profile_setProfile_other (s : State) {n m : ProfNo} (h : m ≠ n) (e : ProfEntry) :
    (s.setProfile n e).profile m = s.profile m := by
  have h' : n.1 ≠ m.1 := fun e => h (Fin.ext e.symm)
  simp [State.setProfile, State.profile, h']

theorem State.profile_setProfile_ite (s : State) (n m : ProfNo) (e : ProfEntry) :
    (s.setProfile n e).profile m = if m = n then e else s.profile m := by
  by_cases h : m = n
  · subst h; simp
  · simp [h, State.profile_setProfile_other]

/-! ### Marks -/

/-- Marking an image sets that line's mark, lists the line while the exchange is RUNNING, and does no
more. -/
theorem markImage_eq (s : State) (n : LineNo) :
    markImage s n = { s.modLine n fun r => { r with changePending := true } with
      rewriteList := s.rewriteList ++ (if s.exch = .running ∧ n ∉ s.rewriteList then [n] else []) } := by
  by_cases h : s.exch = .running ∧ n ∉ s.rewriteList
  · simp [markImage, h]
  · rw [if_neg h, List.append_nil]; exact if_neg h

/-- A pace mark sets that line's mark, lists the line while the exchange is RUNNING, and does no more. -/
theorem markPace_eq (s : State) (n : LineNo) :
    markPace s n = { s.modLine n fun r => { r with pacePending := true } with
      rewriteList := s.rewriteList ++ (if s.exch = .running ∧ n ∉ s.rewriteList then [n] else []) } := by
  by_cases h : s.exch = .running ∧ n ∉ s.rewriteList
  · simp [markPace, h]
  · rw [if_neg h, List.append_nil]; exact if_neg h

/-- Two updates of one line are one. -/
theorem State.modLine_modLine (s : State) (n : LineNo) (f g : LineRec → LineRec) :
    (s.modLine n f).modLine n g = s.modLine n fun r => g (f r) := by
  simp [State.modLine, State.line]

/-- Setting a line's receiver field to what it holds does nothing; a change sets the field and the line's mark,
lists the line while the exchange is RUNNING, and does no more (R165). -/
theorem setReceiver_eq (s : State) (n : LineNo) (k : Option RcvNo) :
    setReceiver s n k = if (s.line n).receiver = k then s
      else { s.modLine n fun r => { r with receiver := k, changePending := true } with
        rewriteList := s.rewriteList ++ (if s.exch = .running ∧ n ∉ s.rewriteList then [n] else []) } := by
  unfold setReceiver
  split
  · rfl
  · rw [markImage_eq, State.modLine_modLine, State.modLine_exch, State.modLine_rewriteList]

/-- Each line after a line's receiver field is set: its own line's mark is set if the field changes, and no
other line changes. -/
theorem setReceiver_line (s : State) (n : LineNo) (k : Option RcvNo) (m : LineNo) :
    (setReceiver s n k).line m = if m = n then
        { s.line n with receiver := k,
                        changePending := (s.line n).changePending || decide ((s.line n).receiver ≠ k) }
      else s.line m := by
  rw [setReceiver_eq]
  by_cases h : (s.line n).receiver = k
  · subst h
    by_cases e : m = n
    · subst e; simp
    · simp [e]
  · rw [if_neg h]
    have e := State.line_modLine_ite s n m fun r => { r with receiver := k, changePending := true }
    refine Eq.trans (b := (s.modLine n fun r => { r with receiver := k, changePending := true }).line m)
      rfl (e.trans ?_)
    simp [h]

@[simp] theorem setReceiver_time (s : State) (n : LineNo) (k : Option RcvNo) :
    (setReceiver s n k).time = s.time := by
  rw [setReceiver_eq]; split <;> rfl

@[simp] theorem setReceiver_ctrl (s : State) (n : LineNo) (k : Option RcvNo) :
    (setReceiver s n k).ctrl = s.ctrl := by
  rw [setReceiver_eq]; split <;> rfl

@[simp] theorem setReceiver_event (s : State) (n : LineNo) (k : Option RcvNo) :
    (setReceiver s n k).event = s.event := by
  rw [setReceiver_eq]; split <;> rfl

@[simp] theorem setReceiver_busErr (s : State) (n : LineNo) (k : Option RcvNo) :
    (setReceiver s n k).busErr = s.busErr := by
  rw [setReceiver_eq]; split <;> rfl

@[simp] theorem setReceiver_periodHeld (s : State) (n : LineNo) (k : Option RcvNo) :
    (setReceiver s n k).periodHeld = s.periodHeld := by
  rw [setReceiver_eq]; split <;> rfl

@[simp] theorem setReceiver_abase (s : State) (n : LineNo) (k : Option RcvNo) :
    (setReceiver s n k).abase = s.abase := by
  rw [setReceiver_eq]; split <;> rfl

@[simp] theorem setReceiver_awin (s : State) (n : LineNo) (k : Option RcvNo) :
    (setReceiver s n k).awin = s.awin := by
  rw [setReceiver_eq]; split <;> rfl

@[simp] theorem setReceiver_faddr (s : State) (n : LineNo) (k : Option RcvNo) :
    (setReceiver s n k).faddr = s.faddr := by
  rw [setReceiver_eq]; split <;> rfl

@[simp] theorem setReceiver_exch (s : State) (n : LineNo) (k : Option RcvNo) :
    (setReceiver s n k).exch = s.exch := by
  rw [setReceiver_eq]; split <;> rfl

@[simp] theorem setReceiver_latchBase (s : State) (n : LineNo) (k : Option RcvNo) :
    (setReceiver s n k).latchBase = s.latchBase := by
  rw [setReceiver_eq]; split <;> rfl

@[simp] theorem setReceiver_latchWin (s : State) (n : LineNo) (k : Option RcvNo) :
    (setReceiver s n k).latchWin = s.latchWin := by
  rw [setReceiver_eq]; split <;> rfl

@[simp] theorem setReceiver_latchBig (s : State) (n : LineNo) (k : Option RcvNo) :
    (setReceiver s n k).latchBig = s.latchBig := by
  rw [setReceiver_eq]; split <;> rfl

@[simp] theorem setReceiver_sweeping (s : State) (n : LineNo) (k : Option RcvNo) :
    (setReceiver s n k).sweeping = s.sweeping := by
  rw [setReceiver_eq]; split <;> rfl

@[simp] theorem setReceiver_sweepAgain (s : State) (n : LineNo) (k : Option RcvNo) :
    (setReceiver s n k).sweepAgain = s.sweepAgain := by
  rw [setReceiver_eq]; split <;> rfl

@[simp] theorem setReceiver_rewriting (s : State) (n : LineNo) (k : Option RcvNo) :
    (setReceiver s n k).rewriting = s.rewriting := by
  rw [setReceiver_eq]; split <;> rfl

@[simp] theorem setReceiver_headerUpdate (s : State) (n : LineNo) (k : Option RcvNo) :
    (setReceiver s n k).headerUpdate = s.headerUpdate := by
  rw [setReceiver_eq]; split <;> rfl

@[simp] theorem setReceiver_headerPending (s : State) (n : LineNo) (k : Option RcvNo) :
    (setReceiver s n k).headerPending = s.headerPending := by
  rw [setReceiver_eq]; split <;> rfl

@[simp] theorem setReceiver_changeCount (s : State) (n : LineNo) (k : Option RcvNo) :
    (setReceiver s n k).changeCount = s.changeCount := by
  rw [setReceiver_eq]; split <;> rfl

@[simp] theorem setReceiver_protocolErrors (s : State) (n : LineNo) (k : Option RcvNo) :
    (setReceiver s n k).protocolErrors = s.protocolErrors := by
  rw [setReceiver_eq]; split <;> rfl

@[simp] theorem setReceiver_slots (s : State) (n : LineNo) (k : Option RcvNo) :
    (setReceiver s n k).slots = s.slots := by
  rw [setReceiver_eq]; split <;> rfl

@[simp] theorem setReceiver_period (s : State) (n : LineNo) (k : Option RcvNo) :
    (setReceiver s n k).period = s.period := by
  rw [setReceiver_eq]; split <;> rfl

@[simp] theorem setReceiver_periodCount (s : State) (n : LineNo) (k : Option RcvNo) :
    (setReceiver s n k).periodCount = s.periodCount := by
  rw [setReceiver_eq]; split <;> rfl

@[simp] theorem setReceiver_periodEnd (s : State) (n : LineNo) (k : Option RcvNo) :
    (setReceiver s n k).periodEnd = s.periodEnd := by
  rw [setReceiver_eq]; split <;> rfl

@[simp] theorem setReceiver_pollIn (s : State) (n : LineNo) (k : Option RcvNo) :
    (setReceiver s n k).pollIn = s.pollIn := by
  rw [setReceiver_eq]; split <;> rfl

@[simp] theorem setReceiver_economy (s : State) (n : LineNo) (k : Option RcvNo) :
    (setReceiver s n k).economy = s.economy := by
  rw [setReceiver_eq]; split <;> rfl

@[simp] theorem setReceiver_links (s : State) (n : LineNo) (k : Option RcvNo) :
    (setReceiver s n k).links = s.links := by
  rw [setReceiver_eq]; split <;> rfl

@[simp] theorem setReceiver_rcvs (s : State) (n : LineNo) (k : Option RcvNo) :
    (setReceiver s n k).rcvs = s.rcvs := by
  rw [setReceiver_eq]; split <;> rfl

@[simp] theorem setReceiver_dets (s : State) (n : LineNo) (k : Option RcvNo) :
    (setReceiver s n k).dets = s.dets := by
  rw [setReceiver_eq]; split <;> rfl

@[simp] theorem setReceiver_waiting (s : State) (n : LineNo) (k : Option RcvNo) :
    (setReceiver s n k).waiting = s.waiting := by
  rw [setReceiver_eq]; split <;> rfl

@[simp] theorem setReceiver_rotation (s : State) (n : LineNo) (k : Option RcvNo) :
    (setReceiver s n k).rotation = s.rotation := by
  rw [setReceiver_eq]; split <;> rfl

@[simp] theorem setReceiver_profiles (s : State) (n : LineNo) (k : Option RcvNo) :
    (setReceiver s n k).profiles = s.profiles := by
  rw [setReceiver_eq]; split <;> rfl

@[simp] theorem setReceiver_gen (s : State) (n : LineNo) (k : Option RcvNo) :
    (setReceiver s n k).gen = s.gen := by
  rw [setReceiver_eq]; split <;> rfl

@[simp] theorem setReceiver_mem (s : State) (n : LineNo) (k : Option RcvNo) :
    (setReceiver s n k).mem = s.mem := by
  rw [setReceiver_eq]; split <;> rfl

@[simp] theorem setReceiver_pending (s : State) (n : LineNo) (k : Option RcvNo) :
    (setReceiver s n k).pending = s.pending := by
  rw [setReceiver_eq]; split <;> rfl

end Sys2Proof.Machine
end

