-- ==== Sys2Proof/Laws/Engine.lean ====
section
/-! SUPPORT. What the operations of the blocks leave alone: each keeps the engine's part of the state, that
is time, registers, the exchange engine's fields, the profiles, the memory and the queue of commands. A
proof about a command cites the law of the operation that it calls. -/

namespace Sys2Proof.Machine

/-! ### Updates of the records -/

@[simp] theorem modLine_engine (s : State) (n : LineNo) (f : LineRec → LineRec) :
    (s.modLine n f).engine = s.engine := rfl

@[simp] theorem modLink_engine (s : State) (l : LinkNo) (f : LinkRec → LinkRec) :
    (s.modLink l f).engine = s.engine := rfl

@[simp] theorem modSlot_engine (s : State) (k : SlotNo) (f : SlotRec → SlotRec) :
    (s.modSlot k f).engine = s.engine := rfl

@[simp] theorem setRcv_engine (s : State) (k : RcvNo) (r : RcvState) :
    (s.setRcv k r).engine = s.engine := rfl

@[simp] theorem setDet_engine (s : State) (k : RcvNo) (d : Det) :
    (s.setDet k d).engine = s.engine := rfl

@[simp] theorem startListening_engine (s : State) (k : RcvNo) (r : RcvState) :
    (s.startListening k r).engine = s.engine := rfl

/-- An update of none but the records, the rewrite list, the waiting list, the rotation pointer, the
generator and the header's mark keeps the engine's part. -/
theorem engine_upd (s : State) (rl : List LineNo) (hp : Bool) (slots : Vector SlotRec 16)
    (lines : Vector LineRec 64) (links : Vector LinkRec 4) (rcvs : Vector RcvState 8)
    (dets : Vector Det 8) (w : List WaitEntry) (rot : RcvNo) (g : GenRec) :
    State.engine { s with rewriteList := rl, headerPending := hp, slots := slots, lines := lines,
                          links := links, rcvs := rcvs, dets := dets, waiting := w, rotation := rot,
                          gen := g } = s.engine := rfl

/-- A fold of steps that keep the engine's part keeps it. -/
theorem engine_foldl {α : Type} {f : State → α → State} (h : ∀ s x, (f s x).engine = s.engine)
    (l : List α) (s : State) : (l.foldl f s).engine = s.engine := by
  induction l generalizing s with
  | nil => rfl
  | cons x t ih => rw [List.foldl_cons, ih, h]

/-! ### Marks -/

@[simp] theorem markImage_engine (s : State) (n : LineNo) : (markImage s n).engine = s.engine := by
  rw [markImage_eq]; rfl

/-- Lines taken in turn keep the engine's part if the step of each does. -/
theorem eachLine_engine {f : State → LineNo → State} (h : ∀ s n, (f s n).engine = s.engine)
    (l : List LineNo) (s : State) : (eachLine f l s).engine = s.engine :=
  engine_foldl (fun s n => by split <;> simp only [markImage_engine, h]) _ _

@[simp] theorem markChanges_engine (a b : State) : (markChanges a b).engine = b.engine := by
  have h : (allLines.foldl (fun s n => if imageChanged a b n then markImage s n else s) b).engine = b.engine :=
    engine_foldl (fun s n => by split <;> simp only [markImage_engine]) _ _
  unfold markChanges
  split <;> exact h

/-! ### The end of an order -/

@[simp] theorem endOrder_engine (s : State) (k : SlotNo) (c : Completion) :
    (endOrder s k c).engine = s.engine := by
  unfold endOrder
  split <;> simp only [modSlot_engine]

@[simp] theorem finish_engine (s : State) (k : SlotNo) (o : OrderOutcome) (r : Reason) (d : List Nat) :
    (finish s k o r d).engine = s.engine := by
  simp only [finish, endOrder_engine]

@[simp] theorem refuse_engine (s : State) (k : SlotNo) (r : Reason) (d : List Nat) :
    (refuse s k r d).engine = s.engine := by
  simp only [refuse, finish_engine]

@[simp] theorem complete_engine (s : State) (k : SlotNo) (d : List Nat) :
    (complete s k d).engine = s.engine := by
  simp only [complete, finish_engine]

@[simp] theorem takeFlight_engine (s : State) (k : SlotNo) (f : Flight) :
    (takeFlight s k f).engine = s.engine := rfl

/-! ### Control queues -/

@[simp] theorem placeFrame_engine (s : State) (l : LinkNo) (f : Frame) :
    (placeFrame s l f).engine = s.engine := by
  unfold placeFrame
  split <;> simp only [modLink_engine]

@[simp] theorem withdrawFrame_engine (s : State) (l : LinkNo) (f : Frame) :
    (withdrawFrame s l f).engine = s.engine := rfl

@[simp] theorem placeTrim_engine (s : State) (n : LineNo) (range : TrimRange) (code : TrimCode) (o
    : TrimOwner) :
    (placeTrim s n range code o).engine = s.engine := by
  simp only [placeTrim, placeFrame_engine]

@[simp] theorem placeRelay_engine (s : State) (n : LineNo) (cfg : RelayCfg) (o : RelayOwner) :
    (placeRelay s n cfg o).engine = s.engine := by
  simp only [placeRelay, placeFrame_engine]

/-! ### Fault records -/

@[simp] theorem faultEvent_engine (s : State) (n : LineNo) (kind : Cls) :
    (faultEvent s n kind).engine = s.engine := rfl

@[simp] theorem restoreFault_engine (s : State) (n : LineNo) :
    (restoreFault s n).engine = s.engine := rfl

@[simp] theorem restoreMinor_engine (s : State) (n : LineNo) :
    (restoreMinor s n).engine = s.engine := rfl

@[simp] theorem updatePeak_engine (s : State) (n : LineNo) :
    (updatePeak s n).engine = s.engine := rfl

/-! ### The pool -/

@[simp] theorem removeWaiting_engine (s : State) (n : LineNo) :
    (removeWaiting s n).engine = s.engine := rfl

@[simp] theorem setReceiver_engine (s : State) (n : LineNo) (k : Option RcvNo) :
    (setReceiver s n k).engine = s.engine := by
  rw [setReceiver_eq]; split <;> rfl

@[simp] theorem modListen_engine (s : State) (t : SlotNo) (f : ListenCtx → ListenCtx) :
    (modListen s t f).engine = s.engine := rfl

@[simp] theorem grant_engine (s : State) (e : WaitEntry) (k : RcvNo) :
    (grant s e k).engine = s.engine := by
  unfold grant
  split <;> simp only [setRcv_engine, engine_upd, placeFrame_engine, setReceiver_engine, modListen_engine]

@[simp] theorem grantLoop_engine (k : Nat) (s : State) : (grantLoop k s).engine = s.engine := by
  induction k generalizing s with
  | zero => rfl
  | succ k ih =>
    unfold grantLoop
    split
    · rw [ih, grant_engine, engine_upd]
    · rfl

@[simp] theorem grantTest_engine (s : State) :
    (grantTest s).engine = s.engine := by
  simp only [grantTest, grantLoop_engine]

@[simp] theorem join_engine (s : State) (n : LineNo) :
    (join s n).engine = s.engine := by
  unfold join
  split <;> simp only [engine_upd, grantTest_engine]

@[simp] theorem releaseRcv_engine (s : State) (k : RcvNo) (out : Bool) :
    (releaseRcv s k out).engine = s.engine := by
  unfold releaseRcv
  repeat' first
    | simp only [setRcv_engine, placeFrame_engine, withdrawFrame_engine, setReceiver_engine]
    | split

@[simp] theorem release_engine (s : State) (k : RcvNo) :
    (release s k).engine = s.engine := by
  simp only [release, grantTest_engine, releaseRcv_engine]

@[simp] theorem finishListen_engine (s : State) (t : SlotNo) (o : OrderOutcome) (r : Reason) :
    (finishListen s t o r).engine = s.engine := by
  unfold finishListen
  split <;> simp only [finish_engine]

@[simp] theorem surrender_engine (s : State) (n : LineNo) :
    (surrender s n).engine = s.engine := by
  unfold surrender
  repeat' first | simp only [removeWaiting_engine, release_engine, finishListen_engine] | split

@[simp] theorem policyRelease_engine (s : State) (n : LineNo) :
    (policyRelease s n).engine = s.engine := by
  unfold policyRelease
  (repeat' split) <;> simp only [removeWaiting_engine, release_engine]

@[simp] theorem tapTaken_engine (s : State) (k : RcvNo) :
    (tapTaken s k).engine = s.engine := by
  unfold tapTaken
  split <;> simp only [setRcv_engine]

@[simp] theorem tapConnectAnswered_engine (s : State) (k : RcvNo) (ack : Bool) :
    (tapConnectAnswered s k ack).engine = s.engine := by
  unfold tapConnectAnswered
  (repeat' split) <;> simp only [setRcv_engine, engine_upd, placeFrame_engine, setReceiver_engine,
    grantTest_engine]

@[simp] theorem tapDisconnectAnswered_engine (s : State) (k : RcvNo) (ack : Bool) :
    (tapDisconnectAnswered s k ack).engine = s.engine := by
  unfold tapDisconnectAnswered
  (repeat' split) <;> simp only [setRcv_engine, grantTest_engine]

@[simp] theorem tapClearAnswered_engine (s : State) (l : LinkNo) (ack : Bool) :
    (tapClearAnswered s l ack).engine = s.engine := by
  rw [tapClearAnswered, grantTest_engine]
  exact engine_foldl (fun s k => by split <;> rfl) _ _

@[simp] theorem strandRcv_engine (l : LinkNo) (s : State) (k : RcvNo) :
    (strandRcv l s k).engine = s.engine := by
  unfold strandRcv
  (repeat' split) <;> simp only [setRcv_engine, setReceiver_engine]

@[simp] theorem strandAll_engine (s : State) (l : LinkNo) :
    (strandAll s l).engine = s.engine := by
  exact engine_foldl (fun s k => strandRcv_engine l s k) _ _

@[simp] theorem guardEnds_engine (s : State) (k : RcvNo) :
    (guardEnds s k).engine = s.engine := by
  unfold guardEnds
  (repeat' split) <;> simp only [startListening_engine]

@[simp] theorem orderListen_engine (s : State) (k : SlotNo) (o : OrderRead) :
    (orderListen s k o).engine = s.engine := by
  unfold orderListen
  repeat' first | simp only [engine_upd, refuse_engine, takeFlight_engine, grantTest_engine] | split

@[simp] theorem dropListen_engine (s : State) (t : SlotNo) :
    (dropListen s t).engine = s.engine := by
  unfold dropListen
  split <;> simp only [engine_upd, release_engine]

@[simp] theorem expireListen_engine (s : State) (t : SlotNo) :
    (expireListen s t).engine = s.engine := by
  unfold expireListen
  split <;> simp only [finishListen_engine, dropListen_engine]

@[simp] theorem abortListen_engine (s : State) (t : SlotNo) (r : Reason) :
    (abortListen s t r).engine = s.engine := by
  simp only [abortListen, finishListen_engine, dropListen_engine]

@[simp] theorem countDigit_engine (s : State) (k : RcvNo) :
    (countDigit s k).engine = s.engine := by
  unfold countDigit
  split <;> simp only [modListen_engine]

@[simp] theorem serviceOutBusy_engine (s : State) (k : RcvNo) (e : WaitEntry) :
    (serviceOutBusy s k e).engine = s.engine := by
  simp only [serviceOutBusy, engine_upd, grantTest_engine, releaseRcv_engine]

@[simp] theorem serviceOut_engine (s : State) (k : RcvNo) :
    (serviceOut s k).engine = s.engine := by
  unfold serviceOut
  split <;> simp only [setRcv_engine, serviceOutBusy_engine]

@[simp] theorem serviceIn_engine (s : State) (k : RcvNo) :
    (serviceIn s k).engine = s.engine := by
  unfold serviceIn
  split <;> simp only [setRcv_engine, grantTest_engine]

@[simp] theorem orderReceiverService_engine (s : State) (k : SlotNo) (o : OrderRead) :
    (orderReceiverService s k o).engine = s.engine := by
  unfold orderReceiverService
  repeat' first | simp only [refuse_engine, complete_engine, serviceOut_engine, serviceIn_engine] | split

/-! ### Supervision -/

@[simp] theorem setFull_engine (s : State) (n : LineNo) :
    (setFull s n).engine = s.engine := rfl

@[simp] theorem leaveCall_engine (s : State) (n : LineNo) (was : Sup) :
    (leaveCall s n was).engine = s.engine := by
  unfold leaveCall
  split <;> simp only [surrender_engine]

@[simp] theorem queueEntry_engine (s : State) (n : LineNo) (sym : Symbol) (src : Source) (p : Nat) :
    (queueEntry s n sym src p).engine = s.engine := rfl

@[simp] theorem completeDigit_engine (s : State) (n : LineNo) :
    (completeDigit s n).engine = s.engine := by
  unfold completeDigit
  repeat' first | simp only [modLine_engine, policyRelease_engine, queueEntry_engine] | split

@[simp] theorem enterOnHook_engine (s : State) (n : LineNo) :
    (enterOnHook s n).engine = s.engine := by
  unfold enterOnHook
  repeat' first | simp only [modLine_engine, faultEvent_engine, leaveCall_engine] | split

@[simp] theorem enterLockout_engine (s : State) (n : LineNo) :
    (enterLockout s n).engine = s.engine := by
  simp only [enterLockout, modLine_engine, leaveCall_engine]

@[simp] theorem enterFault_engine (s : State) (n : LineNo) (kind : Cls) :
    (enterFault s n kind).engine = s.engine := by
  simp only [enterFault, modLine_engine, faultEvent_engine, setFull_engine, leaveCall_engine]

@[simp] theorem enterUnsensed_engine (s : State) (n : LineNo) :
    (enterUnsensed s n).engine = s.engine := by
  simp only [enterUnsensed, modLine_engine, restoreFault_engine, setFull_engine, leaveCall_engine]

@[simp] theorem enterSettling_engine (s : State) (n : LineNo) :
    (enterSettling s n).engine = s.engine := by
  unfold enterSettling
  split <;> simp only [modLine_engine, restoreFault_engine, setFull_engine, leaveCall_engine,
    enterUnsensed_engine]

@[simp] theorem unschedule_engine (s : State) (n : LineNo) :
    (unschedule s n).engine = s.engine := rfl

@[simp] theorem parkLine_engine (s : State) (n : LineNo) :
    (parkLine s n).engine = s.engine := by
  simp only [parkLine, unschedule_engine, modLine_engine, restoreFault_engine, setFull_engine, leaveCall_engine]

@[simp] theorem suspendLine_engine (s : State) (n : LineNo) (sv : Service) :
    (suspendLine s n sv).engine = s.engine := rfl

@[simp] theorem releaseLine_engine (s : State) (n : LineNo) (toActive : Bool) :
    (releaseLine s n toActive).engine = s.engine := by
  unfold releaseLine
  split <;> simp only [unschedule_engine, modLine_engine, enterSettling_engine]

@[simp] theorem seize_engine (s : State) (n : LineNo) (a : Nat) :
    (seize s n a).engine = s.engine := by
  unfold seize
  repeat' first | simp only [modLine_engine, join_engine, setFull_engine] | split

@[simp] theorem flash_engine (s : State) (n : LineNo) :
    (flash s n).engine = s.engine := by
  unfold flash
  repeat' first | simp only [modLine_engine, join_engine, queueEntry_engine] | split

@[simp] theorem endBreak_engine (s : State) (n : LineNo) :
    (endBreak s n).engine = s.engine := rfl

@[simp] theorem judgeMake_engine (s : State) (n : LineNo) (m : Nat) :
    (judgeMake s n m).engine = s.engine := by
  unfold judgeMake
  repeat' first
    | simp only [modLine_engine, queueEntry_engine, completeDigit_engine, flash_engine, endBreak_engine]
    | split

@[simp] theorem startBreak_engine (s : State) (n : LineNo) (from_ : Ret) (a : Nat) :
    (startBreak s n from_ a).engine = s.engine := rfl

@[simp] theorem acceptInCall_engine (s : State) (n : LineNo) (from_ : Ret) (c : Cls) (a : Nat) :
    (acceptInCall s n from_ c a).engine = s.engine := by
  unfold acceptInCall
  (repeat' split) <;> simp only [enterFault_engine, startBreak_engine]

@[simp] theorem transition_engine (s : State) (n : LineNo) (c : Cls) (a : Nat) :
    (transition s n c a).engine = s.engine := by
  unfold transition
  (repeat' split) <;> simp only [modLine_engine, faultEvent_engine, restoreFault_engine, enterOnHook_engine,
    enterLockout_engine, enterFault_engine, seize_engine, judgeMake_engine, acceptInCall_engine]

@[simp] theorem lockoutOpen_engine (s : State) (n : LineNo) (old c : Cls) (a : Nat) :
    (lockoutOpen s n old c a).engine = s.engine := by
  unfold lockoutOpen
  split <;> simp only [modLine_engine]

@[simp] theorem takeAcceptance_engine (s : State) (n : LineNo) (old c : Cls) (a : Nat) :
    (takeAcceptance s n old c a).engine = s.engine := by
  unfold takeAcceptance
  repeat' first | simp only [restoreMinor_engine, transition_engine, lockoutOpen_engine] | split

@[simp] theorem dialEndTimesOut_engine (s : State) (n : LineNo) :
    (dialEndTimesOut s n).engine = s.engine := by
  unfold dialEndTimesOut
  repeat' first | simp only [modLine_engine, policyRelease_engine, completeDigit_engine] | split

@[simp] theorem limitsInBreak_engine (s : State) (n : LineNo) :
    (limitsInBreak s n).engine = s.engine := by
  unfold limitsInBreak
  repeat' first | simp only [completeDigit_engine, enterOnHook_engine, enterLockout_engine] | split

@[simp] theorem limitsInDialling_engine (s : State) (n : LineNo) :
    (limitsInDialling s n).engine = s.engine := by
  unfold limitsInDialling
  repeat' first | simp only [completeDigit_engine, dialEndTimesOut_engine] | split

@[simp] theorem testLimits_engine (s : State) (n : LineNo) :
    (testLimits s n).engine = s.engine := by
  unfold testLimits
  (repeat' split) <;> simp only [enterOnHook_engine, enterLockout_engine, limitsInBreak_engine,
    limitsInDialling_engine]

@[simp] theorem toneDigit_engine (s : State) (n : LineNo) (sym : Symbol) :
    (toneDigit s n sym).engine = s.engine := by
  unfold toneDigit
  split <;> simp only [modLine_engine, queueEntry_engine]

/-! ### Tone digits -/

@[simp] theorem deliver_engine (s : State) (k : RcvNo) (n : LineNo) (sym : Symbol) :
    (deliver s k n sym).engine = s.engine := by
  simp only [deliver, countDigit_engine, toneDigit_engine]

/-! ### The tone generator -/

@[simp] theorem silence_engine (s : State) :
    (silence s).engine = s.engine := rfl

@[simp] theorem takeTrace_engine (s : State) (k : SlotNo) (o : OrderRead) (n : LineNo) (w : WarbleRate) :
    (takeTrace s k o n w).engine = s.engine := by
  simp only [takeTrace, modLine_engine, engine_upd, takeFlight_engine, placeRelay_engine]

@[simp] theorem orderTrace_engine (s : State) (k : SlotNo) (o : OrderRead) :
    (orderTrace s k o).engine = s.engine := by
  unfold orderTrace
  (repeat' split) <;> simp only [refuse_engine, takeTrace_engine]

@[simp] theorem finishTrace_engine (s : State) (c : TraceCtx) (o : OrderOutcome) (r : Reason) (endCode
    : Nat) :
    (finishTrace s c o r endCode).engine = s.engine := by
  simp only [finishTrace, finish_engine]

@[simp] theorem endTrace_engine (s : State) (o : OrderOutcome) (r : Reason) (endCode : Nat) :
    (endTrace s o r endCode).engine = s.engine := by
  unfold endTrace
  (repeat' split) <;> simp only [engine_upd, placeRelay_engine, silence_engine, finishTrace_engine]

@[simp] theorem abortTraceOn_engine (s : State) (n : LineNo) (r : Reason) :
    (abortTraceOn s n r).engine = s.engine := by
  unfold abortTraceOn
  split <;> simp only [endTrace_engine]

@[simp] theorem removeTrace_engine (s : State) (c : TraceCtx) :
    (removeTrace s c).engine = s.engine := rfl

@[simp] theorem traceLinkLost_engine (s : State) (l : LinkNo) :
    (traceLinkLost s l).engine = s.engine := by
  unfold traceLinkLost
  (repeat' split) <;> simp only [finishTrace_engine, removeTrace_engine]

@[simp] theorem traceRelayAnswered_engine (s : State) (n : LineNo) (cfg : RelayCfg) (ack : Bool) :
    (traceRelayAnswered s n cfg ack).engine = s.engine := by
  unfold traceRelayAnswered
  (repeat' split) <;> simp only [engine_upd, endTrace_engine, removeTrace_engine]

@[simp] theorem traceExpires_engine (s : State) :
    (traceExpires s).engine = s.engine := by
  unfold traceExpires
  (repeat' split) <;> simp only [endTrace_engine]

@[simp] theorem warble_engine (s : State) :
    (warble s).engine = s.engine := by
  unfold warble
  (repeat' split) <;> simp only [engine_upd]

@[simp] theorem setCheckChannels_engine (s : State) (c : CheckCtx) :
    (setCheckChannels s c).engine = s.engine := by
  unfold setCheckChannels
  repeat' first | simp only [engine_upd] | split

@[simp] theorem takeCheck_engine (s : State) (k : SlotNo) (o : OrderRead) (j : RcvNo) (digits : List Symbol)
    (prior : Option OutReason) :
    (takeCheck s k o j digits prior).engine = s.engine := by
  simp only [takeCheck, startListening_engine, engine_upd, takeFlight_engine, setCheckChannels_engine]

@[simp] theorem orderReceiverCheck_engine (s : State) (k : SlotNo) (o : OrderRead) :
    (orderReceiverCheck s k o).engine = s.engine := by
  unfold orderReceiverCheck
  repeat' first | simp only [refuse_engine, takeCheck_engine] | split

@[simp] theorem closeCheck_engine (s : State) (c : CheckCtx) (r : RcvState) :
    (closeCheck s c r).engine = s.engine := by
  simp only [closeCheck, setRcv_engine, engine_upd, grantTest_engine, silence_engine]

@[simp] theorem finishCheck_engine (s : State) (c : CheckCtx) :
    (finishCheck s c).engine = s.engine := by
  simp only [finishCheck, complete_engine, closeCheck_engine]

@[simp] theorem abortCheck_engine (s : State) (r : Reason) :
    (abortCheck s r).engine = s.engine := by
  unfold abortCheck
  split <;> simp only [finish_engine, closeCheck_engine]

@[simp] theorem checkBlock_engine (s : State) (c : CheckCtx) (accepted : Option Symbol) :
    (checkBlock s c accepted).engine = s.engine := by
  unfold checkBlock
  repeat' first | simp only [engine_upd, setCheckChannels_engine, finishCheck_engine] | split

@[simp] theorem blockEnds_engine (s : State) (k : RcvNo) (v : BlockLevels) :
    (blockEnds s k v).engine = s.engine := by
  unfold blockEnds
  repeat' first | simp only [setDet_engine, deliver_engine, checkBlock_engine] | split

/-! ### The line test unit -/

@[simp] theorem modTest_engine (s : State) (l : LinkNo) (f : TestCtx → TestCtx) :
    (modTest s l f).engine = s.engine := rfl

@[simp] theorem startPhase_engine (s : State) (c : TestCtx) (phase : Nat) :
    (startPhase s c phase).engine = s.engine := by
  simp only [startPhase, modLink_engine, placeRelay_engine]

@[simp] theorem takeTest_engine (s : State) (k : SlotNo) (o : OrderRead) (n : LineNo) :
    (takeTest s k o n).engine = s.engine := by
  simp only [takeTest, takeFlight_engine, suspendLine_engine, startPhase_engine]

@[simp] theorem orderInsulationTest_engine (s : State) (k : SlotNo) (o : OrderRead) :
    (orderInsulationTest s k o).engine = s.engine := by
  unfold orderInsulationTest
  (repeat' split) <;> simp only [refuse_engine, takeTest_engine]

@[simp] theorem completeTest_engine (s : State) (c : TestCtx) (v : Verdict) (o : OrderOutcome) (r : Reason)
    :
    (completeTest s c v o r).engine = s.engine := by
  simp only [completeTest, endOrder_engine]

@[simp] theorem endTest_engine (s : State) (c : TestCtx) (v : Verdict) (o : OrderOutcome) (r : Reason) :
    (endTest s c v o r).engine = s.engine := by
  simp only [endTest, modLink_engine, placeRelay_engine, completeTest_engine]

@[simp] theorem abortTest_engine (s : State) (l : LinkNo) (r : Reason) :
    (abortTest s l r).engine = s.engine := by
  unfold abortTest
  (repeat' split) <;> simp only [endTest_engine]

@[simp] theorem removeTest_engine (s : State) (l : LinkNo) (c : TestCtx) :
    (removeTest s l c).engine = s.engine := by
  simp only [removeTest, modLink_engine, releaseLine_engine]

@[simp] theorem testLinkLost_engine (s : State) (l : LinkNo) :
    (testLinkLost s l).engine = s.engine := by
  unfold testLinkLost
  (repeat' split) <;> simp only [completeTest_engine, removeTest_engine]

@[simp] theorem testRelayAnswered_engine (s : State) (n : LineNo) (cfg : RelayCfg) (ack : Bool) :
    (testRelayAnswered s n cfg ack).engine = s.engine := by
  unfold testRelayAnswered
  (repeat' split) <;> simp only [modTest_engine, endTest_engine, removeTest_engine]

@[simp] theorem phaseEnds_engine (s : State) (c : TestCtx) :
    (phaseEnds s c).engine = s.engine := by
  unfold phaseEnds
  repeat' first | simp only [startPhase_engine, endTest_engine] | split

@[simp] theorem testCounts_engine (s : State) (l : LinkNo) (c : TestCtx) (x : Sample) :
    (testCounts s l c x).engine = s.engine := by
  unfold testCounts
  repeat' first | simp only [modTest_engine, phaseEnds_engine] | split

@[simp] theorem testScan_engine (s : State) (n : LineNo) (out : ScanOutcome) :
    (testScan s n out).engine = s.engine := by
  unfold testScan
  (repeat' split) <;> simp only [modTest_engine, testCounts_engine]

@[simp] theorem assignTesting_engine (s : State) (n : LineNo) (toActive : Bool) :
    (assignTesting s n toActive).engine = s.engine := by
  unfold assignTesting
  repeat' first | simp only [modTest_engine, abortTest_engine] | split

/-! ### Calibration -/

@[simp] theorem modCal_engine (s : State) (n : LineNo) (f : CalCtx → CalCtx) :
    (modCal s n f).engine = s.engine := rfl

@[simp] theorem lineFinished_engine (s : State) (k : SlotNo) (f : Tally → Tally) (o : OrderOutcome) (r
    : Reason) :
    (lineFinished s k f o r).engine = s.engine := by
  unfold lineFinished
  repeat' first | simp only [modSlot_engine, finish_engine] | split

@[simp] theorem markRecord_engine (s : State) (n : LineNo) (c : CalCtx) (st : CalStatus) :
    (markRecord s n c st).engine = s.engine := rfl

@[simp] theorem restoreTrim_engine (s : State) (n : LineNo) :
    (restoreTrim s n).engine = s.engine := by
  simp only [restoreTrim, placeTrim_engine]

@[simp] theorem toRestoring_engine (s : State) (n : LineNo) :
    (toRestoring s n).engine = s.engine := rfl

@[simp] theorem failLine_engine (s : State) (n : LineNo) (c : CalCtx) (cause : FailCause) :
    (failLine s n c cause).engine = s.engine := by
  simp only [failLine, placeRelay_engine, lineFinished_engine, markRecord_engine, restoreTrim_engine,
    toRestoring_engine]

@[simp] theorem abortLine_engine (s : State) (n : LineNo) (cause : IntCause) (o : OrderOutcome) (r : Reason)
    :
    (abortLine s n cause o r).engine = s.engine := by
  unfold abortLine
  (repeat' split) <;> simp only [placeRelay_engine, lineFinished_engine, markRecord_engine,
    restoreTrim_engine, toRestoring_engine]

@[simp] theorem abortCalibrate_engine (s : State) (k : SlotNo) (cause : IntCause) (r : Reason) :
    (abortCalibrate s k cause r).engine = s.engine := by
  exact engine_foldl (fun s n => by split <;> simp only [abortLine_engine]) _ _

@[simp] theorem removeCal_engine (s : State) (n : LineNo) (c : CalCtx) :
    (removeCal s n c).engine = s.engine := by
  simp only [removeCal, modLine_engine, releaseLine_engine]

@[simp] theorem calLinkLost_engine (s : State) (n : LineNo) :
    (calLinkLost s n).engine = s.engine := by
  unfold calLinkLost
  (repeat' split) <;> simp only [lineFinished_engine, markRecord_engine, removeCal_engine]

@[simp] theorem takeLine_engine (k : SlotNo) (o : OrderRead) (s : State) (n : LineNo) :
    (takeLine k o s n).engine = s.engine := by
  simp only [takeLine, modLine_engine, placeTrim_engine, placeRelay_engine, suspendLine_engine]

@[simp] theorem orderCalibrate_engine (s : State) (k : SlotNo) (o : OrderRead) :
    (orderCalibrate s k o).engine = s.engine := by
  unfold orderCalibrate
  dsimp only
  split
  · exact refuse_engine ..
  · split
    · exact refuse_engine ..
    · split
      · exact refuse_engine ..
      · exact engine_foldl (takeLine_engine k o) _ _

@[simp] theorem startDecision_engine (s : State) (n : LineNo) (c : CalCtx) :
    (startDecision s n c).engine = s.engine := by
  simp only [startDecision, modLine_engine, placeTrim_engine]

@[simp] theorem rangeDecision_engine (s : State) (n : LineNo) (c : CalCtx) :
    (rangeDecision s n c).engine = s.engine := by
  unfold rangeDecision
  repeat' first | simp only [modLine_engine, failLine_engine, startDecision_engine] | split

@[simp] theorem bitDecision_engine (s : State) (n : LineNo) (c : CalCtx) :
    (bitDecision s n c).engine = s.engine := by
  unfold bitDecision
  split <;> simp only [modLine_engine, placeTrim_engine, placeRelay_engine, startDecision_engine]

@[simp] theorem decisionEnds_engine (s : State) (n : LineNo) (c : CalCtx) :
    (decisionEnds s n c).engine = s.engine := by
  unfold decisionEnds
  split <;> simp only [rangeDecision_engine, bitDecision_engine]

@[simp] theorem calCounts_engine (s : State) (n : LineNo) (c : CalCtx) (x : Sample) :
    (calCounts s n c x).engine = s.engine := by
  unfold calCounts
  repeat' first | simp only [modCal_engine, decisionEnds_engine] | split

@[simp] theorem calScan_engine (s : State) (n : LineNo) (out : ScanOutcome) :
    (calScan s n out).engine = s.engine := by
  unfold calScan
  (repeat' split) <;> simp only [calCounts_engine]

@[simp] theorem calRelayAnswered_engine (s : State) (n : LineNo) (cfg : RelayCfg) (ack : Bool) :
    (calRelayAnswered s n cfg ack).engine = s.engine := by
  unfold calRelayAnswered
  (repeat' split) <;> simp only [modCal_engine, failLine_engine, removeCal_engine]

@[simp] theorem commitAnswered_engine (s : State) (n : LineNo) (c : CalCtx) (ack : Bool) :
    (commitAnswered s n c ack).engine = s.engine := by
  unfold commitAnswered
  split <;> simp only [modLine_engine, lineFinished_engine, markRecord_engine, restoreTrim_engine,
    toRestoring_engine]

@[simp] theorem calTrimAnswered_engine (s : State) (n : LineNo) (ack : Bool) :
    (calTrimAnswered s n ack).engine = s.engine := by
  unfold calTrimAnswered
  (repeat' split) <;> simp only [modCal_engine, failLine_engine, commitAnswered_engine]

@[simp] theorem recordTrimAnswered_engine (s : State) (n : LineNo) (ack : Bool) :
    (recordTrimAnswered s n ack).engine = s.engine := by
  unfold recordTrimAnswered
  split <;> simp only [modLine_engine]

@[simp] theorem orderSetTrim_engine (s : State) (k : SlotNo) (o : OrderRead) :
    (orderSetTrim s k o).engine = s.engine := by
  unfold orderSetTrim
  (repeat' split) <;> simp only [modLine_engine, refuse_engine, complete_engine, placeTrim_engine]

@[simp] theorem assignCalibrating_engine (s : State) (n : LineNo) (toActive : Bool) :
    (assignCalibrating s n toActive).engine = s.engine := by
  unfold assignCalibrating
  split <;> simp only [modCal_engine, abortLine_engine]

/-! ### Measurement -/

@[simp] theorem quietScan_engine (s : State) (n : LineNo) (raw : Cls) :
    (quietScan s n raw).engine = s.engine := by
  unfold quietScan
  (repeat' split) <;> simp only [modLine_engine, setFull_engine]

@[simp] theorem orderSurvey_engine (s : State) (k : SlotNo) (o : OrderRead) :
    (orderSurvey s k o).engine = s.engine := by
  unfold orderSurvey
  repeat' first | simp only [modLine_engine, refuse_engine, takeFlight_engine, setFull_engine] | split

@[simp] theorem completeSurvey_engine (s : State) (n : LineNo) (c : SurveyCtx) :
    (completeSurvey s n c).engine = s.engine := by
  simp only [completeSurvey, modLine_engine, endOrder_engine]

@[simp] theorem surveyScan_engine (s : State) (n : LineNo) (out : ScanOutcome) :
    (surveyScan s n out).engine = s.engine := by
  unfold surveyScan
  repeat' first | simp only [modLine_engine, completeSurvey_engine] | split

@[simp] theorem abortSurvey_engine (s : State) (n : LineNo) (r : Reason) :
    (abortSurvey s n r).engine = s.engine := by
  unfold abortSurvey
  split <;> simp only [modLine_engine, finish_engine]

@[simp] theorem scanMeasure_engine (s : State) (n : LineNo) (x : Sample) :
    (scanMeasure s n x).engine = s.engine := by
  simp only [scanMeasure, modLine_engine, updatePeak_engine, quietScan_engine]

@[simp] theorem scanAccept_engine (s : State) (n : LineNo) :
    (scanAccept s n).engine = s.engine := by
  unfold scanAccept
  repeat' first | simp only [modLine_engine, takeAcceptance_engine, abortTraceOn_engine] | split

@[simp] theorem scanFront_engine (s : State) (n : LineNo) (x : Sample) :
    (scanFront s n x).engine = s.engine := by
  simp only [scanFront, scanMeasure_engine, scanAccept_engine]

@[simp] theorem activeScan_engine (s : State) (n : LineNo) (x : Sample) :
    (activeScan s n x).engine = s.engine := by
  simp only [activeScan, testLimits_engine, surveyScan_engine, scanFront_engine]

@[simp] theorem startSurge_engine (s : State) (l : LinkNo) :
    (startSurge s l).engine = s.engine := rfl

@[simp] theorem surgeStep_engine (s : State) (l : LinkNo) (x : Sample) :
    (surgeStep s l x).engine = s.engine := by
  unfold surgeStep
  split <;> simp only [startSurge_engine]

@[simp] theorem routeScan_engine (s : State) (n : LineNo) (out : ScanOutcome) :
    (routeScan s n out).engine = s.engine := by
  unfold routeScan
  (repeat' split) <;> simp only [testScan_engine, calScan_engine, surveyScan_engine, activeScan_engine]

@[simp] theorem takeSample_engine (s : State) (n : LineNo) (x : Sample) :
    (takeSample s n x).engine = s.engine := by
  simp only [takeSample, surgeStep_engine, routeScan_engine]

@[simp] theorem missScan_engine (s : State) (n : LineNo) :
    (missScan s n).engine = s.engine := by
  simp only [missScan, routeScan_engine]

/-! ### Links -/

@[simp] theorem sendFrame_engine (s : State) (l : LinkNo) (f : Frame) :
    (sendFrame s l f).engine = s.engine := rfl

@[simp] theorem sendProbe_engine (s : State) (l : LinkNo) :
    (sendProbe s l).engine = s.engine := rfl

@[simp] theorem sendControl_engine (s : State) (l : LinkNo) (f : Frame) :
    (sendControl s l f).engine = s.engine := rfl

@[simp] theorem frameTaken_engine (s : State) (f : Frame) : (frameTaken s f).engine = s.engine := by
  cases f <;> first | rfl | exact tapTaken_engine s _

@[simp] theorem sendSample_engine (s : State) (l : LinkNo) :
    (sendSample s l).engine = s.engine := by
  unfold sendSample
  repeat' first | simp only [modLink_engine] | split

@[simp] theorem endControl_engine (s : State) (l : LinkNo) :
    (endControl s l).engine = s.engine := by
  simp only [endControl, modLink_engine, sendSample_engine]

@[simp] theorem advanceLink_engine (s : State) (l : LinkNo) :
    (advanceLink s l).engine = s.engine := by
  unfold advanceLink
  repeat' first
    | simp only [modLink_engine, sendControl_engine, endControl_engine, frameTaken_engine]
    | split

@[simp] theorem missUnsent_engine (s : State) (l : LinkNo) :
    (missUnsent s l).engine = s.engine := by
  exact engine_foldl (fun s p => missScan_engine s _) _ _

@[simp] theorem startLinkPeriod_engine (s : State) (l : LinkNo) :
    (startLinkPeriod s l).engine = s.engine := by
  unfold startLinkPeriod
  split <;> simp only [modLink_engine, advanceLink_engine, missUnsent_engine]

@[simp] theorem unsenseLine_engine (s : State) (n : LineNo) :
    (unsenseLine s n).engine = s.engine := by
  unfold unsenseLine
  split <;> simp only [enterUnsensed_engine]

@[simp] theorem linkLost_engine (s : State) (l : LinkNo) :
    (linkLost s l).engine = s.engine := by
  simp only [linkLost, engine_foldl setFull_engine,
    engine_foldl fun s n => abortSurvey_engine s n .linkLost,
    markChanges_engine, traceLinkLost_engine, testLinkLost_engine, eachLine_engine calLinkLost_engine, strandAll_engine,
    eachLine_engine unsenseLine_engine, modLink_engine]

@[simp] theorem endExchange_engine (s : State) (l : LinkNo) :
    (endExchange s l).engine = s.engine := rfl

@[simp] theorem raiseFailRun_engine (s : State) (l : LinkNo) :
    (raiseFailRun s l).engine = s.engine := by
  unfold raiseFailRun
  repeat' first | simp only [modLink_engine, advanceLink_engine, linkLost_engine] | split

@[simp] theorem frameTimedOut_engine (s : State) (l : LinkNo) (f : Frame) :
    (frameTimedOut s l f).engine = s.engine := by
  unfold frameTimedOut
  split <;> simp only [modLink_engine, missScan_engine]

@[simp] theorem timeOut_engine (s : State) (l : LinkNo) :
    (timeOut s l).engine = s.engine := by
  unfold timeOut
  repeat' first | simp only [endExchange_engine, raiseFailRun_engine, frameTimedOut_engine] | split

@[simp] theorem replyTaken_engine (s : State) (l : LinkNo) :
    (replyTaken s l).engine = s.engine := rfl

@[simp] theorem sampleAnswered_engine (s : State) (l : LinkNo) (p : PairNo) (x : Sample) :
    (sampleAnswered s l p x).engine = s.engine := by
  unfold sampleAnswered
  split <;> simp only [takeSample_engine, advanceLink_engine, replyTaken_engine]

@[simp] theorem trimOwner_engine (s : State) (n : LineNo) (o : TrimOwner) (ack : Bool) :
    (trimOwner s n o ack).engine = s.engine := by
  unfold trimOwner
  split <;> simp only [calTrimAnswered_engine, recordTrimAnswered_engine]

@[simp] theorem trimAnswered_engine (s : State) (l : LinkNo) (ack : Bool) :
    (trimAnswered s l ack).engine = s.engine := by
  unfold trimAnswered
  split <;> simp only [advanceLink_engine, replyTaken_engine, trimOwner_engine]

@[simp] theorem setRestored_engine (s : State) (l : LinkNo) (p : PairNo) :
    (setRestored s l p).engine = s.engine := rfl

@[simp] theorem relayOwner_engine (s : State) (n : LineNo) (cfg : RelayCfg) (o : RelayOwner) (ack : Bool) :
    (relayOwner s n cfg o ack).engine = s.engine := by
  unfold relayOwner
  split <;> simp only [traceRelayAnswered_engine, testRelayAnswered_engine, calRelayAnswered_engine]

@[simp] theorem relayAnswered_engine (s : State) (l : LinkNo) (ack : Bool) :
    (relayAnswered s l ack).engine = s.engine := by
  unfold relayAnswered
  split <;> simp only [advanceLink_engine, replyTaken_engine, setRestored_engine, relayOwner_engine]

@[simp] theorem connectAnswered_engine (s : State) (l : LinkNo) (ack : Bool) :
    (connectAnswered s l ack).engine = s.engine := by
  unfold connectAnswered
  split <;> simp only [tapConnectAnswered_engine, advanceLink_engine, replyTaken_engine]

@[simp] theorem disconnectAnswered_engine (s : State) (l : LinkNo) (ack : Bool) :
    (disconnectAnswered s l ack).engine = s.engine := by
  unfold disconnectAnswered
  split <;> simp only [tapDisconnectAnswered_engine, advanceLink_engine, replyTaken_engine]

@[simp] theorem clearAllAnswered_engine (s : State) (l : LinkNo) (ack : Bool) :
    (clearAllAnswered s l ack).engine = s.engine := by
  unfold clearAllAnswered
  split
  · simp only [tapClearAnswered_engine, advanceLink_engine, replyTaken_engine]
  · rfl

@[simp] theorem parkAbsent_engine (s : State) (n : LineNo) :
    (parkAbsent s n).engine = s.engine := by
  unfold parkAbsent
  split <;> simp only [parkLine_engine]

@[simp] theorem settleUnsensed_engine (s : State) (n : LineNo) :
    (settleUnsensed s n).engine = s.engine := by
  unfold settleUnsensed
  split <;> simp only [enterSettling_engine]

@[simp] theorem recordProbe_engine (s : State) (l : LinkNo) (count : Nat) (rev : Byte) :
    (recordProbe s l count rev).engine = s.engine := rfl

@[simp] theorem recoverLink_engine (s : State) (l : LinkNo) (count : Nat) (rev : Byte) :
    (recoverLink s l count rev).engine = s.engine := by
  simp only [recoverLink, eachLine_engine settleUnsensed_engine, eachLine_engine parkAbsent_engine,
    modLink_engine,
    recordProbe_engine]

@[simp] theorem probeWhileUp_engine (s : State) (l : LinkNo) (count : Nat) (rev : Byte) :
    (probeWhileUp s l count rev).engine = s.engine := by
  unfold probeWhileUp
  split <;> simp only [advanceLink_engine, linkLost_engine, recordProbe_engine]

@[simp] theorem probeAnswered_engine (s : State) (l : LinkNo) (count : Nat) (rev : Byte) :
    (probeAnswered s l count rev).engine = s.engine := by
  unfold probeAnswered
  repeat' first | simp only [replyTaken_engine, recoverLink_engine, probeWhileUp_engine] | split

@[simp] theorem probeTimerEnds_engine (s : State) (l : LinkNo) :
    (probeTimerEnds s l).engine = s.engine := by
  unfold probeTimerEnds
  repeat' first | simp only [sendProbe_engine] | split

@[simp] theorem idleEnds_engine (s : State) (l : LinkNo) :
    (idleEnds s l).engine = s.engine := by
  unfold idleEnds
  repeat' first | simp only [sendProbe_engine] | split

@[simp] theorem surgeEnds_engine (s : State) (l : LinkNo) :
    (surgeEnds s l).engine = s.engine := by
  unfold surgeEnds
  repeat' first | simp only [modLink_engine] | split

/-- The end of a surge hold changes the links alone. -/
theorem surgeEnds_frame (s : State) (l : LinkNo) : { surgeEnds s l with links := s.links } = s := by
  by_cases h : (s.link l).surgeOn ∧ Config.surgeMs ≤ elapsed s.time (s.link l).surgeTime
  · simp only [surgeEnds, if_pos h]; rfl
  · simp only [surgeEnds, if_neg h]

/-- The holds that end as a millisecond passes change the links alone. -/
theorem surgesPast_frame (s : State) : { surgesPast s with links := s.links } = s := by
  have h (ls : List LinkNo) : ∀ s : State, { ls.foldl surgeEnds s with links := s.links } = s := by
    induction ls with
    | nil => intro s; rfl
    | cons l ls ih =>
      intro s
      have h1 := ih (surgeEnds s l)
      have h2 := surgeEnds_frame s l
      calc { (ls.foldl surgeEnds (surgeEnds s l)) with links := s.links }
          = { { (ls.foldl surgeEnds (surgeEnds s l)) with links := (surgeEnds s l).links } with
              links := s.links } := rfl
        _ = { surgeEnds s l with links := s.links } := by rw [h1]
        _ = s := h2
  exact h allLinks s

/-- A level read lies from -64 to +6 dBm (R53). -/
theorem readLevel_bounds (p : Rat) : -64 ≤ readLevel p ∧ readLevel p ≤ 6 := by
  unfold readLevel
  omega

/-! ### ASSIGN and CLEAR FAULT -/

@[simp] theorem assignParked_engine (s : State) (n : LineNo) (active : Bool) :
    (assignParked s n active).engine = s.engine := by
  unfold assignParked
  split <;> simp only [unschedule_engine, modLine_engine, enterSettling_engine]

@[simp] theorem assignActive_engine (s : State) (n : LineNo) (active : Bool) :
    (assignActive s n active).engine = s.engine := by
  unfold assignActive
  split <;> simp only [parkLine_engine, abortSurvey_engine]

@[simp] theorem assignLine_engine (s : State) (n : LineNo) (p : ProfNo) (active : Bool) :
    (assignLine s n p active).engine = s.engine := by
  unfold assignLine
  repeat' first
    | simp only [modLine_engine, abortTraceOn_engine, assignTesting_engine, assignCalibrating_engine,
      assignParked_engine, assignActive_engine]
    | split

@[simp] theorem orderAssign_engine (s : State) (k : SlotNo) (o : OrderRead) :
    (orderAssign s k o).engine = s.engine := by
  unfold orderAssign
  repeat' first | simp only [refuse_engine, complete_engine, assignLine_engine] | split

@[simp] theorem economyLine_engine (s : State) (n : LineNo) :
    (economyLine s n).engine = s.engine := rfl

@[simp] theorem orderClearFault_engine (s : State) (k : SlotNo) (o : OrderRead) :
    (orderClearFault s k o).engine = s.engine := by
  unfold orderClearFault
  repeat' first | simp only [modLine_engine, refuse_engine, complete_engine] | split

@[simp] theorem resettle_engine (s : State) (n : LineNo) :
    (resettle s n).engine = s.engine := by
  unfold resettle
  split <;> simp only [enterSettling_engine]

/-! ### Ending the orders in flight -/

@[simp] theorem abortSlot_engine (s : State) (k : SlotNo) (r : Reason) (cause : IntCause) :
    (abortSlot s k r cause).engine = s.engine := by
  unfold abortSlot
  split <;> simp only [abortListen_engine, endTrace_engine, abortCheck_engine, abortTest_engine,
    abortCalibrate_engine, abortSurvey_engine]

@[simp] theorem abortAll_engine (s : State) (r : Reason) (cause : IntCause) :
    (abortAll s r cause).engine = s.engine := by
  exact engine_foldl (fun s k => abortSlot_engine s k r cause) _ _

end Sys2Proof.Machine
end

