-- ==== Sys2Proof/Laws/Lines.lean ====
section
/-! SUPPORT. What the operations do to lines other than the one they act on: at most their receiver field
changes, by the pool's releases and grants. -/

namespace Sys2Proof.Machine

/-- A line's record without its receiver field and the mark that a change of it sets. -/
def LineRec.noRcv (r : LineRec) : LineRec := { r with receiver := none, changePending := false }

/-- Records equal but for the receiver field and the mark agree in the sense of the claims. -/
theorem sameButReceiver_of_noRcv {a b : LineRec} (h : a.noRcv = b.noRcv) : sameButReceiver a b := by
  change a.noRcv.bare = b.noRcv.bare
  rw [h]

/-- Records equal but for the receiver field and the mark differ in those alone. -/
theorem eq_of_noRcv {a b : LineRec} (h : a.noRcv = b.noRcv) :
    a = { b with receiver := a.receiver, changePending := a.changePending } := by
  cases a; cases b; simp_all [LineRec.noRcv]

/-- An update that leaves the lines leaves each line. -/
theorem line_upd (s : State) (rl : List LineNo) (hp : Bool) (slots : Vector SlotRec 16)
    (links : Vector LinkRec 4) (rcvs : Vector RcvState 8) (dets : Vector Det 8) (w : List WaitEntry)
    (rot : RcvNo) (g : GenRec) (m : LineNo) :
    State.line { s with rewriteList := rl, headerPending := hp, slots := slots, links := links,
                        rcvs := rcvs, dets := dets, waiting := w, rotation := rot, gen := g } m
      = s.line m := rfl

/-- A fold of steps that keep every line but for its receiver keeps them so. -/
theorem noRcv_foldl {α : Type} {f : State → α → State} {m : LineNo}
    (h : ∀ s x, ((f s x).line m).noRcv = (s.line m).noRcv) (l : List α) (s : State) :
    ((l.foldl f s).line m).noRcv = (s.line m).noRcv := by
  induction l generalizing s with
  | nil => rfl
  | cons x t ih => rw [List.foldl_cons, ih, h]

/-! ### The end of an order -/

@[simp] theorem endOrder_noRcv (s : State) (k : SlotNo) (c : Completion) (q : LineNo) :
    ((endOrder s k c).line q).noRcv = (s.line q).noRcv := by
  unfold endOrder
  split <;> simp only [State.line_modSlot]

@[simp] theorem finish_noRcv (s : State) (k : SlotNo) (o : OrderOutcome) (r : Reason) (d : List Nat) (q
    : LineNo) :
    ((finish s k o r d).line q).noRcv = (s.line q).noRcv := by
  simp only [finish, endOrder_noRcv]

@[simp] theorem refuse_noRcv (s : State) (k : SlotNo) (r : Reason) (d : List Nat) (q : LineNo) :
    ((refuse s k r d).line q).noRcv = (s.line q).noRcv := by
  simp only [refuse, finish_noRcv]

@[simp] theorem complete_noRcv (s : State) (k : SlotNo) (d : List Nat) (q : LineNo) :
    ((complete s k d).line q).noRcv = (s.line q).noRcv := by
  simp only [complete, finish_noRcv]

@[simp] theorem takeFlight_noRcv (s : State) (k : SlotNo) (f : Flight) (q : LineNo) :
    ((takeFlight s k f).line q).noRcv = (s.line q).noRcv := rfl

/-! ### Control queues -/

@[simp] theorem placeFrame_noRcv (s : State) (l : LinkNo) (f : Frame) (q : LineNo) :
    ((placeFrame s l f).line q).noRcv = (s.line q).noRcv := by
  unfold placeFrame
  split <;> simp only [State.line_modLink]

@[simp] theorem withdrawFrame_noRcv (s : State) (l : LinkNo) (f : Frame) (q : LineNo) :
    ((withdrawFrame s l f).line q).noRcv = (s.line q).noRcv := rfl

@[simp] theorem placeTrim_noRcv (s : State) (n : LineNo) (range : TrimRange) (code : TrimCode) (o
    : TrimOwner) (q : LineNo) :
    ((placeTrim s n range code o).line q).noRcv = (s.line q).noRcv := by
  simp only [placeTrim, placeFrame_noRcv]

@[simp] theorem placeRelay_noRcv (s : State) (n : LineNo) (cfg : RelayCfg) (o : RelayOwner) (q : LineNo) :
    ((placeRelay s n cfg o).line q).noRcv = (s.line q).noRcv := by
  simp only [placeRelay, placeFrame_noRcv]

/-! ### Fault records -/

theorem faultEvent_noRcv (s : State) (n : LineNo) (kind : Cls) {q : LineNo} (h : q ≠ n) :
    ((faultEvent s n kind).line q).noRcv = (s.line q).noRcv := by
  simp only [faultEvent, State.line_modLine_other, ne_eq, h, not_false_eq_true]

theorem restoreFault_noRcv (s : State) (n : LineNo) {q : LineNo} (h : q ≠ n) :
    ((restoreFault s n).line q).noRcv = (s.line q).noRcv := by
  simp only [restoreFault, State.line_modLine_other, ne_eq, h, not_false_eq_true]

theorem restoreMinor_noRcv (s : State) (n : LineNo) {q : LineNo} (h : q ≠ n) :
    ((restoreMinor s n).line q).noRcv = (s.line q).noRcv := by
  simp only [restoreMinor, State.line_modLine_other, ne_eq, h, not_false_eq_true]

theorem updatePeak_noRcv (s : State) (n : LineNo) {q : LineNo} (h : q ≠ n) :
    ((updatePeak s n).line q).noRcv = (s.line q).noRcv := by
  simp only [updatePeak, State.line_modLine_other, ne_eq, h, not_false_eq_true]

/-! ### The pool: any line may lose or gain a receiver, and no more -/

@[simp] theorem removeWaiting_noRcv (s : State) (n : LineNo) (q : LineNo) :
    ((removeWaiting s n).line q).noRcv = (s.line q).noRcv := rfl

@[simp] theorem setReceiver_noRcv (s : State) (n : LineNo) (k : Option RcvNo) (m : LineNo) :
    ((setReceiver s n k).line m).noRcv = (s.line m).noRcv := by
  rw [setReceiver_line]
  split
  · next e => subst e; rfl
  · rfl

@[simp] theorem modListen_noRcv (s : State) (t : SlotNo) (f : ListenCtx → ListenCtx) (q : LineNo) :
    ((modListen s t f).line q).noRcv = (s.line q).noRcv := rfl

@[simp] theorem grant_noRcv (s : State) (e : WaitEntry) (k : RcvNo) (q : LineNo) :
    ((grant s e k).line q).noRcv = (s.line q).noRcv := by
  unfold grant
  split <;> simp only [State.line_setRcv, line_upd, placeFrame_noRcv, setReceiver_noRcv, modListen_noRcv]

@[simp] theorem grantLoop_noRcv (k : Nat) (s : State) (m : LineNo) :
    ((grantLoop k s).line m).noRcv = (s.line m).noRcv := by
  induction k generalizing s with
  | zero => rfl
  | succ k ih =>
    unfold grantLoop
    split
    · rw [ih, grant_noRcv, line_upd]
    · rfl

@[simp] theorem grantTest_noRcv (s : State) (q : LineNo) :
    ((grantTest s).line q).noRcv = (s.line q).noRcv := by
  simp only [grantTest, grantLoop_noRcv]

@[simp] theorem join_noRcv (s : State) (n : LineNo) (q : LineNo) :
    ((join s n).line q).noRcv = (s.line q).noRcv := by
  unfold join
  split <;> simp only [line_upd, grantTest_noRcv]

@[simp] theorem releaseRcv_noRcv (s : State) (k : RcvNo) (out : Bool) (q : LineNo) :
    ((releaseRcv s k out).line q).noRcv = (s.line q).noRcv := by
  unfold releaseRcv
  repeat' first
    | simp only [State.line_setRcv, placeFrame_noRcv, withdrawFrame_noRcv, setReceiver_noRcv]
    | split

@[simp] theorem release_noRcv (s : State) (k : RcvNo) (q : LineNo) :
    ((release s k).line q).noRcv = (s.line q).noRcv := by
  simp only [release, grantTest_noRcv, releaseRcv_noRcv]

@[simp] theorem finishListen_noRcv (s : State) (t : SlotNo) (o : OrderOutcome) (r : Reason) (q : LineNo) :
    ((finishListen s t o r).line q).noRcv = (s.line q).noRcv := by
  unfold finishListen
  split <;> simp only [finish_noRcv]

@[simp] theorem surrender_noRcv (s : State) (n : LineNo) (q : LineNo) :
    ((surrender s n).line q).noRcv = (s.line q).noRcv := by
  unfold surrender
  repeat' first | simp only [removeWaiting_noRcv, release_noRcv, finishListen_noRcv] | split

@[simp] theorem policyRelease_noRcv (s : State) (n : LineNo) (q : LineNo) :
    ((policyRelease s n).line q).noRcv = (s.line q).noRcv := by
  unfold policyRelease
  (repeat' split) <;> simp only [removeWaiting_noRcv, release_noRcv]

@[simp] theorem tapTaken_noRcv (s : State) (k : RcvNo) (q : LineNo) :
    ((tapTaken s k).line q).noRcv = (s.line q).noRcv := by
  unfold tapTaken
  split <;> simp only [State.line_setRcv]

@[simp] theorem tapConnectAnswered_noRcv (s : State) (k : RcvNo) (ack : Bool) (q : LineNo) :
    ((tapConnectAnswered s k ack).line q).noRcv = (s.line q).noRcv := by
  unfold tapConnectAnswered
  (repeat' split) <;> simp only [State.line_setRcv, line_upd, placeFrame_noRcv, setReceiver_noRcv,
    grantTest_noRcv]

@[simp] theorem tapDisconnectAnswered_noRcv (s : State) (k : RcvNo) (ack : Bool) (q : LineNo) :
    ((tapDisconnectAnswered s k ack).line q).noRcv = (s.line q).noRcv := by
  unfold tapDisconnectAnswered
  (repeat' split) <;> simp only [State.line_setRcv, grantTest_noRcv]

@[simp] theorem tapClearAnswered_noRcv (s : State) (l : LinkNo) (ack : Bool) (q : LineNo) :
    ((tapClearAnswered s l ack).line q).noRcv = (s.line q).noRcv := by
  rw [tapClearAnswered, grantTest_noRcv]
  exact noRcv_foldl (fun s k => by split <;> rfl) _ _

@[simp] theorem strandRcv_noRcv (l : LinkNo) (s : State) (k : RcvNo) (q : LineNo) :
    ((strandRcv l s k).line q).noRcv = (s.line q).noRcv := by
  unfold strandRcv
  (repeat' split) <;> simp only [State.line_setRcv, setReceiver_noRcv]

@[simp] theorem strandAll_noRcv (s : State) (l : LinkNo) (q : LineNo) :
    ((strandAll s l).line q).noRcv = (s.line q).noRcv := by
  exact noRcv_foldl (fun s k => strandRcv_noRcv l s k q) _ _

@[simp] theorem guardEnds_noRcv (s : State) (k : RcvNo) (q : LineNo) :
    ((guardEnds s k).line q).noRcv = (s.line q).noRcv := by
  unfold guardEnds
  (repeat' split) <;> simp only [State.line_startListening]

@[simp] theorem dropListen_noRcv (s : State) (t : SlotNo) (q : LineNo) :
    ((dropListen s t).line q).noRcv = (s.line q).noRcv := by
  unfold dropListen
  split <;> simp only [line_upd, release_noRcv]

@[simp] theorem expireListen_noRcv (s : State) (t : SlotNo) (q : LineNo) :
    ((expireListen s t).line q).noRcv = (s.line q).noRcv := by
  unfold expireListen
  split <;> simp only [finishListen_noRcv, dropListen_noRcv]

@[simp] theorem abortListen_noRcv (s : State) (t : SlotNo) (r : Reason) (q : LineNo) :
    ((abortListen s t r).line q).noRcv = (s.line q).noRcv := by
  simp only [abortListen, finishListen_noRcv, dropListen_noRcv]

@[simp] theorem countDigit_noRcv (s : State) (k : RcvNo) (q : LineNo) :
    ((countDigit s k).line q).noRcv = (s.line q).noRcv := by
  unfold countDigit
  split <;> simp only [modListen_noRcv]

@[simp] theorem serviceOutBusy_noRcv (s : State) (k : RcvNo) (e : WaitEntry) (q : LineNo) :
    ((serviceOutBusy s k e).line q).noRcv = (s.line q).noRcv := by
  simp only [serviceOutBusy, line_upd, grantTest_noRcv, releaseRcv_noRcv]

@[simp] theorem serviceOut_noRcv (s : State) (k : RcvNo) (q : LineNo) :
    ((serviceOut s k).line q).noRcv = (s.line q).noRcv := by
  unfold serviceOut
  split <;> simp only [State.line_setRcv, serviceOutBusy_noRcv]

@[simp] theorem serviceIn_noRcv (s : State) (k : RcvNo) (q : LineNo) :
    ((serviceIn s k).line q).noRcv = (s.line q).noRcv := by
  unfold serviceIn
  split <;> simp only [State.line_setRcv, grantTest_noRcv]

/-! ### Supervision -/

theorem setFull_noRcv (s : State) (n : LineNo) {q : LineNo} (h : q ≠ n) :
    ((setFull s n).line q).noRcv = (s.line q).noRcv := by
  simp only [setFull, State.line_modLine_other, ne_eq, h, not_false_eq_true]

@[simp] theorem leaveCall_noRcv (s : State) (n : LineNo) (was : Sup) (q : LineNo) :
    ((leaveCall s n was).line q).noRcv = (s.line q).noRcv := by
  unfold leaveCall
  split <;> simp only [surrender_noRcv]

theorem queueEntry_noRcv (s : State) (n : LineNo) (sym : Symbol) (src : Source) (p : Nat) {q : LineNo} (h
    : q ≠ n) :
    ((queueEntry s n sym src p).line q).noRcv = (s.line q).noRcv := by
  simp only [queueEntry, State.line_modLine_other, ne_eq, h, not_false_eq_true]

theorem completeDigit_noRcv (s : State) (n : LineNo) {q : LineNo} (h : q ≠ n) :
    ((completeDigit s n).line q).noRcv = (s.line q).noRcv := by
  unfold completeDigit
  repeat' first
    | simp only [State.line_modLine_other, policyRelease_noRcv, queueEntry_noRcv, ne_eq, h,
      not_false_eq_true]
    | split

theorem enterOnHook_noRcv (s : State) (n : LineNo) {q : LineNo} (h : q ≠ n) :
    ((enterOnHook s n).line q).noRcv = (s.line q).noRcv := by
  unfold enterOnHook
  repeat' first
    | simp only [State.line_modLine_other, faultEvent_noRcv, leaveCall_noRcv, ne_eq, h, not_false_eq_true]
    | split

theorem enterLockout_noRcv (s : State) (n : LineNo) {q : LineNo} (h : q ≠ n) :
    ((enterLockout s n).line q).noRcv = (s.line q).noRcv := by
  simp only [enterLockout, State.line_modLine_other, leaveCall_noRcv, ne_eq, h, not_false_eq_true]

theorem enterFault_noRcv (s : State) (n : LineNo) (kind : Cls) {q : LineNo} (h : q ≠ n) :
    ((enterFault s n kind).line q).noRcv = (s.line q).noRcv := by
  simp only [enterFault, State.line_modLine_other, faultEvent_noRcv, setFull_noRcv, leaveCall_noRcv, ne_eq,
    h, not_false_eq_true]

theorem enterUnsensed_noRcv (s : State) (n : LineNo) {q : LineNo} (h : q ≠ n) :
    ((enterUnsensed s n).line q).noRcv = (s.line q).noRcv := by
  simp only [enterUnsensed, State.line_modLine_other, restoreFault_noRcv, setFull_noRcv, leaveCall_noRcv,
    ne_eq, h, not_false_eq_true]

theorem enterSettling_noRcv (s : State) (n : LineNo) {q : LineNo} (h : q ≠ n) :
    ((enterSettling s n).line q).noRcv = (s.line q).noRcv := by
  unfold enterSettling
  split <;> simp only [State.line_modLine_other, restoreFault_noRcv, setFull_noRcv, leaveCall_noRcv,
    enterUnsensed_noRcv, ne_eq, h, not_false_eq_true]

@[simp] theorem unschedule_noRcv (s : State) (n q : LineNo) :
    ((unschedule s n).line q).noRcv = (s.line q).noRcv := rfl

theorem parkLine_noRcv (s : State) (n : LineNo) {q : LineNo} (h : q ≠ n) :
    ((parkLine s n).line q).noRcv = (s.line q).noRcv := by
  simp only [parkLine, unschedule_noRcv, State.line_modLine_other, restoreFault_noRcv, setFull_noRcv, leaveCall_noRcv, ne_eq,
    h, not_false_eq_true]

theorem suspendLine_noRcv (s : State) (n : LineNo) (sv : Service) {q : LineNo} (h : q ≠ n) :
    ((suspendLine s n sv).line q).noRcv = (s.line q).noRcv := by
  simp only [suspendLine, State.line_modLine_other, restoreFault_noRcv, setFull_noRcv, ne_eq, h,
    not_false_eq_true]

theorem releaseLine_noRcv (s : State) (n : LineNo) (toActive : Bool) {q : LineNo} (h : q ≠ n) :
    ((releaseLine s n toActive).line q).noRcv = (s.line q).noRcv := by
  unfold releaseLine
  split <;> simp only [unschedule_noRcv, State.line_modLine_other, enterSettling_noRcv, ne_eq, h, not_false_eq_true]

theorem seize_noRcv (s : State) (n : LineNo) (a : Nat) {q : LineNo} (h : q ≠ n) :
    ((seize s n a).line q).noRcv = (s.line q).noRcv := by
  unfold seize
  repeat' first
    | simp only [State.line_modLine_other, join_noRcv, setFull_noRcv, ne_eq, h, not_false_eq_true]
    | split

theorem flash_noRcv (s : State) (n : LineNo) {q : LineNo} (h : q ≠ n) :
    ((flash s n).line q).noRcv = (s.line q).noRcv := by
  unfold flash
  repeat' first
    | simp only [State.line_modLine_other, join_noRcv, queueEntry_noRcv, ne_eq, h, not_false_eq_true]
    | split

theorem endBreak_noRcv (s : State) (n : LineNo) {q : LineNo} (h : q ≠ n) :
    ((endBreak s n).line q).noRcv = (s.line q).noRcv := by
  simp only [endBreak, State.line_modLine_other, ne_eq, h, not_false_eq_true]

theorem judgeMake_noRcv (s : State) (n : LineNo) (m : Nat) {q : LineNo} (h : q ≠ n) :
    ((judgeMake s n m).line q).noRcv = (s.line q).noRcv := by
  unfold judgeMake
  repeat' first
    | simp only [State.line_modLine_other, queueEntry_noRcv, completeDigit_noRcv, flash_noRcv,
      endBreak_noRcv, ne_eq, h, not_false_eq_true]
    | split

theorem startBreak_noRcv (s : State) (n : LineNo) (from_ : Ret) (a : Nat) {q : LineNo} (h : q ≠ n) :
    ((startBreak s n from_ a).line q).noRcv = (s.line q).noRcv := by
  simp only [startBreak, State.line_modLine_other, ne_eq, h, not_false_eq_true]

theorem acceptInCall_noRcv (s : State) (n : LineNo) (from_ : Ret) (c : Cls) (a : Nat) {q : LineNo} (h
    : q ≠ n) :
    ((acceptInCall s n from_ c a).line q).noRcv = (s.line q).noRcv := by
  unfold acceptInCall
  (repeat' split) <;> simp only [enterFault_noRcv, startBreak_noRcv, ne_eq, h, not_false_eq_true]

theorem transition_noRcv (s : State) (n : LineNo) (c : Cls) (a : Nat) {q : LineNo} (h : q ≠ n) :
    ((transition s n c a).line q).noRcv = (s.line q).noRcv := by
  unfold transition
  (repeat' split) <;> simp only [State.line_modLine_other, faultEvent_noRcv, restoreFault_noRcv,
    enterOnHook_noRcv, enterLockout_noRcv, enterFault_noRcv, seize_noRcv, judgeMake_noRcv,
    acceptInCall_noRcv, ne_eq, h, not_false_eq_true]

theorem lockoutOpen_noRcv (s : State) (n : LineNo) (old c : Cls) (a : Nat) {q : LineNo} (h : q ≠ n) :
    ((lockoutOpen s n old c a).line q).noRcv = (s.line q).noRcv := by
  unfold lockoutOpen
  split <;> simp only [State.line_modLine_other, ne_eq, h, not_false_eq_true]

theorem takeAcceptance_noRcv (s : State) (n : LineNo) (old c : Cls) (a : Nat) {q : LineNo} (h : q ≠ n) :
    ((takeAcceptance s n old c a).line q).noRcv = (s.line q).noRcv := by
  unfold takeAcceptance
  repeat' first
    | simp only [restoreMinor_noRcv, transition_noRcv, lockoutOpen_noRcv, ne_eq, h, not_false_eq_true]
    | split

theorem dialEndTimesOut_noRcv (s : State) (n : LineNo) {q : LineNo} (h : q ≠ n) :
    ((dialEndTimesOut s n).line q).noRcv = (s.line q).noRcv := by
  unfold dialEndTimesOut
  repeat' first
    | simp only [State.line_modLine_other, policyRelease_noRcv, completeDigit_noRcv, ne_eq, h,
      not_false_eq_true]
    | split

theorem limitsInBreak_noRcv (s : State) (n : LineNo) {q : LineNo} (h : q ≠ n) :
    ((limitsInBreak s n).line q).noRcv = (s.line q).noRcv := by
  unfold limitsInBreak
  repeat' first
    | simp only [completeDigit_noRcv, enterOnHook_noRcv, enterLockout_noRcv, ne_eq, h, not_false_eq_true]
    | split

theorem limitsInDialling_noRcv (s : State) (n : LineNo) {q : LineNo} (h : q ≠ n) :
    ((limitsInDialling s n).line q).noRcv = (s.line q).noRcv := by
  unfold limitsInDialling
  repeat' first
    | simp only [completeDigit_noRcv, dialEndTimesOut_noRcv, ne_eq, h, not_false_eq_true]
    | split

theorem testLimits_noRcv (s : State) (n : LineNo) {q : LineNo} (h : q ≠ n) :
    ((testLimits s n).line q).noRcv = (s.line q).noRcv := by
  unfold testLimits
  (repeat' split) <;> simp only [enterOnHook_noRcv, enterLockout_noRcv, limitsInBreak_noRcv,
    limitsInDialling_noRcv, ne_eq, h, not_false_eq_true]

theorem toneDigit_noRcv (s : State) (n : LineNo) (sym : Symbol) {q : LineNo} (h : q ≠ n) :
    ((toneDigit s n sym).line q).noRcv = (s.line q).noRcv := by
  unfold toneDigit
  split <;> simp only [State.line_modLine_other, queueEntry_noRcv, ne_eq, h, not_false_eq_true]

/-! ### Tone digits -/

theorem deliver_noRcv (s : State) (k : RcvNo) (n : LineNo) (sym : Symbol) {q : LineNo} (h : q ≠ n) :
    ((deliver s k n sym).line q).noRcv = (s.line q).noRcv := by
  simp only [deliver, countDigit_noRcv, toneDigit_noRcv, ne_eq, h, not_false_eq_true]

/-! ### The tone generator -/

@[simp] theorem silence_noRcv (s : State) (q : LineNo) :
    ((silence s).line q).noRcv = (s.line q).noRcv := rfl

@[simp] theorem finishTrace_noRcv (s : State) (c : TraceCtx) (o : OrderOutcome) (r : Reason) (endCode : Nat)
    (q : LineNo) :
    ((finishTrace s c o r endCode).line q).noRcv = (s.line q).noRcv := by
  simp only [finishTrace, finish_noRcv]

@[simp] theorem endTrace_noRcv (s : State) (o : OrderOutcome) (r : Reason) (endCode : Nat) (q : LineNo) :
    ((endTrace s o r endCode).line q).noRcv = (s.line q).noRcv := by
  unfold endTrace
  (repeat' split) <;> simp only [line_upd, placeRelay_noRcv, silence_noRcv, finishTrace_noRcv]

@[simp] theorem abortTraceOn_noRcv (s : State) (n : LineNo) (r : Reason) (q : LineNo) :
    ((abortTraceOn s n r).line q).noRcv = (s.line q).noRcv := by
  unfold abortTraceOn
  split <;> simp only [endTrace_noRcv]

/-! ### The line test unit -/

@[simp] theorem modTest_noRcv (s : State) (l : LinkNo) (f : TestCtx → TestCtx) (q : LineNo) :
    ((modTest s l f).line q).noRcv = (s.line q).noRcv := rfl

@[simp] theorem startPhase_noRcv (s : State) (c : TestCtx) (phase : Nat) (q : LineNo) :
    ((startPhase s c phase).line q).noRcv = (s.line q).noRcv := by
  simp only [startPhase, State.line_modLink, placeRelay_noRcv]

@[simp] theorem completeTest_noRcv (s : State) (c : TestCtx) (v : Verdict) (o : OrderOutcome) (r : Reason)
    (q : LineNo) :
    ((completeTest s c v o r).line q).noRcv = (s.line q).noRcv := by
  simp only [completeTest, endOrder_noRcv]

@[simp] theorem endTest_noRcv (s : State) (c : TestCtx) (v : Verdict) (o : OrderOutcome) (r : Reason) (q
    : LineNo) :
    ((endTest s c v o r).line q).noRcv = (s.line q).noRcv := by
  simp only [endTest, State.line_modLink, placeRelay_noRcv, completeTest_noRcv]

@[simp] theorem abortTest_noRcv (s : State) (l : LinkNo) (r : Reason) (q : LineNo) :
    ((abortTest s l r).line q).noRcv = (s.line q).noRcv := by
  unfold abortTest
  (repeat' split) <;> simp only [endTest_noRcv]

@[simp] theorem phaseEnds_noRcv (s : State) (c : TestCtx) (q : LineNo) :
    ((phaseEnds s c).line q).noRcv = (s.line q).noRcv := by
  unfold phaseEnds
  repeat' first | simp only [startPhase_noRcv, endTest_noRcv] | split

@[simp] theorem testCounts_noRcv (s : State) (l : LinkNo) (c : TestCtx) (x : Sample) (q : LineNo) :
    ((testCounts s l c x).line q).noRcv = (s.line q).noRcv := by
  unfold testCounts
  repeat' first | simp only [modTest_noRcv, phaseEnds_noRcv] | split

@[simp] theorem testScan_noRcv (s : State) (n : LineNo) (out : ScanOutcome) (q : LineNo) :
    ((testScan s n out).line q).noRcv = (s.line q).noRcv := by
  unfold testScan
  (repeat' split) <;> simp only [modTest_noRcv, testCounts_noRcv]

/-! ### Calibration -/

theorem modCal_noRcv (s : State) (n : LineNo) (f : CalCtx → CalCtx) {q : LineNo} (h : q ≠ n) :
    ((modCal s n f).line q).noRcv = (s.line q).noRcv := by
  simp only [modCal, State.line_modLine_other, ne_eq, h, not_false_eq_true]

@[simp] theorem lineFinished_noRcv (s : State) (k : SlotNo) (f : Tally → Tally) (o : OrderOutcome) (r
    : Reason) (q : LineNo) :
    ((lineFinished s k f o r).line q).noRcv = (s.line q).noRcv := by
  unfold lineFinished
  repeat' first | simp only [State.line_modSlot, finish_noRcv] | split

theorem markRecord_noRcv (s : State) (n : LineNo) (c : CalCtx) (st : CalStatus) {q : LineNo} (h : q ≠ n) :
    ((markRecord s n c st).line q).noRcv = (s.line q).noRcv := by
  simp only [markRecord, State.line_modLine_other, ne_eq, h, not_false_eq_true]

@[simp] theorem restoreTrim_noRcv (s : State) (n : LineNo) (q : LineNo) :
    ((restoreTrim s n).line q).noRcv = (s.line q).noRcv := by
  simp only [restoreTrim, placeTrim_noRcv]

theorem toRestoring_noRcv (s : State) (n : LineNo) {q : LineNo} (h : q ≠ n) :
    ((toRestoring s n).line q).noRcv = (s.line q).noRcv := by
  simp only [toRestoring, modCal_noRcv, ne_eq, h, not_false_eq_true]

theorem failLine_noRcv (s : State) (n : LineNo) (c : CalCtx) (cause : FailCause) {q : LineNo} (h : q ≠ n) :
    ((failLine s n c cause).line q).noRcv = (s.line q).noRcv := by
  simp only [failLine, placeRelay_noRcv, lineFinished_noRcv, markRecord_noRcv, restoreTrim_noRcv,
    toRestoring_noRcv, ne_eq, h, not_false_eq_true]

theorem abortLine_noRcv (s : State) (n : LineNo) (cause : IntCause) (o : OrderOutcome) (r : Reason) {q
    : LineNo} (h : q ≠ n) :
    ((abortLine s n cause o r).line q).noRcv = (s.line q).noRcv := by
  unfold abortLine
  (repeat' split) <;> simp only [placeRelay_noRcv, lineFinished_noRcv, markRecord_noRcv, restoreTrim_noRcv,
    toRestoring_noRcv, ne_eq, h, not_false_eq_true]

theorem removeCal_noRcv (s : State) (n : LineNo) (c : CalCtx) {q : LineNo} (h : q ≠ n) :
    ((removeCal s n c).line q).noRcv = (s.line q).noRcv := by
  simp only [removeCal, State.line_modLine_other, releaseLine_noRcv, ne_eq, h, not_false_eq_true]

theorem startDecision_noRcv (s : State) (n : LineNo) (c : CalCtx) {q : LineNo} (h : q ≠ n) :
    ((startDecision s n c).line q).noRcv = (s.line q).noRcv := by
  simp only [startDecision, State.line_modLine_other, placeTrim_noRcv, ne_eq, h, not_false_eq_true]

theorem rangeDecision_noRcv (s : State) (n : LineNo) (c : CalCtx) {q : LineNo} (h : q ≠ n) :
    ((rangeDecision s n c).line q).noRcv = (s.line q).noRcv := by
  unfold rangeDecision
  repeat' first
    | simp only [State.line_modLine_other, failLine_noRcv, startDecision_noRcv, ne_eq, h, not_false_eq_true]
    | split

theorem bitDecision_noRcv (s : State) (n : LineNo) (c : CalCtx) {q : LineNo} (h : q ≠ n) :
    ((bitDecision s n c).line q).noRcv = (s.line q).noRcv := by
  unfold bitDecision
  split <;> simp only [State.line_modLine_other, placeTrim_noRcv, placeRelay_noRcv, startDecision_noRcv,
    ne_eq, h, not_false_eq_true]

theorem decisionEnds_noRcv (s : State) (n : LineNo) (c : CalCtx) {q : LineNo} (h : q ≠ n) :
    ((decisionEnds s n c).line q).noRcv = (s.line q).noRcv := by
  unfold decisionEnds
  split <;> simp only [rangeDecision_noRcv, bitDecision_noRcv, ne_eq, h, not_false_eq_true]

theorem calCounts_noRcv (s : State) (n : LineNo) (c : CalCtx) (x : Sample) {q : LineNo} (h : q ≠ n) :
    ((calCounts s n c x).line q).noRcv = (s.line q).noRcv := by
  unfold calCounts
  repeat' first | simp only [modCal_noRcv, decisionEnds_noRcv, ne_eq, h, not_false_eq_true] | split

theorem calScan_noRcv (s : State) (n : LineNo) (out : ScanOutcome) {q : LineNo} (h : q ≠ n) :
    ((calScan s n out).line q).noRcv = (s.line q).noRcv := by
  unfold calScan
  (repeat' split) <;> simp only [calCounts_noRcv, ne_eq, h, not_false_eq_true]

theorem calRelayAnswered_noRcv (s : State) (n : LineNo) (cfg : RelayCfg) (ack : Bool) {q : LineNo} (h
    : q ≠ n) :
    ((calRelayAnswered s n cfg ack).line q).noRcv = (s.line q).noRcv := by
  unfold calRelayAnswered
  (repeat' split) <;> simp only [modCal_noRcv, failLine_noRcv, removeCal_noRcv, ne_eq, h, not_false_eq_true]

theorem commitAnswered_noRcv (s : State) (n : LineNo) (c : CalCtx) (ack : Bool) {q : LineNo} (h : q ≠ n) :
    ((commitAnswered s n c ack).line q).noRcv = (s.line q).noRcv := by
  unfold commitAnswered
  split <;> simp only [State.line_modLine_other, lineFinished_noRcv, markRecord_noRcv, restoreTrim_noRcv,
    toRestoring_noRcv, ne_eq, h, not_false_eq_true]

theorem calTrimAnswered_noRcv (s : State) (n : LineNo) (ack : Bool) {q : LineNo} (h : q ≠ n) :
    ((calTrimAnswered s n ack).line q).noRcv = (s.line q).noRcv := by
  unfold calTrimAnswered
  (repeat' split) <;> simp only [modCal_noRcv, failLine_noRcv, commitAnswered_noRcv, ne_eq, h,
    not_false_eq_true]

theorem recordTrimAnswered_noRcv (s : State) (n : LineNo) (ack : Bool) {q : LineNo} (h : q ≠ n) :
    ((recordTrimAnswered s n ack).line q).noRcv = (s.line q).noRcv := by
  unfold recordTrimAnswered
  split <;> simp only [State.line_modLine_other, ne_eq, h, not_false_eq_true]

/-! ### Measurement -/

theorem quietScan_noRcv (s : State) (n : LineNo) (raw : Cls) {q : LineNo} (h : q ≠ n) :
    ((quietScan s n raw).line q).noRcv = (s.line q).noRcv := by
  unfold quietScan
  (repeat' split) <;> simp only [State.line_modLine_other, setFull_noRcv, ne_eq, h, not_false_eq_true]

theorem completeSurvey_noRcv (s : State) (n : LineNo) (c : SurveyCtx) {q : LineNo} (h : q ≠ n) :
    ((completeSurvey s n c).line q).noRcv = (s.line q).noRcv := by
  simp only [completeSurvey, State.line_modLine_other, endOrder_noRcv, ne_eq, h, not_false_eq_true]

theorem surveyScan_noRcv (s : State) (n : LineNo) (out : ScanOutcome) {q : LineNo} (h : q ≠ n) :
    ((surveyScan s n out).line q).noRcv = (s.line q).noRcv := by
  unfold surveyScan
  repeat' first
    | simp only [State.line_modLine_other, completeSurvey_noRcv, ne_eq, h, not_false_eq_true]
    | split

theorem abortSurvey_noRcv (s : State) (n : LineNo) (r : Reason) {q : LineNo} (h : q ≠ n) :
    ((abortSurvey s n r).line q).noRcv = (s.line q).noRcv := by
  unfold abortSurvey
  split <;> simp only [State.line_modLine_other, finish_noRcv, ne_eq, h, not_false_eq_true]

theorem scanMeasure_noRcv (s : State) (n : LineNo) (x : Sample) {q : LineNo} (h : q ≠ n) :
    ((scanMeasure s n x).line q).noRcv = (s.line q).noRcv := by
  simp only [scanMeasure, State.line_modLine_other, updatePeak_noRcv, quietScan_noRcv, ne_eq, h,
    not_false_eq_true]

theorem scanAccept_noRcv (s : State) (n : LineNo) {q : LineNo} (h : q ≠ n) :
    ((scanAccept s n).line q).noRcv = (s.line q).noRcv := by
  unfold scanAccept
  repeat' first
    | simp only [State.line_modLine_other, takeAcceptance_noRcv, abortTraceOn_noRcv, ne_eq, h,
      not_false_eq_true]
    | split

theorem scanFront_noRcv (s : State) (n : LineNo) (x : Sample) {q : LineNo} (h : q ≠ n) :
    ((scanFront s n x).line q).noRcv = (s.line q).noRcv := by
  simp only [scanFront, scanMeasure_noRcv, scanAccept_noRcv, ne_eq, h, not_false_eq_true]

theorem activeScan_noRcv (s : State) (n : LineNo) (x : Sample) {q : LineNo} (h : q ≠ n) :
    ((activeScan s n x).line q).noRcv = (s.line q).noRcv := by
  simp only [activeScan, testLimits_noRcv, surveyScan_noRcv, scanFront_noRcv, ne_eq, h, not_false_eq_true]

@[simp] theorem startSurge_noRcv (s : State) (l : LinkNo) (q : LineNo) :
    ((startSurge s l).line q).noRcv = (s.line q).noRcv := rfl

@[simp] theorem surgeStep_noRcv (s : State) (l : LinkNo) (x : Sample) (q : LineNo) :
    ((surgeStep s l x).line q).noRcv = (s.line q).noRcv := by
  unfold surgeStep
  split <;> simp only [startSurge_noRcv]

theorem routeScan_noRcv (s : State) (n : LineNo) (out : ScanOutcome) {q : LineNo} (h : q ≠ n) :
    ((routeScan s n out).line q).noRcv = (s.line q).noRcv := by
  unfold routeScan
  (repeat' split) <;> simp only [testScan_noRcv, calScan_noRcv, surveyScan_noRcv, activeScan_noRcv, ne_eq,
    h, not_false_eq_true]

theorem takeSample_noRcv (s : State) (n : LineNo) (x : Sample) {q : LineNo} (h : q ≠ n) :
    ((takeSample s n x).line q).noRcv = (s.line q).noRcv := by
  simp only [takeSample, surgeStep_noRcv, routeScan_noRcv, ne_eq, h, not_false_eq_true]

theorem missScan_noRcv (s : State) (n : LineNo) {q : LineNo} (h : q ≠ n) :
    ((missScan s n).line q).noRcv = (s.line q).noRcv := by
  simp only [missScan, routeScan_noRcv, ne_eq, h, not_false_eq_true]

end Sys2Proof.Machine
end

