-- ==== Sys2Proof/Laws/Lists.lean ====
section
/-! SUPPORT. The lists and numbers of the blocks: the control queue after a frame is placed (R140), the
waiting list after an entry joins (R70, R71), the digit queue after an entry completes (R158, R159), and
counters that stop at a bound. -/

namespace Sys2Proof.Machine

/-! ### Control queues -/

/-- Placing a frame replaces the queued frame of its key, or adds its key at the tail. -/
theorem queuePlace_keys (f : Frame) (l : List Frame) :
    (queuePlace f l).map keyOf
      = if keyOf f ∈ l.map keyOf then l.map keyOf else l.map keyOf ++ [keyOf f] := by
  induction l with
  | nil => simp [queuePlace]
  | cons g t ih =>
    by_cases h : keyOf g = keyOf f
    · simp [queuePlace, h]
    · have h' : ¬ keyOf f = keyOf g := fun e => h e.symm
      simp only [queuePlace, h, if_false, List.map_cons, ih, List.mem_cons, h', false_or]
      split <;> simp

/-- A placed frame is in the queue. -/
theorem mem_queuePlace (f : Frame) (l : List Frame) : f ∈ queuePlace f l := by
  induction l with
  | nil => simp [queuePlace]
  | cons g t ih =>
    unfold queuePlace
    split
    · exact List.mem_cons_self
    · exact List.mem_cons_of_mem _ ih

/-- Placing a frame brings no other frame into the queue. -/
theorem queuePlace_subset (f : Frame) (l : List Frame) : ∀ g ∈ queuePlace f l, g = f ∨ g ∈ l := by
  induction l with
  | nil => simp [queuePlace]
  | cons g t ih =>
    intro x hx
    unfold queuePlace at hx
    split at hx
    · rcases List.mem_cons.1 hx with h | h
      · exact .inl h
      · exact .inr (List.mem_cons_of_mem _ h)
    · rcases List.mem_cons.1 hx with h | h
      · exact .inr (h ▸ List.mem_cons_self)
      · exact (ih x h).imp id (List.mem_cons_of_mem _)

/-- A queue in order stays in order when a control frame is placed. -/
theorem queuePlace_nodup (f : Frame) (l : List Frame) (h : (l.map keyOf).Nodup) :
    ((queuePlace f l).map keyOf).Nodup := by
  rw [queuePlace_keys]
  split
  · exact h
  · next hf => exact List.nodup_append.2 ⟨h, by simp, fun a ha b hb => by
      rw [List.mem_singleton] at hb; exact fun e => hf (hb ▸ e ▸ ha)⟩

/-! ### The waiting list -/

/-- An entry that joins the tail of its class is the one entry more. -/
theorem insertTail_perm (e : WaitEntry) (l : List WaitEntry) : (insertTail e l).Perm (e :: l) := by
  unfold insertTail
  refine List.perm_middle.trans ?_
  rw [List.takeWhile_append_dropWhile]

/-- An entry that joins the head of its class is the one entry more. -/
theorem insertHead_perm (e : WaitEntry) (l : List WaitEntry) : (insertHead e l).Perm (e :: l) := by
  unfold insertHead
  refine List.perm_middle.trans ?_
  rw [List.takeWhile_append_dropWhile]

/-- What an ordered list drops at a falling test all fails it. -/
theorem dropWhile_all {l : List WaitEntry} (h : l.Pairwise fun a b => b.cls ≤ a.cls)
    {p : WaitEntry → Bool} (hp : ∀ a b : WaitEntry, b.cls ≤ a.cls → p b = true → p a = true) :
    ∀ x ∈ l.dropWhile p, p x = false := by
  induction l with
  | nil => simp
  | cons a t ih =>
    rw [List.pairwise_cons] at h
    intro x hx
    by_cases ha : p a = true
    · rw [List.dropWhile_cons_of_pos ha] at hx
      exact ih h.2 x hx
    · rw [List.dropWhile_cons_of_neg ha] at hx
      rcases List.mem_cons.1 hx with rfl | hx
      · simpa using ha
      · by_contra hc
        exact ha (hp a x (h.1 x hx) (by simpa using hc))

/-- Joining the tail of its class keeps class 1 before class 0. -/
theorem insertTail_ordered (e : WaitEntry) (l : List WaitEntry)
    (h : l.Pairwise fun a b => b.cls ≤ a.cls) :
    (insertTail e l).Pairwise fun a b => b.cls ≤ a.cls := by
  have hd := dropWhile_all h (p := fun x => decide (e.cls ≤ x.cls))
    (fun a b hab hb => by simp only [decide_eq_true_eq] at hb ⊢; exact le_trans hb hab)
  have hs := List.takeWhile_append_dropWhile (p := fun x => decide (e.cls ≤ x.cls)) (l := l)
  unfold insertTail
  rw [← hs, List.pairwise_append] at h
  refine List.pairwise_append.2 ⟨h.1, List.pairwise_cons.2 ⟨fun x hx => ?_, h.2.1⟩, fun a ha b hb => ?_⟩
  · have := hd x hx
    simp only [decide_eq_false_iff_not, not_le] at this
    exact le_of_lt this
  · rcases List.mem_cons.1 hb with rfl | hb
    · simpa using List.mem_takeWhile_imp ha
    · exact h.2.2 a ha b hb

/-- Joining the head of its class keeps class 1 before class 0. -/
theorem insertHead_ordered (e : WaitEntry) (l : List WaitEntry)
    (h : l.Pairwise fun a b => b.cls ≤ a.cls) :
    (insertHead e l).Pairwise fun a b => b.cls ≤ a.cls := by
  have hd := dropWhile_all h (p := fun x => decide (e.cls < x.cls))
    (fun a b hab hb => by simp only [decide_eq_true_eq] at hb ⊢; exact lt_of_lt_of_le hb hab)
  have hs := List.takeWhile_append_dropWhile (p := fun x => decide (e.cls < x.cls)) (l := l)
  unfold insertHead
  rw [← hs, List.pairwise_append] at h
  refine List.pairwise_append.2 ⟨h.1, List.pairwise_cons.2 ⟨fun x hx => ?_, h.2.1⟩, fun a ha b hb => ?_⟩
  · have := hd x hx
    simpa using this
  · rcases List.mem_cons.1 hb with rfl | hb
    · have := List.mem_takeWhile_imp ha
      simp only [decide_eq_true_eq] at this
      exact le_of_lt this
    · exact h.2.2 a ha b hb

/-! ### Digit entries -/

/-- While the queue has room a completed entry joins its tail, with the LOSS that was pending. -/
theorem pushEntry_room {r : LineRec} (h : r.queue.length < Config.queueMax) (sym : Symbol) (src : Source)
    (n : Nat) (t : Word) :
    pushEntry r sym src n t
      = { r with queue := r.queue ++ [{ symbol := sym, source := src, pulses := n, loss := r.lossPending,
                                        time := t }],
                 lossPending := false } :=
  if_neg (not_le.2 h)

/-- While the queue is full a completed entry is lost. -/
theorem pushEntry_full {r : LineRec} (h : Config.queueMax ≤ r.queue.length) (sym : Symbol) (src : Source)
    (n : Nat) (t : Word) :
    pushEntry r sym src n t
      = { r with lost := satInc Config.max16 r.lost, lossPending := true } :=
  if_pos h

/-- A completed entry never brings the queue above its 16 entries. -/
theorem pushEntry_length {r : LineRec} (h : r.queue.length ≤ Config.queueMax) (sym : Symbol) (src : Source)
    (n : Nat) (t : Word) : (pushEntry r sym src n t).queue.length ≤ Config.queueMax := by
  by_cases hf : Config.queueMax ≤ r.queue.length
  · rw [pushEntry_full hf]; exact h
  · rw [pushEntry_room (not_le.1 hf)]
    have := not_le.1 hf
    simp only [List.length_append, List.length_singleton]
    omega

/-! ### Counters -/

theorem satInc_le (max x : Nat) : satInc max x ≤ max := Nat.min_le_right _ _

/-- An accumulator in its range stays in it (R9). -/
theorem stepAcc_fits (seed : Bool) (k : Nat) (a : Int) (x : Code) (h : accFits a) :
    accFits (stepAcc seed k a x.toInt) := by
  have hx1 : x.toInt ≤ 2047 := by have := BitVec.toInt_lt (x := x); omega
  have hx2 : -2048 ≤ x.toInt := by have := BitVec.le_toInt (x := x); omega
  obtain ⟨h1, h2⟩ := h
  unfold accFits stepAcc
  split
  · omega
  · have hp : (0 : Int) < ((2 ^ k : Nat) : Int) := by positivity
    have hp1 : (1 : Int) ≤ ((2 ^ k : Nat) : Int) := by omega
    generalize ((2 ^ k : Nat) : Int) = p at hp hp1 ⊢
    rcases le_or_gt 0 (16 * x.toInt - a) with hd | hd
    · have := Int.ediv_nonneg hd hp.le
      have := Int.ediv_le_self p hd
      omega
    · have h0 : (16 * x.toInt - a) / p ≤ 0 := Int.ediv_nonpos_of_nonpos_of_neg hd.le (by omega)
      have h3 : 16 * x.toInt - a ≤ (16 * x.toInt - a) / p := by
        rw [Int.le_ediv_iff_mul_le hp]
        nlinarith
      omega

/-- A completion's detail has ten bytes. -/
@[simp] theorem detail_length (l : List Nat) : (detail l).length = 10 := by
  simp [detail]

end Sys2Proof.Machine
end

