-- ==== Sys2Proof/Laws/Marks.lean ====
section
/-! SUPPORT. What the pending marks do (R165, R167): marking a line sets its mark and may list it, and changes
nothing else; markChanges marks the lines whose images a step changed, and the header. -/

namespace Sys2Proof.Machine

/-! ### A list of lines -/

/-- Mark the lines of a list that a test picks. -/
theorem markLines_rest (p : LineNo → Bool) (l : List LineNo) (s : State) :
    let t := l.foldl (fun s n => if p n then markImage s n else s) s
    { t with lines := s.lines, rewriteList := s.rewriteList } = s := by
  induction l generalizing s with
  | nil => rfl
  | cons n l ih =>
    simp only [List.foldl_cons]
    have h := ih (if p n then markImage s n else s)
    by_cases hp : p n
    · simp only [hp, if_true, markImage_eq] at h ⊢
      generalize List.foldl _ _ _ = t at h ⊢
      cases t; cases s; simp_all [State.modLine]
    · simp only [hp, Bool.false_eq_true, if_false] at h ⊢
      exact h

/-- The mark of each line after a list of lines was marked. -/
theorem markLines_line (p : LineNo → Bool) (l : List LineNo) (s : State) (m : LineNo) :
    (l.foldl (fun s n => if p n then markImage s n else s) s).line m
      = { s.line m with changePending := (s.line m).changePending || (decide (m ∈ l) && p m) } := by
  induction l generalizing s with
  | nil => simp
  | cons n l ih =>
    rw [List.foldl_cons, ih]
    by_cases hp : p n
    · rw [if_pos hp, markImage_eq]
      have h : ({ s.modLine n fun r => { r with changePending := true } with
          rewriteList := s.rewriteList ++ (if s.exch = .running ∧ n ∉ s.rewriteList then [n] else []) }
          : State).line m = (s.modLine n fun r => { r with changePending := true }).line m := rfl
      rw [h, State.line_modLine_ite]
      by_cases hm : m = n
      · subst hm; simp [hp]
      · simp [hm]
    · rw [if_neg hp]
      by_cases hm : m = n
      · subst hm; simp [hp]
      · simp [hm]

/-- The rewrite list after a list of distinct lines was marked. -/
theorem markLines_rewriteList (p : LineNo → Bool) (l : List LineNo) (s : State) (hl : l.Nodup) :
    (l.foldl (fun s n => if p n then markImage s n else s) s).rewriteList
      = s.rewriteList ++ (if s.exch = .running then l.filter (fun n => p n && decide (n ∉ s.rewriteList))
                          else []) := by
  induction l generalizing s with
  | nil => simp
  | cons n l ih =>
    rw [List.nodup_cons] at hl
    rw [List.foldl_cons, ih _ hl.2]
    by_cases hp : p n
    · rw [if_pos hp, markImage_eq]
      by_cases hr : s.exch = .running
      · simp only [State.modLine_exch, hr, true_and, if_true]
        by_cases hn : n ∈ s.rewriteList
        · simp [hn, hp]
        · simp only [hn, not_false_eq_true, if_true, List.filter_cons, hp, decide_true, Bool.and_self]
          rw [List.append_assoc, List.singleton_append]
          congr 2
          apply List.filter_congr
          intro x hx
          have : x ≠ n := fun e => hl.1 (e ▸ hx)
          simp [this]
      · simp [hr]
    · rw [if_neg hp]; simp [hp]

/-! ### The marks of a step -/

theorem mem_allLines (n : LineNo) : n ∈ allLines := List.mem_finRange n

theorem nodup_allLines : allLines.Nodup := List.nodup_finRange 64

/-- The marks of a step leave all but the lines' marks, the rewrite list and the header's mark. -/
theorem markChanges_rest (a b : State) :
    { markChanges a b with lines := b.lines, rewriteList := b.rewriteList, headerPending := b.headerPending }
      = b := by
  have h := markLines_rest (imageChanged a b) allLines b
  unfold markChanges
  generalize List.foldl _ _ _ = t at h ⊢
  simp only at h ⊢
  split <;> (cases t; cases b; simp_all)

/-- A line after the marks of a step: marked if the step changed its image or a digit joined its queue. -/
@[simp] theorem markChanges_line (a b : State) (n : LineNo) :
    (markChanges a b).line n
      = { b.line n with changePending := (b.line n).changePending || imageChanged a b n } := by
  have h := markLines_line (imageChanged a b) allLines b n
  simp only [mem_allLines, decide_true, Bool.true_and] at h
  rw [← h]
  unfold markChanges
  simp only
  split <;> rfl

/-- The rewrite list after the marks of a step: while RUNNING the lines marked that it did not hold join it,
ascending. -/
theorem markChanges_rewriteList (a b : State) :
    (markChanges a b).rewriteList
      = b.rewriteList ++ (if b.exch = .running then
          allLines.filter (fun n => imageChanged a b n && decide (n ∉ b.rewriteList)) else []) := by
  rw [← markLines_rewriteList _ _ _ nodup_allLines]
  unfold markChanges
  simp only
  split <;> rfl

/-- The header's mark after the marks of a step. -/
theorem markChanges_headerPending (a b : State) :
    (markChanges a b).headerPending
      = (b.headerPending || decide (headerItems a ≠ headerItems b ∨ a.exch ≠ b.exch)) := by
  have h := congrArg State.headerPending (markLines_rest (imageChanged a b) allLines b)
  simp only at h
  unfold markChanges
  simp only
  split
  · rename_i hc; simp [hc]
  · rename_i hc; rw [decide_eq_false hc, Bool.or_false]; exact h

@[simp] theorem markChanges_slots (a b : State) : (markChanges a b).slots = b.slots :=
  (congrArg State.slots (markChanges_rest a b) :)

@[simp] theorem markChanges_links (a b : State) : (markChanges a b).links = b.links :=
  (congrArg State.links (markChanges_rest a b) :)

@[simp] theorem markChanges_rcvs (a b : State) : (markChanges a b).rcvs = b.rcvs :=
  (congrArg State.rcvs (markChanges_rest a b) :)

@[simp] theorem markChanges_dets (a b : State) : (markChanges a b).dets = b.dets :=
  (congrArg State.dets (markChanges_rest a b) :)

@[simp] theorem markChanges_waiting (a b : State) : (markChanges a b).waiting = b.waiting :=
  (congrArg State.waiting (markChanges_rest a b) :)

@[simp] theorem markChanges_rotation (a b : State) : (markChanges a b).rotation = b.rotation :=
  (congrArg State.rotation (markChanges_rest a b) :)

@[simp] theorem markChanges_gen (a b : State) : (markChanges a b).gen = b.gen :=
  (congrArg State.gen (markChanges_rest a b) :)

@[simp] theorem markChanges_exch (a b : State) : (markChanges a b).exch = b.exch :=
  (congrArg State.exch (markChanges_rest a b) :)

@[simp] theorem markChanges_mem (a b : State) : (markChanges a b).mem = b.mem :=
  (congrArg State.mem (markChanges_rest a b) :)

@[simp] theorem markChanges_pending (a b : State) : (markChanges a b).pending = b.pending :=
  (congrArg State.pending (markChanges_rest a b) :)

@[simp] theorem markChanges_link (a b : State) (l : LinkNo) : (markChanges a b).link l = b.link l := by
  simp [State.link]

@[simp] theorem markChanges_slot (a b : State) (k : SlotNo) : (markChanges a b).slot k = b.slot k := by
  simp [State.slot]

@[simp] theorem markChanges_rcv (a b : State) (k : RcvNo) : (markChanges a b).rcv k = b.rcv k := by
  simp [State.rcv]

@[simp] theorem markChanges_det (a b : State) (k : RcvNo) : (markChanges a b).det k = b.det k := by
  simp [State.det]

/-- The marks of a step are no part of a line's bare record. -/
@[simp] theorem markChanges_line_bare (a b : State) (n : LineNo) :
    ((markChanges a b).line n).bare = (b.line n).bare := by
  simp [LineRec.bare]

theorem imageChanged_self (s : State) (n : LineNo) : imageChanged s s n = false := by
  simp [imageChanged]

/-- A step that changes nothing marks nothing. -/
@[simp] theorem markChanges_self (s : State) : markChanges s s = s := by
  have h : ∀ l : List LineNo,
      l.foldl (fun t n => if imageChanged s s n then markImage t n else t) s = s := by
    intro l
    induction l with
    | nil => rfl
    | cons n l ih => simp [imageChanged_self]
  simp [markChanges, h]

end Sys2Proof.Machine
end

