-- ==== Sys2Proof/Tests/Slice0.lean ====
section
/-! SUPPORT. Tests: ill-formed operands that WellFormed refuses, one witness for each statement with
hypotheses (and for each of its clauses), and small steps whose results the manual gives. -/

namespace Sys2Proof.Tests

open Sys2Proof Sys2Proof.Machine

/-! ### WellFormed refuses what the outside cannot give -/

theorem test_wf_refuses_address : (Instr.attnWrite { ctl := [(2 ^ 32, 1)], bad := none }).wf = false := by
  decide

theorem test_wf_takes_last_address :
    (Instr.attnWrite { ctl := [(2 ^ 32 - 1, 1)], bad := none }).wf = true := by decide

/-- Eight powers: one of each group given, the others at -64 dBm. -/
def tone (low high : Rat) : BlockPowers :=
  { l697 := low, l770 := -64, l852 := -64, l941 := -64,
    h1209 := high, h1336 := -64, h1477 := -64, h1633 := -64 }

/-- Powers of -24.6, -24.5, -24.4, 5.5, 0.5, -0.5, -64.5, -70 and 7 dBm: ties go away from zero, and the floor
and the top clamp. -/
theorem test_readLevel :
    [mkRat (-246) 10, mkRat (-49) 2, mkRat (-244) 10, mkRat 11 2, mkRat 1 2, mkRat (-1) 2, mkRat (-129) 2, -70, 7].map
        readLevel = [-25, -25, -24, 6, 1, -1, -64, -64, 6] := by decide

/-- The worked block of 3.4: its eight levels as powers that are not whole. -/
theorem test_readLevels :
    readLevels { tone (mkRat (-399) 10) (-60) with l770 := mkRat (-124) 10, h1336 := mkRat (-17) 2 }
      = { l697 := -40, l770 := -12, l852 := -64, l941 := -64,
          h1209 := -60, h1336 := -9, h1477 := -64, h1633 := -64 } := by decide

/-! ### States to start from -/

/-- No bytes of the controller, no access that fails. -/
def quietBus : Bus := { ctl := [], bad := none }

/-- The reset state with the exchange in a state and CTRL at a value. -/
def inExch (e : Exch) (c : Word) : State := { State.reset with exch := e, ctrl := c }

/-- RUNNING, with RUN set. -/
def running : State := inExch .running 0x211#32

/-- The state with link A UP, its pairs restored, and an exchange outstanding or none. -/
def linkA (s : State) (f : Option Frame) : State :=
  s.modLink 0 fun r => { r with state := .up, exchange := f, restored := Vector.replicate 16 true }

/-- The state with line 0 as given. -/
def line0 (s : State) (r : LineRec) : State := s.modLine 0 fun _ => r

/-- An ACTIVE line in a supervision state and an accepted class. -/
def activeLine (u : Sup) (c : Cls) : LineRec :=
  { LineRec.reset with service := .active, sup := u, accepted := c }

/-- A sample of three codes without flags. -/
def sample (vt vr i : Code) : Sample :=
  { vt := vt, vr := vr, i := i, overrange := false, surge := false, testRange := false }

/-- Link A UP with the SAMPLE of pair 0 outstanding, and line 0 as given. -/
def sampled (r : LineRec) : State := line0 (linkA running (some (.sample 0))) r

/-- A digit entry. -/
def digitEntry : DigitEntry := { symbol := .digit 1, source := .tone, pulses := 0, loss := false, time := 7 }

/-- An entry of line 0 on the waiting list. -/
def entry0 (tag : Option SlotNo) (o : Origin) : WaitEntry :=
  { line := 0, cls := 0, tag := tag, origin := o }

/-- The tap of line 0. -/
def tap0 : Tap := { link := 0, pair := 0 }

/-! ### Witnesses: the queue, the registers, the exchange -/

theorem test_witness_wellFormed : (Instr.pollTick quietBus).wf = true := by decide

theorem test_witness_illFormed :
    usesBus (.pollTick { ctl := [(2 ^ 32, 0)], bad := none }) = true
    ∧ (ctlOf (.pollTick { ctl := [(2 ^ 32, 0)], bad := none })).all cellWf = false := by decide

/-- The reset rate gives a poll tick every 4,000 units, code 4 every 250; each clause of the idle step at its
bounds. -/
theorem test_witness_idle :
    running.pending = [] ∧ pollInterval running.ctrl = 4000 ∧ 256 ≤ ({ running with pollIn := 256 }).pollIn
    ∧ ({ running with pollIn := 255 }).pollIn < 256
    ∧ 256 ≤ ({ running with pollIn := 255 }).pollIn + pollInterval running.ctrl
    ∧ pollInterval (inExch .running 0x411#32).ctrl = 250
    ∧ ({ inExch .running 0x411#32 with pollIn := 5 }).pollIn + 250 < 256
    ∧ 256 ≤ ({ inExch .running 0x411#32 with pollIn := 6 }).pollIn + 250 := by decide

/-- A hold ends on its own: its indication stands through the idle step at 99 ms and not through that at 100. -/
theorem test_surge_lapses :
    let held := fun (t : Word) => { running.modLink 0 fun r => { r with surgeOn := true } with time := t }
    [99, 100].map (fun t => ((idle (held t)).link 0).surgeOn) = [true, false] := by decide

theorem test_witness_softResetByCtrl :
    quietBus.wf = true ∧ (0x80000000#32).getLsbD 31 = true ∧ (0x00000001#32).getLsbD 31 = false := by
  decide

theorem test_witness_runSet :
    quietBus.bad = none ∧ State.reset.exch = .stopped ∧ run State.reset = false
    ∧ memWf State.reset.mem := by decide

/-- A slot whose counts differ, one whose counts are equal, and a line with a digit queued, at reset. -/
theorem test_witness_runSet_clauses :
    let s : State := { State.reset with mem := [(0x100, 1)] }
    areaField s (slotOffset 0) 2 ≠ areaField s (slotOffset 0 + 0x32) 2
    ∧ areaField s (slotOffset 1) 2 = areaField s (slotOffset 1 + 0x32) 2
    ∧ min 32 ([digitEntry] : List DigitEntry).length = 1 := by decide

/-- STOPPING with RUN 0. -/
def stopping : State := inExch .stopping 0x210#32

/-- STOPPING with an ACTIVE ON_HOOK line under a profile of hook 20 ms and break_min 24 ms: 5 and 6 scans at
4 ms, but 3 and 3 at 8 ms, where R125 fails. -/
def tight : State :=
  (line0 (linkA stopping none) (activeLine .onHook .opn)).setProfile 0
    (install .ms4 { defaultProfile with hook := 20, breakMin := 24 })

theorem test_witness_period_same :
    stopping.exch = .stopping ∧ run stopping = false
    ∧ namedPeriod (runSetValue 0x10#32 &&& 0x1737#32) = stopping.period := by decide

theorem test_witness_period_stopped :
    State.reset.exch = .stopped ∧ run State.reset = false
    ∧ namedPeriod (runSetValue 0x00#32 &&& 0x1737#32) = .ms2 ∧ State.reset.period = .ms4
    ∧ periodForbidden State.reset .ms2 = false := by decide

theorem test_witness_period_forbidden :
    namedPeriod (runSetValue 0x20#32 &&& 0x1737#32) ≠ tight.period
    ∧ (tight.profile 0).valid = true ∧ periodForbidden tight .ms8 = true := by decide

theorem test_witness_period_taken :
    namedPeriod (runSetValue 0x00#32 &&& 0x1737#32) ≠ tight.period
    ∧ periodForbidden tight .ms2 = false ∧ (tight.line 0).service = .active
    ∧ (tight.line 0).sup ≠ .unsensed ∧ linkUp tight (linkOf 0) = true := by decide

/-- A survey of line 0 in slot 3. -/
def survey0 (n taken : Nat) : SurveyCtx :=
  { slot := 3, n := n, result := 0x6900, stats := none, accepted := taken, held := 0, missing := 0,
    overrange := 0 }

/-- The state with line 0 under survey. -/
def surveyed (r : LineRec) (n taken : Nat) : State :=
  (sampled { r with survey := some (survey0 n taken) }).modSlot 3 fun k =>
    { k with flight := some (.survey 0) }

theorem test_witness_runClear :
    (surveyed (activeLine .onHook .opn) 4 0).exch = .running
    ∧ run (surveyed (activeLine .onHook .opn) 4 0) = true
    ∧ ((surveyed (activeLine .onHook .opn) 4 0).slot 3).flight = some (.survey 0)
    ∧ ((surveyed (activeLine .onHook .opn) 4 0).line 0).survey = some (survey0 4 0)
    ∧ ∀ j : SlotNo, j ≠ 3 → ((surveyed (activeLine .onHook .opn) 4 0).slot j).flight = none := by
  decide

theorem test_witness_runClear_plain :
    running.exch = .running ∧ run running = true ∧ ∀ j, (running.slot j).flight = none := by decide

theorem test_witness_haltClear : (inExch .halted 0x211#32).exch = .halted := by decide

theorem test_witness_startingEnd :
    (inExch .starting 0x211#32).exch = .starting ∧ run (inExch .starting 0x211#32) = true
    ∧ run (inExch .starting 0x210#32) = false := by decide

theorem test_witness_stoppingEnd :
    memWf stopping.mem ∧ stopping.rewriting = none ∧ noneDue stopping = true
    ∧ run stopping = false := by decide

/-- RUN set again during STOPPING. -/
theorem test_witness_stoppingEnd_run :
    let s := inExch .stopping 0x211#32
    memWf s.mem ∧ s.exch = .stopping ∧ s.rewriting = none ∧ noneDue s = true ∧ run s = true := by decide

theorem test_witness_sweep_idle :
    (∀ k, slotPending (running.slot k) (BitVec.ofNat 16 (areaField running (slotOffset k) 2)) = false)
    ∧ ∀ n, (running.line n).queue = [] := by decide

theorem test_witness_sweep_flags :
    ({ running with sweeping := true }).sweeping = true
    ∧ ({ running with sweeping := true, sweepAgain := true }).sweepAgain = true := by decide

/-- RUNNING, with issue count 1 and a kind in slot 0. -/
def issued (kind : Byte) : State := { running with mem := [(0x100, 1), (0x102, kind)] }

/-- One pending slot, of a kind other than CANCEL; and a poll tick due and not due. -/
theorem test_witness_sweep_one :
    slotPending ((issued 8).slot 0) (BitVec.ofNat 16 (areaField (issued 8) (slotOffset 0) 2)) = true
    ∧ (∀ j : SlotNo, j ≠ 0 →
        slotPending ((issued 8).slot j) (BitVec.ofNat 16 (areaField (issued 8) (slotOffset j) 2)) = false)
    ∧ areaField (issued 8) (slotOffset 0 + 0x02) 1 ≠ 13
    ∧ ({ running with pollIn := 255 }).pollIn < 256 ∧ 256 ≤ ({ running with pollIn := 256 }).pollIn := by
  decide

/-- R161 at its bounds: 33 entries written, of which the image leaves 33, 32 or 31 not taken, and a digit queued. -/
theorem test_sweep_reads_counts :
    [0, 1, 2].map (fun v =>
        match sweepBody none { line0 running { LineRec.reset with queue := [digitEntry], written := 33 } with
            mem := [(0xA78, v)] } with
        | .ok t => ((t.line 0).taken.toNat, t.protocolErrors, t.rewriteList)
        | .err t _ => ((t.line 0).taken.toNat, 0, []))
      = [(0, 1, []), (1, 0, []), (2, 0, [0])] := by decide +kernel

/-- R176: two pending slots, both of a bad kind, are taken and completed by one sweep. -/
theorem test_sweep_takes_each :
    (match sweepBody none { running with mem := [(0x100, 1), (0x102, 14), (0x140, 5), (0x142, 14)] } with
      | .ok t => [(t.slot 0).completion.toNat, (t.slot 1).completion.toNat, t.changeCount.toNat]
      | .err _ _ => []) = [1, 5, 2] := by decide +kernel

theorem test_witness_badKind :
    memWf (issued 14).mem ∧ areaField (issued 14) (slotOffset 0 + 0x02) 1 = 14
    ∧ areaField running (slotOffset 0 + 0x02) 1 = 0 := by decide

/-- A completion DONE without a buffer. -/
def doneNow : Completion := { outcome := .done, reason := .none, detail := detail [], result := none }

theorem test_witness_completion :
    ((running.modSlot 0 fun k => { k with due := some doneNow }).slot 0).due = some doneNow
    ∧ doneNow.result = none ∧ doneNow.detail.length = 10 := by decide

/-- A completion with a result buffer of three bytes at the start of the free region. -/
def withResult : Completion := { doneNow with result := some (0x6900, [(2, 5), (1, -1)]) }

theorem test_witness_completion_result :
    ((running.modSlot 0 fun k => { k with due := some withResult }).slot 0).due = some withResult
    ∧ ∀ a, (∃ from_ fields, withResult.result = some (from_, fields) ∧ from_ ≤ a
              ∧ a < from_ + (fields.map Prod.fst).sum) →
        0x6900 ≤ a ∧ a < 32768 * 2 ^ (min running.latchWin.toNat 5) := by
  refine ⟨by decide, ?_⟩
  rintro a ⟨f, g, h, h1, h2⟩
  cases h
  have h3 : ([((2 : Nat), (5 : Int)), (1, -1)].map Prod.fst).sum = 3 := rfl
  have h4 : 32768 * 2 ^ (min running.latchWin.toNat 5) = 32768 := rfl
  omega

/-- A line with a digit to move, and a pace mark. -/
theorem test_witness_imageRewrite_moves :
    let r : LineRec := { LineRec.reset with queue := [digitEntry], pacePending := true }
    room r = 32 ∧ r.queue ≠ [] ∧ r.pacePending = true ∧ r.update.toNat % 2 = 0 := by decide

theorem test_witness_imageRewrite :
    ({ running with rewriteList := [5, 2] }).rewriteList = 5 :: [2] ∧ running.rewriting = none
    ∧ (running.line 5).update.toNat % 2 = 0 := by decide

/-- An image without room and an entry to move: the taken count read, here 0, is valid at 32 entries held and not
at 33. -/
theorem test_witness_imageRewrite_full :
    let r : LineRec := { LineRec.reset with queue := [digitEntry], written := 32 }
    r.queue ≠ [] ∧ room r = 0 ∧ room { r with written := 33 } = 0
    ∧ (r.written - BitVec.ofNat 16 0).toNat = 32 ∧ ((33 : Count) - BitVec.ofNat 16 0).toNat = 33 := by decide

/-- A rewrite of line 0 in flight. -/
def rewriting0 (notable : Bool) : State :=
  { running with rewriting := some { line := 0, moved := 0, notable := notable } }

theorem test_witness_rewriteEnd :
    (rewriting0 true).exch = .running
    ∧ (rewriting0 true).rewriting = some { line := 0, moved := 0, notable := true } := by decide

theorem test_witness_failedEvenWrite :
    areaAddr (rewriting0 true) (imageOffset 0) = (0x900#32).toNat
    ∧ areaAddr (rewriting0 true) (imageOffset 0 + 1) = (0x901#32).toNat := by decide

theorem test_witness_headerRewrite :
    ({ running with headerPending := true }).headerPending = true ∧ running.exch = .running := by decide

theorem test_witness_halt :
    (inExch .starting 1#32).exch = .starting ∧ running.exch = .running ∧ stopping.exch = .stopping := by
  decide

theorem test_witness_pace :
    running.time.toNat % paceMs .s8 = 0 ∧ ({ running with time := 1 }).time.toNat % paceMs .ms125 ≠ 0 := by
  decide

/-- An image changes at a step: a NAK to a TRIM of the record of line 0 (R109). -/
theorem test_witness_imageChange :
    ∃ t, exec (.trimReply 0 false) (linkA running (some (.trim 0 .fine 5 .record))) = .next t
      ∧ clearsMarks (.trimReply 0 false) = false
      ∧ imageOf (linkA running (some (.trim 0 .fine 5 .record))) 0 ≠ imageOf t 0 :=
  ⟨_, rfl, rfl, by decide +kernel⟩

/-- A step that stays RUNNING with a line on the list. -/
theorem test_witness_listKept :
    ∃ t, exec (.trimReply 0 false) { linkA running (some (.trim 0 .fine 5 .record)) with rewriteList := [5] }
        = .next t
      ∧ t.exch = .running ∧ t.rewriting = none ∧ t.rewriteList = [5, 0] :=
  ⟨_, rfl, rfl, rfl, by decide +kernel⟩

/-- A step that begins a rewrite. -/
theorem test_witness_listTaken :
    ∃ t, exec (.imageRewrite quietBus) { running with rewriteList := [5, 2] } = .next t
      ∧ t.exch = .running ∧ t.rewriting ≠ none ∧ clearsMarks (.imageRewrite quietBus) = false :=
  ⟨_, rfl, by decide +kernel, by decide +kernel, rfl⟩

theorem test_witness_noTraffic : usesBus .traceExpiry = false ∧ (inExch .halted 0#32).exch = .halted := by
  decide

/-! ### Witnesses: scans -/

/-- A period starts at 8 ms but not at 7, and not before the period in progress has come to its end. -/
theorem test_witness_periodStart :
    let at_ := fun (t e : Word) => { running with time := t, periodEnd := e }
    let starts := fun (s : State) => s.time.toNat % s.period.ms = 0 ∧ (s.time - s.periodEnd).toNat < 2 ^ 31
    starts (at_ 8 8) ∧ ¬starts (at_ 7 4) ∧ ¬starts (at_ 4 8)
    ∧ ((linkA running none).link 0).state = .up ∧ ((linkA running none).link 0).exchange = none
    ∧ ((linkA running none).link 1).state ≠ .up := by decide

theorem test_witness_accepted :
    ((sampled (activeLine .onHook .opn)).link 0).exchange = some (.sample 0)
    ∧ ((sampled (activeLine .onHook .opn)).line 0).service = .active
    ∧ surgeInForce (sampled (activeLine .onHook .opn)) 0 = false := by decide

/-- Link A under surge hold at cabinet time `t`, the last SURGE at 0. -/
def surged (t : Word) : State :=
  { (sampled (activeLine .onHook .opn)).modLink 0 fun r => { r with surgeOn := true } with time := t }

/-- The hold at 99 ms and at 100 ms, for a reply and for a block, and a reply that carries SURGE. -/
theorem test_witness_held :
    ((surged 99).link 0).surgeOn = true ∧ ((surged 99).time - ((surged 99).link 0).surgeTime).toNat < 100
    ∧ surgeInForce (surged 99) 0 = true ∧ surgeInForce (surged 100) 0 = false
    ∧ surgeAtBlock (surged 100) 0 = true ∧ surgeAtBlock (surged 101) 0 = false
    ∧ ({ sample 0 0 0 with surge := true }).surge = true
    ∧ ((surged 99).line 0).survey = none ∧ ((surged 99).line 0).service = .active
    ∧ ((surged 99).link 0).exchange = some (.sample 0) := by decide

theorem test_witness_seizure :
    ((sampled (activeLine .onHook .opn)).line 0).sup = .onHook
    ∧ ((sampled (activeLine .onHook .opn)).conv 0).toneDial = true
    ∧ entryOf (sampled (activeLine .onHook .opn)) 0 = none
    ∧ ((running.setProfile 0 (install .ms4 { defaultProfile with flags := 0 })).conv 0).toneDial = false := by
  decide

/-- A reply at which an ON_HOOK line accepts CLOSED: with an age of 2 scans, and, under a hook persistence of a
second, with one that reaches the first-digit timeout of a second (R28). -/
theorem test_seizure_by_reply :
    [(defaultProfile, 1), ({ defaultProfile with hook := 1000, firstDigit := 1 }, 249)].map (fun a =>
        let s := (sampled { activeLine .onHook .opn with
          candidate := some .closed, run := a.2, seedPending := true }).setProfile 0 (install .ms4 a.1)
        let r := (activeScan s 0 (sample (-100) (-300) 400)).line 0
        (r.accepted, r.age, decide ((s.conv 0).firstDigit ≤ r.age), r.sup))
      = [(.closed, 2, false, .seized), (.closed, 250, true, .lockout)] := by decide

/-- An ON_HOOK line whose candidate has a run. -/
def candidateOf (c : Option Cls) (k : Nat) : LineRec :=
  { activeLine .onHook .opn with candidate := c, run := k, seedPending := true }

/-- R13 to R16 on an ON_HOOK line accepted OPEN: the hook persistence is 2 scans, the fault persistence 125; the
raw class is the accepted class, falls short of its persistence, and reaches it. -/
theorem test_classes_accepted :
    [(candidateOf none 0, sample 0 (-384) 0), (candidateOf none 0, sample (-100) (-300) 400),
     (candidateOf (some .closed) 1, sample (-100) (-300) 400),
     (candidateOf (some .leak) 123, sample 0 (-384) 40), (candidateOf (some .leak) 124, sample 0 (-384) 40)].map
        (fun a =>
          let r := (scanFront (sampled a.1) 0 a.2).line 0
          (r.candidate, r.run, r.accepted, r.age))
      = [(none, 0, .opn, 0), (some .closed, 1, .opn, 0), (none, 0, .closed, 2),
         (some .leak, 124, .opn, 0), (none, 0, .leak, 125)] := by decide

/-- R90: SHORT accepted on a line without a record creates one, and on one of 255 occurrences counts no
further. -/
theorem test_fault_events :
    [none, some 255].map (fun (k : Option Nat) =>
        let f := k.map fun n => ({ active := false, first := .leak, latest := .short, occurrences := n,
                                   firstTime := 1, latestTime := 2, peak := 5 } : FaultRec)
        ((scanFront (sampled { candidateOf (some .short) 124 with fault := f }) 0 (sample (-190) (-200) 400)).line
          0).fault.map fun x => (x.active, x.first, x.latest, x.occurrences, x.peak))
      = [some (true, .short, .short, 1, 10), some (true, .leak, .short, 255, 5)] := by decide

/-- A break of length d on line 0, the make accepted with age 2. -/
def broken (d : Nat) : State :=
  line0 running { activeLine .brk .opn with ret := some .seized, b := d + 2 }

/-- The defaults at 4 ms are break_min 5, break_max 30, flash_min 50 and flash_max 200: each row of R35 at
its bounds, by the return state, the pulse count and the state that the make leaves. -/
theorem test_judgeMake_rows :
    [4, 5, 30, 31, 49, 50, 200, 201].map (fun d =>
        let r := (transition (broken d) 0 .closed 2).line 0
        (r.sup, r.pulses, r.queue.map DigitEntry.symbol))
      = [(.seized, 0, []), (.dialling, 1, []), (.dialling, 1, []), (.seized, 0, [.invalid]),
         (.seized, 0, [.invalid]), (.seized, 0, [.flash]), (.seized, 0, [.flash]),
         (.seized, 0, [.invalid])] := by decide

/-- A dialling line whose third pulse's make has lasted up to one scan short of the interdigit time. -/
def dialled (n : Nat) : LineRec :=
  { activeLine .dialling .closed with pulses := n, make := 49, aI := 16 * 400, seedPending := false,
                                      aVt := -16 * 100, aVr := -16 * 300 }

/-- A sample of a closed loop. -/
def closedLoop : Sample := sample (-100) (-300) 400

/-- A sample of an open loop. -/
def openLoop : Sample := sample 0 (-384) 0

theorem test_witness_interdigit :
    replyCase (atLimits interdigitDue) .active (sampled (dialled 3)) 0 0 closedLoop = true := by decide

/-- A line in a break, its filtered values those of an open loop. -/
def inBreak (b n : Nat) : LineRec :=
  { activeLine .brk .opn with ret := some .dialling, b := b, pulses := n, aVr := -16 * 384 }

theorem test_witness_longBreak :
    replyCase (atLimits longBreakDue) .active (sampled (inBreak 30 3)) 0 0 openLoop = true
    ∧ clearDue (scanFront (atReply (sampled (inBreak 30 3)) 0 openLoop) 0 openLoop) 0 = false
    ∧ firstDigitDue (scanFront (atReply (sampled (inBreak 30 3)) 0 openLoop) 0 openLoop) 0 = false := by
  decide

theorem test_witness_clear :
    replyCase (atLimits clearDue) .active (sampled (inBreak 249 0)) 0 0 openLoop = true := by decide

theorem test_witness_lockoutClear :
    replyCase (atLimits lockoutClearDue) .active
      (sampled { inBreak 249 0 with sup := .lockout, ret := none }) 0 0 openLoop = true := by decide

theorem test_witness_firstDigit :
    replyCase (atLimits firstDigitReached) .active
      (sampled { dialled 0 with sup := .seized, firstDigit := 4999 }) 0 0 closedLoop = true := by decide

theorem test_witness_dialEnd :
    replyCase (atLimits dialEndReached) .active
      (sampled { dialled 0 with dialEnd := 1999 }) 0 0 closedLoop = true := by decide

theorem test_witness_survey :
    replyCase surveyDue .active (surveyed (activeLine .onHook .opn) 4 3) 0 0 openLoop = true
    ∧ ((surveyed (activeLine .onHook .opn) 4 3).line 0).survey = some (survey0 4 3) ∧ 1 ≤ (survey0 4 3).n := by
  decide

theorem test_witness_quietDelay :
    replyCase quietReached .active
      (sampled { activeLine .onHook .opn with quiet := 7499, aVr := -16 * 384 }) 0 0 openLoop = true := by
  decide

/-- A calibration of line 0 at the last dwell scan of a decision, with a sum so far. -/
def deciding (decision : Nat) (sum : Int) : CalCtx :=
  { slot := 3, toActive := false, savedRange := .coarse, savedCode := 64, settleScans := 1, d := 8,
    trialRange := .coarse, trialCode := 64, kept := 0, decision := decision, step := .dwell, s1 := none,
    sum := sum, settleCount := 1, dwellCount := 7 }

/-- Line 0 CALIBRATING. -/
def calibrating (c : CalCtx) : State :=
  sampled { LineRec.reset with service := .calibrating, sup := .suspended, calCtx := some c }

/-- At d = 8 the bounds of R113 are sums of 800 and 160: each clause at its bounds. -/
theorem test_witness_decision :
    replyCase decisionDue .calibrating (calibrating (deciding 1 801)) 0 0 (sample 0 0 0) = true
    ∧ 100 * (deciding 1 801).d < ((deciding 1 801).sum).natAbs
    ∧ ((deciding 1 800).sum).natAbs ≤ 100 * (deciding 1 800).d
    ∧ replyCase decisionDue .calibrating (calibrating (deciding 7 0)) 0 0 (sample 0 0 1) = true
    ∧ replyCase decisionDue .calibrating (calibrating (deciding 8 0)) 0 0 (sample 0 0 1) = true := by
  decide

/-- R113 with d = 8: a sum of 800 stays COARSE, 161 too, 160 takes FINE; 801 fails. -/
theorem test_rangeDecision_bounds :
    [800, 161, 160, -160].map (fun S =>
        (((rangeDecision (calibrating (deciding 1 0)) 0 { deciding 1 0 with sum := S }).line 0).calCtx.map
          CalCtx.trialRange))
      = [some .coarse, some .coarse, some .fine, some .fine]
    ∧ ((rangeDecision (calibrating (deciding 1 0)) 0 { deciding 1 0 with sum := -801 }).line 0).cal.status
      = .failed .outOfRange := by decide

/-- A test of line 0 at the last dwell scan of a phase of one sample. -/
def phased (phase : Nat) : TestCtx :=
  { line := 0, slot := 3, toActive := false, settleScans := 1, m := 1, passLimit := 100,
    foreignLimit := 80, result := 0x6900, phase := phase, step := .dwell, settleCount := 1,
    dwellCount := 0, sumA := 0, sumB := 0, phasesDone := phase - 1, p1 := none, p2 := none, p3 := none,
    p4 := none, held := 0, missing := 0, mismatch := 0 }

/-- Line 0 TESTING. -/
def testing (c : TestCtx) : State :=
  (sampled { LineRec.reset with service := .testing, sup := .suspended }).modLink 0 fun r =>
    { r with test := some c }

/-- A test-range sample. -/
def testSample (vt vr i : Code) : Sample := { sample vt vr i with testRange := true }

/-- The clauses of the phases: 1; 2 with 20 kilohms and with 19; 3; 4. -/
theorem test_witness_phases :
    replyCase phaseDue .testing (testing (phased 1)) 0 0 (sample 0 0 0) = true
    ∧ 1 ≤ (phased 1).m ∧ (phased 1).phasesDone + 1 = (phased 1).phase
    ∧ (phased 4).phasesDone + 1 = (phased 4).phase
    ∧ replyCase phaseDue .testing (testing (phased 2)) 0 0 (testSample 16 0 100) = true
    ∧ (ohm 16 100).r = 20 ∧ (ohm 16 101).r = 19
    ∧ replyCase phaseDue .testing (testing (phased 3)) 0 0 (testSample 16 0 100) = true
    ∧ replyCase phaseDue .testing (testing (phased 4)) 0 0 (testSample 16 0 100) = true := by decide

/-! ### Witnesses: links -/

/-- Link A with a TAP CLEAR ALL outstanding and a failure run. -/
def failing (n : Nat) : State :=
  (linkA running (some .tapClearAll)).modLink 0 fun r => { r with failRun := n }

theorem test_witness_timeout :
    ((failing 1).link 0).exchange = some .tapClearAll ∧ ((failing 1).link 0).state = .up
    ∧ ((failing 1).link 0).failRun + 1 < 3 ∧ keyOf .tapClearAll ≠ none
    ∧ (State.reset.link 0).exchange = some .probe ∧ (State.reset.link 0).state ≠ .up := by decide

/-- A SAMPLE of a surveyed line and of a line under test, and a PROBE of an UP link, outstanding; control frames
over for the period. -/
theorem test_witness_timeout_sample :
    let s := surveyed (activeLine .onHook .opn) 4 3
    (s.link 0).exchange = some (.sample 0) ∧ keyOf (.sample 0) = none ∧ (s.line 0).service = .active
    ∧ ((s.line 0).survey.all fun c => decide (c.accepted < c.n)) = true
    ∧ ((s.modLink 0 fun r => { r with controlOver := true }).link 0).controlOver = true
    ∧ ((testing (phased 1)).line 0).service = .testing ∧ ((testing (phased 1)).link 0).test = some (phased 1)
    ∧ (phased 1).line = lineAt 0 0
    ∧ ((linkA running (some .probe)).link 0).exchange = some .probe := by decide

theorem test_witness_linkLoss_due : lossDue (failing 2) 0 = true ∧ lossDue (failing 1) 0 = false := by decide

/-- The services of a state are sound, by tests of its lines and links. -/
theorem services_sound_of (s : State)
    (hp : ∀ n, (s.line n).service = .parked → (s.line n).sup = .none)
    (hc : ∀ n, (s.line n).service = .calibrating → (s.line n).sup = .suspended)
    (ht : ∀ n, (s.line n).service = .testing → (s.line n).sup = .suspended)
    (ha : ∀ n, (s.line n).service = .active → (s.line n).sup ≠ .none ∧ (s.line n).sup ≠ .suspended)
    (hq : ∀ n, (s.line n).rate = .quiet → (s.line n).service = .active ∧ (s.line n).sup = .onHook)
    (hx : ∀ n, (s.line n).calCtx.isSome = true → (s.line n).service = .calibrating)
    (hl : ∀ l, ((s.link l).test.all fun c =>
      decide (linkOf c.line = l ∧ (s.line c.line).service = .testing)) = true) : ServicesSound s := by
  refine ⟨fun n => ?_, hq, hx, fun l c h => ?_⟩
  · unfold serviceAgrees
    cases h : (s.line n).service
    · exact hp n h
    · exact ha n h
    · exact hc n h
    · exact ht n h
  · have := hl l
    rw [h] at this
    exact of_decide_eq_true this

theorem test_witness_linkLoss_sound : ServicesSound (failing 2) := by
  apply services_sound_of <;> decide

theorem test_witness_unmatched :
    (running.link 1).exchange ≠ some (.sample 0) ∧ (running.link 1).exchange ≠ some .tapClearAll := by
  decide

/-- Reset with no exchange on link A and a cabinet time. -/
def timed (t : Word) : State :=
  { State.reset.modLink 0 fun r => { r with exchange := none } with time := t }

theorem test_witness_probeTimer :
    ((timed 250).link 0).state ≠ .up ∧ ((timed 250).link 0).exchange = none
    ∧ 250 ≤ ((timed 250).time - ((timed 250).link 0).probeTime).toNat := by decide

/-- Link A UP and idle at a cabinet time. -/
def idleAt (t : Word) : State := { linkA State.reset none with time := t }

theorem test_witness_idleProbe :
    ((idleAt 250).link 0).state = .up ∧ ((idleAt 250).link 0).exchange = none
    ∧ ((idleAt 250).link 0).queue = [] ∧ ((idleAt 250).link 0).retry = none
    ∧ ((idleAt 250).link 0).toSample = []
    ∧ 250 ≤ ((idleAt 250).time - ((idleAt 250).link 0).idleTime).toNat := by decide

theorem test_witness_surgeExpiry :
    ((surged 100).link 0).surgeOn = true
    ∧ 100 ≤ ((surged 100).time - ((surged 100).link 0).surgeTime).toNat := by decide

theorem test_witness_probeReply :
    (State.reset.link 0).exchange = some .probe ∧ (State.reset.link 0).state ≠ .up
    ∧ ((linkA State.reset (some .probe)).link 0).exchange = some .probe
    ∧ ((linkA State.reset (some .probe)).link 0).state = .up
    ∧ ((linkA State.reset (some .probe)).link 0).pairCount = 16 := by decide

/-- A line at each side of the pair count of eight. -/
theorem test_witness_probeReply_lines :
    ((State.reset.modLine 7 fun _ => activeLine .unsensed .opn).line (lineAt 0 7)).sup = .unsensed
    ∧ ((State.reset.modLine 8 fun _ => activeLine .unsensed .opn).line (lineAt 0 8)).service = .active := by
  decide

/-- A frame outstanding on link A. -/
def sent (f : Frame) : State := linkA running (some f)

theorem test_witness_trimReply :
    ((sent (.trim 0 .fine 5 .record)).link 0).exchange = some (.trim 0 .fine 5 .record) := by decide

theorem test_witness_trimReply_decision :
    ((line0 (sent (.trim 0 .fine 5 .calibration))
        { LineRec.reset with service := .calibrating, sup := .suspended,
                             calCtx := some { deciding 2 0 with step := .frameWait false true } }).line 0).calCtx
      = some { deciding 2 0 with step := .frameWait false true } := by decide

/-- A CALIBRATE of two lines, one of which has finished. -/
def tally : Tally :=
  { taken := 2, valid := 1, failed := 0, interrupted := 0, badLine := 0, overridden := 1, lineBusy := 0 }

/-- The state with that CALIBRATE in flight and line 0 at a step. -/
def calibrate (s : State) (c : CalCtx) : State :=
  (line0 s { LineRec.reset with service := .calibrating, sup := .suspended, calCtx := some c }).modSlot 3
    fun r => { r with flight := some (.calibrate tally) }

/-- The commit of a calibration, and a FRAME_WAIT for both replies, with the last line of the order and with one
more to come. -/
theorem test_witness_trimReply_commit :
    let s := fun step => (calibrate (sent (.trim 0 .fine 5 .calibration)) { deciding 8 0 with step := step })
    ((s .commit).link 0).exchange = some (.trim 0 .fine 5 .calibration)
    ∧ ((s .commit).line 0).calCtx.map CalCtx.step = some .commit
    ∧ ((s .commit).slot 3).flight = some (.calibrate tally) ∧ ((s .commit).link 0).state = .up
    ∧ ((s (.frameWait true true)).line 0).calCtx.map CalCtx.step = some (.frameWait true true)
    ∧ tally.taken ≤ tally.valid + 1 + tally.failed + tally.interrupted
    ∧ ({ tally with taken := 3 }).valid + 1 + tally.failed + tally.interrupted < 3 := by decide

/-- A trace of line 0. -/
def traced (t : TraceStep) : TraceCtx :=
  { line := 0, slot := 3, na := 800, nb := 900, level := 9, rate := .hz4, longitudinal := false,
    expiry := 1000, step := t, halves := 0 }

/-- The state with a trace in a step. -/
def withTrace (s : State) (t : TraceStep) : State :=
  { s with gen := { s.gen with ctx := .trace (traced t) } }

theorem test_witness_relayReply :
    ((sent (.relay 0 .normal .recovery)).link 0).exchange = some (.relay 0 .normal .recovery)
    ∧ ((withTrace (sent (.relay 0 .traceMetallic .trace)) .relayWait).link 0).exchange
      = some (.relay 0 .traceMetallic .trace)
    ∧ (traced .relayWait).line = lineAt 0 0
    ∧ RelayCfg.traceMetallic = traceCfg (traced .relayWait).longitudinal := by decide

/-- The NAK to a trace's RELAY, and the reply to the RELAY NORMAL of its RESTORING. -/
theorem test_witness_relayReply_trace_end :
    let s := fun cfg step => withTrace (sent (.relay 0 cfg .trace)) step
    ((s .normal .restoring).link 0).exchange = some (.relay 0 .normal .trace)
    ∧ (s .normal .restoring).gen.ctx = .trace (traced .restoring)
    ∧ (s .traceMetallic .relayWait).gen.ctx = .trace (traced .relayWait)
    ∧ (s .traceMetallic .relayWait).exch = .running
    ∧ ((s .traceMetallic .relayWait).link 0).state = .up := by decide

/-- The replies to a calibration's RELAYs: ZERO in FRAME_WAIT, and NORMAL in RESTORING. -/
theorem test_witness_relayReply_calibration :
    let s := fun cfg step => calibrate (sent (.relay 0 cfg .calibration)) { deciding 1 0 with step := step }
    ((s .zero (.frameWait true true)).link 0).exchange = some (.relay 0 .zero .calibration)
    ∧ ((s .zero (.frameWait true true)).line 0).calCtx.map CalCtx.step = some (.frameWait true true)
    ∧ ((s .normal .restoring).line 0).calCtx.map CalCtx.step = some .restoring
    ∧ ((s .normal .restoring).line 0).service = .calibrating := by decide

/-- The replies to a test's RELAYs: a phase's in RELAY_WAIT, and NORMAL in RESTORING. -/
theorem test_witness_relayReply_test :
    let s := fun cfg step =>
      (testing { phased 1 with step := step }).modLink 0 fun r => { r with exchange := some (.relay 0 cfg .test) }
    ((s .feedOff .relayWait).link 0).test = some { phased 1 with step := .relayWait }
    ∧ phaseCfg (phased 1).phase = .feedOff
    ∧ ((s .normal .restoring).link 0).exchange = some (.relay 0 .normal .test)
    ∧ ((s .normal .restoring).link 0).test = some { phased 1 with step := .restoring } := by decide

theorem test_witness_restoring_sound :
    ServicesSound (calibrate (sent (.relay 0 .normal .calibration)) { deciding 1 0 with step := .restoring })
    ∧ ServicesSound ((testing { phased 1 with step := .restoring }).modLink 0 fun r =>
        { r with exchange := some (.relay 0 .normal .test) }) :=
  ⟨by apply services_sound_of <;> decide, by apply services_sound_of <;> decide⟩

/-! ### Witnesses: receivers and the generator -/

/-- Receiver 0 in a state, with a frame outstanding on link A. -/
def received (f : Frame) (r : RcvState) : State := (sent f).setRcv 0 r

theorem test_witness_tapConnect :
    (received (.tapConnect 0 0) (.connecting (entry0 none .supervision) tap0 .sent)).rcv 0
      = .connecting (entry0 none .supervision) tap0 .sent := by decide

/-- A TAP CONNECT outstanding whose receiver is RELEASING. -/
theorem test_witness_tapConnect_releasing :
    let s := received (.tapConnect 0 0) (.releasing tap0 .awaitConnectAck true)
    (s.link 0).exchange = some (.tapConnect 0 0) ∧ s.rcv 0 = .releasing tap0 .awaitConnectAck true
    ∧ (s.link tap0.link).state = .up := by decide

/-- Every other receiver out of service. -/
def othersOut (s : State) : State :=
  { s with rcvs := Vector.ofFn fun k => if k = 0 then s.rcv 0 else .outOfService .hostRequest }

theorem test_witness_tapConnect_nak :
    ∀ j : RcvNo,
      (othersOut (received (.tapConnect 0 0) (.connecting (entry0 none .supervision) tap0 .sent))).rcv j
        ≠ .free := by decide

theorem test_witness_released :
    (received (.tapDisconnect 0) (.releasing tap0 .awaitDisconnectAck true)).waiting = []
    ∧ (received (.tapDisconnect 0) (.releasing tap0 .awaitDisconnectAck true)).rcv 0
      = .releasing tap0 .awaitDisconnectAck true
    ∧ (received .tapClearAll (.stranded tap0 false)).rcv 0 = .stranded tap0 false := by decide

theorem test_witness_guard :
    16 ≤ ((16 : Word) - 0).toNat
    ∧ (running.setRcv 0 (.connecting (entry0 none .supervision) tap0 (.guarding 0))).rcv 0
      = .connecting (entry0 none .supervision) tap0 (.guarding 0) := by decide

/-- Receiver 0 LISTENING for line 0, in a detection state, its block over. -/
def listens (tag : Option SlotNo) (d : DetState) : State :=
  let s := line0 (linkA running none) (activeLine .held .closed)
  { (s.startListening 0 (.listening (entry0 tag .supervision) tap0)).setDet 0 { state := d, began := some 0 } with
    time := 10 }

/-- Block ends fall at 10 and 20 ms, not at 0 or 15. -/
theorem test_witness_block :
    [10, 20, 0, 15].map (fun t => blockDue { listens none .quiet with time := t } 0) = [true, true, false, false]
    ∧ (blockAdvance (listens none .quiet) 0 (readLevels (tone (-10) (-10)))).2 = none := by decide

/-- R56 at its bounds: 6 dB above the others and 5; a level at the limits and one past; a twist of 6 and
7. -/
theorem test_verdict_bounds :
    [verdict { min := -25, max := 0, forward := 6, reverse := 4 } (readLevels { tone (-10) (-10) with l941 := -16 }),
     verdict { min := -25, max := 0, forward := 6, reverse := 4 } (readLevels { tone (-10) (-10) with l941 := -15 }),
     verdict { min := -25, max := 0, forward := 6, reverse := 4 } (readLevels (tone (-25) (-25))),
     verdict { min := -25, max := 0, forward := 6, reverse := 4 } (readLevels (tone (-26) (-25))),
     verdict { min := -25, max := 0, forward := 6, reverse := 4 } (readLevels (tone (-10) (-4))),
     verdict { min := -25, max := 0, forward := 6, reverse := 4 } (readLevels (tone (-10) (-3)))]
      = [some (.digit 1), none, some (.digit 1), none, some (.digit 1), none] := by decide

theorem test_witness_gap :
    gapDue (listens none (.gap 3)) 0 (readLevels (tone (-64) (-64))) = true := by decide

theorem test_witness_tone :
    blockDue (listens none (.pending (.digit 1) 3)) 0 = true
    ∧ (blockAdvance (listens none (.pending (.digit 1) 3)) 0 (readLevels (tone (-10) (-10)))).2 = some (.digit 1)
    ∧ isCall ((listens none (.pending (.digit 1) 3)).line 0).sup = true := by decide

/-- A check of receiver 0 on digit 1, in its last block. -/
def lastBlock : CheckCtx :=
  { rcv := 0, slot := 3, digits := [.digit 1], level := 8, removeOnFail := true, onBlocks := 5,
    offBlocks := 5, records := [none], position := 9 }

/-- The state of that check. -/
def checking : State :=
  let s := running.startListening 0 (.checking none)
  { s with time := 10, gen := { s.gen with output := .loopback, ctx := .check lastBlock } }

/-- The state of that check a block before its last. -/
def ninthBlock : State :=
  { checking with gen := { checking.gen with ctx := .check { lastBlock with position := 8 } } }

/-- A block of a LISTENING receiver under the profile's 4 blocks, in and out of a surge hold, and one of a
CHECKING receiver short of its last. -/
theorem test_witness_verdict :
    ((listens none .quiet).det 0).state = .quiet
    ∧ 2 ≤ ((listens none .quiet).conv 0).toneOn ∧ ((listens none .quiet).link 0).surgeOn = false
    ∧ surgeAtBlock ((listens none .quiet).modLink 0 fun r => { r with surgeOn := true }) 0 = true
    ∧ ninthBlock.rcv 0 = .checking none ∧ checkDue ninthBlock 0 = false ∧ blockDue ninthBlock 0 = true
    ∧ (ninthBlock.det 0).state = .quiet := by decide

theorem test_witness_check :
    checking.rcv 0 = .checking none ∧ checkDue checking 0 = true ∧ checking.waiting = []
    ∧ lastBlock.records.length = lastBlock.digits.length := by decide

/-- A LISTEN of line 0 in slot 3 that has expired. -/
def listen0 : ListenCtx := { line := 0, expiry := 10, count := 2, last := some 0 }

/-- The state with that LISTEN in flight. -/
def withListen (s : State) : State := s.modSlot 3 fun r => { r with flight := some (.listen listen0) }

theorem test_witness_listen_waiting :
    ((withListen { running with time := 10, waiting := [entry0 (some 3) .listen] }).slot 3).flight
      = some (.listen listen0)
    ∧ reached 10 listen0.expiry = true
    ∧ rcvOfTag (withListen { running with time := 10, waiting := [entry0 (some 3) .listen] }) 3 = none := by
  decide

theorem test_witness_listen_served :
    rcvOfTag (withListen (listens (some 3) .quiet)) 3 = some 0
    ∧ linkUp (withListen (listens (some 3) .quiet)) 0 = true
    ∧ (withListen (listens (some 3) .quiet)).waiting = [] := by decide

/-- Line 20 listens in slot 3 with the TAP CONNECT of receiver 0 still queued, line 3 waits, no receiver is FREE. -/
def handed : State :=
  let e : WaitEntry := { line := 20, cls := 0, tag := some 3, origin := .listen }
  let s := linkA { running with time := 10 } none
  let s := s.modLink 1 fun r => { r with state := .up, exchange := some (.sample 0) }
  let s := s.modLine 20 fun _ => { activeLine .held .closed with receiver := some 0 }
  let s := s.modLine 3 fun _ => activeLine .seized .closed
  { withListen s with
      rcvs := Vector.ofFn fun k => if k = 0 then .connecting e { link := 1, pair := 4 } .queued
                                   else .outOfService .hostRequest,
      waiting := [{ line := 3, cls := 0, tag := none, origin := .supervision }] }

theorem test_witness_listen_handed :
    rcvOfTag handed 3 = some 0 ∧ linkUp handed 1 = true ∧ handed.waiting.length = 1
    ∧ (∀ i, handed.rcv i ≠ .free) ∧ handed.exch = .running := by decide

/-- The first half cycle of 125 ms at 4 Hz: not over at 124 ms, over at 125. -/
theorem test_witness_warble :
    (withTrace running (.tone 0)).gen.ctx = .trace (traced (.tone 0)) ∧ (traced (.tone 0)).halves = 0
    ∧ 4 * (((124 : Word) - 0).toNat + 1) ≤ (0 + 1) * 500 ∧ (0 + 1) * 500 < 4 * (((125 : Word) - 0).toNat + 1)
    ∧ [124, 125].map (fun t => (warble { withTrace running (.tone 0) with time := t }).gen.chA.n) = [0, 900] := by
  decide

theorem test_witness_trace :
    reached 1000 (traced (.tone 0)).expiry = true
    ∧ linkUp (withTrace (linkA running none) (.tone 0)) (linkOf 0) = true := by decide

/-- Either setting, and a write that keeps RUN in RUNNING, and one in HALTED and STARTING. -/
theorem test_witness_grant :
    rotate running = false ∧ rotate (inExch .running 0x1211#32) = true
    ∧ (0x1211#32).getLsbD 31 = false ∧ (0x1211#32).getLsbD 0 = run running
    ∧ run (inExch .halted 0x211#32) = true ∧ (inExch .starting 0x210#32).exch = .starting := by decide

/-! ### Witnesses: orders -/

/-- The bytes of an order as one read returns them: kind, line, target, and parameters; its mask names line 0
and its result buffer lies at 0x6900. -/
def order (kind line target : Byte) (ps : List Byte) : OrderRead :=
  { bytes := [1, 0, kind, 0, line, target, 0, 0, 1, 0, 0, 0, 0, 0, 0, 0, 0, 0x69, 0, 0] ++ ps
             ++ List.replicate (28 - ps.length) 0, big := false }

/-- The pool of a state is sound, by tests of its receivers, lines and list. -/
theorem pool_sound_of (s : State) (ho : listOrdered s.waiting)
    (hk : ∀ k, ((grantedEntry (s.rcv k)).all fun e =>
      decide ((s.line e.line).receiver = some k ∧ (s.line e.line).service = .active
              ∧ isCall (s.line e.line).sup = true)) = true)
    (hn : ∀ n, ((s.line n).receiver.all fun k =>
      (grantedEntry (s.rcv k)).any fun e => decide (e.line = n)) = true)
    (hw : ∀ e ∈ s.waiting, (s.line e.line).receiver = none ∧ (s.line e.line).service = .active
      ∧ isCall (s.line e.line).sup = true)
    (hl : s.waiting = [] ∨ ∀ k, s.rcv k ≠ .free)
    (hc : (match s.gen.ctx with
           | .check c => isChecking (s.rcv c.rcv)
           | _ => true) = true) : PoolSound s := by
  have key : ∀ k e, grantedEntry (s.rcv k) = some e → (s.line e.line).receiver = some k
      ∧ (s.line e.line).service = .active ∧ isCall (s.line e.line).sup = true := by
    intro k e h
    have := hk k
    rw [h] at this
    exact of_decide_eq_true this
  refine ⟨ho, fun k e h => (key k e h).1, fun n k h => ?_, fun e h => (hw e h).1, fun e h => (hw e h).2,
    fun k e h => (key k e h).2, fun h => hl.resolve_left h, fun c h => ?_⟩
  · have := hn n
    rw [h] at this
    cases g : grantedEntry (s.rcv k) with
    | none => simp [g] at this
    | some e => exact ⟨e, rfl, by simpa [g] using this⟩
  · rw [h] at hc
    exact hc

/-- Line 0 served by receiver 0, line 1 on the list, no receiver FREE, link A UP, and a command waiting. -/
def busy : State :=
  let s := linkA running none
  let s := s.modLine 0 fun _ => { activeLine .held .closed with receiver := some 0 }
  let s := s.modLine 1 fun _ => activeLine .seized .closed
  { s with rcvs := Vector.ofFn fun k =>
             if k = 0 then .listening (entry0 none .supervision) tap0 else .outOfService .hostRequest,
           waiting := [{ line := 1, cls := 0, tag := none, origin := .supervision }],
           pending := [.scanPeriodStart] }

theorem busy_services : ServicesSound busy := by
  apply services_sound_of <;> decide

theorem busy_pool : PoolSound busy := by
  apply pool_sound_of
  · unfold listOrdered; decide
  all_goals decide

theorem test_witness_listen_handed_sound : PoolSound handed := by
  apply pool_sound_of
  · unfold listOrdered; decide
  all_goals decide

/-- The services and the pool are sound where the receivers are those of reset, none is held and no line waits. -/
theorem idle_pool (s : State) (hw : s.waiting = []) (hr : ∀ k, s.rcv k = .free)
    (hn : ∀ n, (s.line n).receiver = none) (hg : s.gen.ctx = .none) : PoolSound s := by
  apply pool_sound_of
  · rw [hw]; exact ⟨List.nodup_nil, List.Pairwise.nil⟩
  · intro k; rw [hr]; rfl
  · intro n; rw [hn]; rfl
  · rw [hw]; intro e h; cases h
  · exact .inl hw
  · rw [hg]

/-- ASSIGN, line 0: absent; bad parameters at their bounds; an invalid profile; ACTIVE and PARKED of each
service. -/
theorem test_witness_assign :
    kindOf (order 1 0 0 [0, 1]) = 1 ∧ presentLine running (lineOf (order 1 64 0 [])) = none
    ∧ presentLine running (lineOf (order 1 0 0 [])) = some 0
    ∧ param8 (order 1 0 0 [8, 0]) 0 = 8 ∧ param8 (order 1 0 0 [7, 2]) 1 = 2
    ∧ param8 (order 1 0 0 [0, 1]) 0 = (0 : ProfNo).1 ∧ param8 (order 1 0 0 [0, 1]) 1 = 1
    ∧ param8 (order 1 0 0 [0, 0]) 1 = 0
    ∧ (running.profile 0).valid = true ∧ (running.line 0).service = .parked ∧ tracing running 0 = false
    ∧ (busy.line 0).service = .active := by decide

theorem test_witness_assign_invalid :
    let s := running.setProfile 0 (install .ms4 { defaultProfile with hook := 20 })
    (s.profile 0).valid = false ∧ (firstFailing s.period (s.profile 0).ms).isSome = true := by decide

theorem test_witness_assign_sound : ServicesSound running ∧ PoolSound running :=
  ⟨by apply services_sound_of <;> decide, idle_pool _ rfl (by decide) (by decide) rfl⟩

/-- A traced line, PARKED. -/
theorem test_witness_assign_traced :
    ServicesSound (withTrace running (.tone 0)) ∧ PoolSound (withTrace running (.tone 0))
    ∧ tracing (withTrace running (.tone 0)) 0 = true := by
  refine ⟨by apply services_sound_of <;> decide, ?_, by decide⟩
  apply pool_sound_of
  · unfold listOrdered; decide
  all_goals decide

/-- A line CALIBRATING, one TESTING. -/
theorem test_witness_assign_working :
    (ServicesSound (calibrating (deciding 1 0)) ∧ PoolSound (calibrating (deciding 1 0)))
    ∧ ServicesSound (testing (phased 1)) ∧ PoolSound (testing (phased 1)) :=
  ⟨⟨by apply services_sound_of <;> decide, idle_pool _ rfl (by decide) (by decide) rfl⟩,
   by apply services_sound_of <;> decide, idle_pool _ rfl (by decide) (by decide) rfl⟩

/-- A fault record. -/
def faulty (active : Bool) : LineRec :=
  { LineRec.reset with fault := some { active := active, first := .short, latest := .leak, occurrences := 255,
                                       firstTime := 1, latestTime := 2, peak := 50 } }

/-- CLEAR FAULT at the bounds of the line number, and with each kind of record. -/
theorem test_witness_clearFault :
    kindOf (order 8 64 0 []) = 8 ∧ lineOf (order 8 64 0 []) = 64 ∧ lineOf (order 8 63 0 []) = (63 : LineNo).1
    ∧ (running.line 63).fault = none
    ∧ ((line0 running (faulty true)).line 0).fault.map FaultRec.active = some true
    ∧ ((line0 running (faulty false)).line 0).fault.map FaultRec.active = some false := by decide

theorem test_witness_economy :
    kindOf (order 3 0 1 []) = 3 ∧ targetOf (order 3 0 0 []) = 0 ∧ targetOf (order 3 0 1 []) = 1
    ∧ targetOf (order 3 0 2 []) = 2 := by decide

/-- LOAD PROFILE: the staging block of zeros fails a constraint at once. -/
theorem test_witness_loadProfile :
    kindOf (order 2 0 7 []) = 2 ∧ targetOf (order 2 0 7 []) = (7 : ProfNo).1 ∧ targetOf (order 2 0 8 []) = 8
    ∧ (firstFailing running.period (readProfile false (List.replicate 0x32 0))).isSome = true
    ∧ firstFailing running.period defaultProfile = none := by decide

theorem test_witness_setTrim :
    kindOf (order 6 0 0 [1, 127]) = 6 ∧ param8 (order 6 0 0 [2, 0]) 0 = 2
    ∧ param8 (order 6 0 0 [1, 128]) 1 = 128 ∧ param8 (order 6 0 0 [1, 127]) 0 ≤ 1
    ∧ param8 (order 6 0 0 [1, 127]) 1 ≤ 127 ∧ (running.line 0).service ≠ .calibrating
    ∧ ((calibrating (deciding 1 0)).line 0).service = .calibrating
    ∧ ((linkA running none).link 0).state = .up ∧ (running.link 0).state ≠ .up := by decide

/-- CANCEL of slot 3 from slot 0: its own slot, a slot above 15, nothing in flight, and the order of each kind
in progress. -/
theorem test_witness_cancel :
    kindOf (order 13 0 3 []) = 13 ∧ targetOf (order 13 0 3 []) = (3 : SlotNo).1
    ∧ targetOf (order 13 0 16 []) = 16 ∧ targetOf (order 13 0 0 []) = (0 : SlotNo).1
    ∧ (running.slot 3).flight = none ∧ memWf running.mem := by decide

theorem test_witness_cancel_survey : inProgress (surveyed (activeLine .onHook .opn) 4 0) 3 0 :=
  ⟨rfl, survey0 4 0, by decide, rfl⟩

theorem test_witness_cancel_calibrate : inProgress (calibrate running (deciding 1 0)) 3 0 := by
  refine ⟨rfl, ⟨deciding 1 0, by decide, rfl, by decide⟩, ?_⟩
  have h : ∀ m, m ≠ 0 → ((calibrate running (deciding 1 0)).line m).calCtx = none := by decide
  intro m c hm hc
  rw [h m hm] at hc
  cases hc

theorem test_witness_cancel_test :
    inProgress ((testing (phased 1)).modSlot 3 fun r => { r with flight := some (.insulation 0) }) 3 0 :=
  ⟨phased 1, by decide, rfl, by decide, rfl, by decide⟩

theorem test_witness_cancel_listen :
    inProgress (withListen (listens (some 3) .quiet)) 3 0
    ∧ rcvOfTag (withListen (listens (some 3) .quiet)) 3 = some 0
    ∧ (withListen (listens (some 3) .quiet)).waiting = []
    ∧ rcvOfTag (withListen { running with waiting := [entry0 (some 3) .listen] }) 3 = none :=
  ⟨rfl, by decide, by decide, by decide⟩

theorem test_witness_cancel_generator :
    inProgress (checking.modSlot 3 fun r => { r with flight := some .check }) 3 0
    ∧ inProgress ((withTrace running (.tone 0)).modSlot 3 fun r => { r with flight := some .trace }) 3 0 :=
  ⟨⟨lastBlock, rfl, rfl⟩, traced (.tone 0), rfl, rfl, by decide, rfl⟩

/-- The orders in progress of the other kinds: a test, a LISTEN, a check and a trace of slot 3. -/
def withTest : State := (testing (phased 1)).modSlot 3 fun r => { r with flight := some (.insulation 0) }
def withCheck : State := checking.modSlot 3 fun r => { r with flight := some .check }
def tracing0 : State := (withTrace running (.tone 0)).modSlot 3 fun r => { r with flight := some .trace }

/-- RUN may be cleared with the order of each kind the only one in flight. -/
theorem test_witness_runClear_kinds :
    [surveyed (activeLine .onHook .opn) 4 0, calibrate running (deciding 1 0), withTest,
      withListen (listens (some 3) .quiet), withCheck, tracing0].all (fun s =>
        decide (s.exch = .running) && run s
        && allSlots.all fun j => decide (j = 3) || (s.slot j).flight.isNone) = true := by decide

/-- One context names a slot, by tests of the lines, the links and the generator. -/
theorem sole_context_of (s : State) (k : SlotNo)
    (hs : ∀ m, ((s.line m).survey.all fun c =>
      decide (c.slot ≠ k) || decide ((s.slot k).flight = some (.survey m))) = true)
    (ht : ∀ m, ((s.link m).test.all fun c =>
      decide (c.slot ≠ k) || decide ((s.slot k).flight = some (.insulation m))) = true)
    (hg : (match s.gen.ctx with
           | .trace c => decide (c.slot ≠ k) || decide ((s.slot k).flight = some .trace)
           | _ => true) = true) : soleContext s k := by
  refine ⟨fun m c h hk => ?_, fun m c h hk _ => ?_, fun c h hk _ => ?_⟩
  · have := hs m
    rw [h] at this
    simpa [hk] using this
  · have := ht m
    rw [h] at this
    simpa [hk] using this
  · rw [h] at hg
    simpa [hk] using hg

/-- Link A at the timeout that loses it. -/
def losing (s : State) : State :=
  s.modLink 0 fun r => { r with state := .up, exchange := some .tapClearAll, failRun := 2 }

/-- Line 0 HELD, its LISTEN of slot 3 served by receiver 0. -/
def served : State :=
  { withListen busy with
      rcvs := Vector.ofFn fun k =>
        if k = 0 then .listening (entry0 (some 3) .supervision) tap0 else .outOfService .hostRequest }

/-- The loss of link A with a receiver CONNECTING there, in each phase. -/
theorem test_witness_linkLoss_connecting :
    ([.queued, .sent, .guarding 0] : List ConnectPhase).map (fun ph =>
        let s := losing (running.setRcv 0 (.connecting (entry0 none .supervision) tap0 ph))
        (lossDue s 0, decide (s.rcv 0 = .connecting (entry0 none .supervision) tap0 ph)))
      = [(true, true), (true, true), (true, true)]
    ∧ ServicesSound (losing (running.setRcv 0 (.connecting (entry0 none .supervision) tap0 .sent))) :=
  ⟨by decide, by apply services_sound_of <;> decide⟩

/-- The loss of link A with an order of each kind in flight on its line 0. -/
theorem test_witness_linkLoss_orders :
    (inProgress (losing (surveyed (activeLine .onHook .opn) 4 0)) 3 0
      ∧ soleContext (losing (surveyed (activeLine .onHook .opn) 4 0)) 3)
    ∧ (inProgress (losing withTest) 3 0 ∧ soleContext (losing withTest) 3)
    ∧ (inProgress (losing tracing0) 3 0 ∧ soleContext (losing tracing0) 3)
    ∧ (inProgress (losing served) 3 0 ∧ soleContext (losing served) 3
        ∧ tagOfLine (losing served) 0 = some 3 ∧ ((losing served).line 0).service = .active
        ∧ isCall ((losing served).line 0).sup = true)
    ∧ [surveyed (activeLine .onHook .opn) 4 0, calibrate running (deciding 1 0), withTest, tracing0, served].all
        (fun s => lossDue (losing s) 0 && decide ((losing s).exch = .running)) = true := by
  refine ⟨⟨⟨rfl, survey0 4 0, by decide, rfl⟩, ?_⟩, ⟨⟨phased 1, by decide, rfl, by decide, rfl, by decide⟩, ?_⟩,
    ⟨⟨traced (.tone 0), rfl, rfl, by decide, rfl⟩, ?_⟩, ⟨rfl, ?_, by decide, by decide, by decide⟩, by decide⟩
  all_goals apply sole_context_of <;> decide

/-- The same of a CALIBRATE, and the states are sound. -/
theorem test_witness_linkLoss_orders_sound :
    (inProgress (losing (calibrate running (deciding 1 0))) 3 0
      ∧ soleContext (losing (calibrate running (deciding 1 0))) 3)
    ∧ (ServicesSound (losing served) ∧ PoolSound (losing served))
    ∧ (ServicesSound (losing withTest) ∧ PoolSound (losing withTest))
    ∧ (ServicesSound (losing tracing0) ∧ PoolSound (losing tracing0))
    ∧ (ServicesSound (losing (calibrate running (deciding 1 0)))
        ∧ PoolSound (losing (calibrate running (deciding 1 0))))
    ∧ ServicesSound (losing (surveyed (activeLine .onHook .opn) 4 0))
    ∧ PoolSound (losing (surveyed (activeLine .onHook .opn) 4 0)) := by
  have h : ∀ m, m ≠ 0 → ((losing (calibrate running (deciding 1 0))).line m).calCtx = none := by decide
  refine ⟨⟨⟨rfl, ⟨deciding 1 0, by decide, rfl, by decide⟩, fun m c hm hc => ?_⟩, ?_⟩, ⟨?_, ?_⟩, ⟨?_, ?_⟩,
    ⟨?_, ?_⟩, ⟨?_, ?_⟩, ?_, ?_⟩
  · rw [h m hm] at hc
    cases hc
  · apply sole_context_of <;> decide
  · apply services_sound_of <;> decide
  · apply pool_sound_of
    · unfold listOrdered; decide
    all_goals decide
  · apply services_sound_of <;> decide
  · exact idle_pool _ rfl (by decide) (by decide) rfl
  · apply services_sound_of <;> decide
  · apply pool_sound_of
    · unfold listOrdered; decide
    all_goals decide
  · apply services_sound_of <;> decide
  · exact idle_pool _ rfl (by decide) (by decide) rfl
  · apply services_sound_of <;> decide
  · exact idle_pool _ rfl (by decide) (by decide) rfl

/-- SURVEY: its buffer at the bounds of the free region, its line, and its bounds of N. -/
theorem test_witness_surveyOrder :
    let s := surveyed (activeLine .onHook .opn) 4 0
    kindOf (order 4 0 0 [0]) = 4 ∧ resultOf (order 4 0 0 [0]) = 0x6900
    ∧ presentLine s (lineOf (order 4 0 0 [0])) = some 0 ∧ (s.line 0).survey.isSome = true
    ∧ (s.line 1).service ≠ .active ∧ param8 (order 4 0 0 [0]) 0 = 0
    ∧ ((sampled (activeLine .onHook .opn)).line 0).survey = none := by decide

/-- INSULATION TEST: parameters at their bounds, a line that may be tested and one that may not, and a link
with a test. -/
theorem test_witness_testOrder :
    let ok := order 7 0 0 [255, 64, 0, 0, 0xFF, 7]
    kindOf ok = 7 ∧ param8 ok 0 = 255 ∧ param8 ok 1 = 64 ∧ param16 ok 4 = 2047
    ∧ param16 (order 7 0 0 [1, 0, 0, 0, 0, 8]) 4 = 2048 ∧ param8 (order 7 0 0 [1, 65]) 1 = 65
    ∧ ((linkA running none).link 0).state = .up ∧ ((linkA running none).line 0).service = .parked
    ∧ ((linkA running none).link 0).test = none ∧ (running.link 0).state ≠ .up
    ∧ ((testing (phased 1)).link 0).test.isSome = true ∧ ((testing (phased 1)).line 1).service = .parked
    ∧ tracing (testing (phased 1)) 1 = false := by decide

/-- CALIBRATE of line 0: taken while its link is UP; busy while it is not; parameters at their bounds. -/
theorem test_witness_calibrateOrder :
    let o := order 5 0 0 [1, 3]
    kindOf o = 5 ∧ maskOf o = 1 ∧ allLines.filter (fun n => (maskOf o).testBit n.1) = [0]
    ∧ param8 o 0 ≠ 0 ∧ param8 o 1 ≤ 3 ∧ param8 (order 5 0 0 [0, 3]) 0 = 0
    ∧ param8 (order 5 0 0 [1, 4]) 1 = 4
    ∧ ((linkA running none).link 0).state = .up ∧ ((linkA running none).line 0).service = .parked
    ∧ ((linkA running none).line 0).cal.status ≠ .override
    ∧ tracing (linkA running none) 0 = false ∧ (running.link 0).state ≠ .up := by decide

/-- LISTEN of line 0: HELD without a receiver; on the list and not; with no receiver FREE, and with one. -/
theorem test_witness_listenOrder :
    let s := line0 (linkA running none) (activeLine .held .closed)
    let out : State := { s with rcvs := Vector.replicate 8 (.outOfService .hostRequest) }
    kindOf (order 9 0 0 [0, 0]) = 9 ∧ presentLine s (lineOf (order 9 0 0 [])) = some 0
    ∧ (s.line 0).service = .active ∧ (s.line 0).sup = .held ∧ (s.line 0).receiver = none
    ∧ (∀ j, (s.slot j).flight = none) ∧ s.waiting = [] ∧ chooseRcv s = some 0 ∧ linkUp s (linkOf 0) = true
    ∧ (∀ j, out.rcv j ≠ .free) ∧ ({ out with waiting := [entry0 none .supervision] }).waiting ≠ []
    ∧ (busy.line 0).receiver ≠ none := by decide

theorem test_witness_listenOrder_sound :
    let s := line0 (linkA running none) (activeLine .held .closed)
    PoolSound s
    ∧ PoolSound { s with rcvs := Vector.replicate 8 (.outOfService .hostRequest),
                         waiting := [entry0 none .supervision] } := by
  refine ⟨idle_pool _ rfl (by decide) (by decide) rfl, ?_⟩
  apply pool_sound_of
  · unfold listOrdered; decide
  all_goals decide

/-- RECEIVER SERVICE: its codes at their bounds, and OUT of the receiver that serves a line. -/
theorem test_witness_serviceOrder :
    kindOf (order 10 0 7 [1]) = 10 ∧ targetOf (order 10 0 7 [1]) = (7 : RcvNo).1
    ∧ targetOf (order 10 0 8 [1]) = 8 ∧ param8 (order 10 0 7 [2]) 0 = 2 ∧ param8 (order 10 0 7 [1]) 0 = 1
    ∧ param8 (order 10 0 0 [0]) 0 = 0 ∧ (∀ i, busy.rcv i ≠ .free)
    ∧ grantedEntry (busy.rcv 0) = some (entry0 none .supervision) ∧ tapHeld (busy.rcv 0) = some tap0
    ∧ busy.rcv 1 = .outOfService .hostRequest ∧ running.waiting = [] := by decide

/-- RECEIVER CHECK of digit 1 at level 15, and its parameters past their bounds. -/
theorem test_witness_checkOrder :
    let o := order 11 0 0 [1, 15, 40, 40, 15]
    kindOf o = 11 ∧ targetOf o = (0 : RcvNo).1 ∧ param8 o 0 = 1 ∧ param8 o 1 = 15 ∧ param8 o 4 = 15
    ∧ param8 (order 11 0 0 [17]) 0 = 17 ∧ param8 (order 11 0 0 [1, 0]) 1 = 0
    ∧ running.rcv 0 = .free ∧ busy.rcv 1 = .outOfService .hostRequest ∧ running.gen.ctx = .none
    ∧ (withTrace running .relayWait).gen.ctx ≠ .none := by decide

/-- TRACE of line 0 at level 15, and its parameters past their bounds. -/
theorem test_witness_traceOrder :
    let o := order 12 0 0 [0, 0, 0, 0, 15, 2, 1]
    kindOf o = 12 ∧ param8 o 4 = 15 ∧ param8 o 5 = 2 ∧ param8 o 6 = 1
    ∧ param8 (order 12 0 0 [0, 0, 0, 0, 16]) 4 = 16 ∧ param8 (order 12 0 0 [0, 0, 0, 0, 1, 3]) 5 = 3
    ∧ ((linkA running none).link 0).state = .up ∧ ((linkA running none).line 0).service = .parked
    ∧ (running.link 0).state ≠ .up ∧ running.gen.ctx = .none := by decide

/-! ### Witnesses: invariants -/

/-- A busy state has every invariant, and a step takes it on. -/
theorem test_witness_invariants_step :
    ServicesSound busy ∧ PoolSound busy ∧ LinksSound busy ∧ memOk busy ∧ updatesEven busy ∧ imagesFit busy
    ∧ detectionIdle busy ∧ numbersFit busy ∧ ∃ t, step busy = .next t := by
  refine ⟨busy_services, busy_pool, ⟨?_, by decide, by decide, by decide, ?_⟩, ?_, ?_, fun _ => ?_, ?_,
    ⟨fun n => ?_, by decide⟩, _, rfl⟩
  · unfold queuesKeyed queueKeyed; decide
  · unfold freshLink; decide
  · unfold memOk; decide
  · unfold updatesEven allLinesHave updateEven; decide
  · unfold allLinesHave; decide
  · unfold detectionIdle; decide
  · have hf : ∀ n, (busy.line n).fault = none := by decide
    have h : ∀ n, (busy.line n).queue.length ≤ 16 ∧ (busy.line n).lost ≤ 65535 ∧ (busy.line n).run ≤ 65535
        ∧ (busy.line n).age ≤ 65535 ∧ (busy.line n).b ≤ 65535 ∧ (busy.line n).make ≤ 65535
        ∧ (busy.line n).firstDigit ≤ Config.max17 ∧ (busy.line n).dialEnd ≤ Config.max17
        ∧ (busy.line n).pulses ≤ 15 ∧ (busy.line n).quiet ≤ Config.quietMax
        ∧ (busy.line n).aVt = 0 ∧ (busy.line n).aVr = 0 ∧ (busy.line n).aI = 0 := by decide
    obtain ⟨a, b, c, d, e, f, g, i, j, k, x, y, z⟩ := h n
    exact ⟨a, b, c, d, e, f, g, i, j, k, fun q hq => absurd hq (by rw [hf]; exact fun h => nomatch h),
      by rw [x]; unfold accFits; decide, by rw [y]; unfold accFits; decide, by rw [z]; unfold accFits; decide⟩

/-! ### Results that the manual gives -/

/-- R148: the eight codes of the receiver check and the worked examples of the formula. -/
theorem test_tone_codes :
    [697, 770, 852, 941, 1209, 1336, 1477, 1633, 500, 1000, 2000].map codeOfHz
      = [2627, 2766, 2894, 3008, 3249, 3330, 3403, 3469, 2048, 3072, 3584] := by decide

/-- R148: 250 Hz at code 0, 4,000 Hz from 3840 on, 1,024,000 / 257 Hz one code below, and 500 Hz at 2048. -/
theorem test_code_frequencies :
    codeHz 0 = 250 ∧ codeHz 3840 = 4000 ∧ codeHz 4095 = 4000 ∧ codeHz 3839 = 1024000 / 257
    ∧ codeHz 2048 = 500 := by
  refine ⟨?_, ?_, ?_, ?_, ?_⟩ <;> norm_num [codeHz, clampFreq]

/-- R165, R49 and R73: the line that loses its receiver, 20, is listed before the line that gains it, 3. -/
theorem test_release_lists_first :
    (dropListen handed 3).rewriteList = [20, 3] ∧ ((dropListen handed 3).line 3).receiver = some 0 := by
  decide +kernel

/-- R165 and R139: at the loss of link A its ACTIVE line 9 is listed before its calibrating line 0. -/
theorem test_loss_lists_by_stage :
    (linkLost ((calibrate running (deciding 1 0)).modLine 9 fun _ => activeLine .onHook .opn) 0).rewriteList
      = [9, 0] := by decide +kernel

/-- R20: the examples of rounding a mean. -/
theorem test_mean_rounds_away : roundDiv (-5) 2 = -3 ∧ roundDiv 5 2 = 3 := by decide

/-- R99: the table of resistances. -/
theorem test_ohm_table :
    [ohm 384 12, ohm (-384) 96, ohm 384 7, ohm (-200) 1500, ohm 384 0, ohm 2047 1, ohm 0 25].map
        (fun p => (p.r, p.high))
      = [(4000, false), (500, false), (6857, false), (16, false), (50000, true), (50000, true),
         (0, false)] := by decide

/-- R38: the table of the numberings, counts 1, 9, 10 and 11. -/
theorem test_pulse_symbols :
    [1, 9, 10, 11].map (pulseSymbol .direct) = [.digit 1, .digit 9, .digit 0, .invalid]
    ∧ [1, 9, 10, 11].map (pulseSymbol .offset) = [.digit 0, .digit 8, .digit 9, .invalid]
    ∧ [1, 9, 10, 11].map (pulseSymbol .inverse) = [.digit 9, .digit 1, .digit 0, .invalid] := by decide

/-- R57: a corner of the keypad in each row. -/
theorem test_keypad_rows :
    [keypad 0 3, keypad 1 2, keypad 2 0, keypad 3 1] = [.a, .digit 6, .digit 7, .digit 0] := by decide

/-- R137: 33 recovery frames for 16 pairs, 17 for 8. -/
theorem test_recovery_lengths :
    (recoveryFrames State.reset 0 16).length = 33 ∧ (recoveryFrames State.reset 0 8).length = 17 := by
  decide

/-- R9 and R13: one scan of a SETTLING line seeds it and finds the loop open. -/
theorem test_seeding_scan :
    let r := (activeScan (sampled { activeLine .settling .none with seedPending := true }) 0 openLoop).line 0
    (r.aVr, r.candidate, r.run) = (-16 * 384, some .opn, 1) := by decide

end Sys2Proof.Tests
end

section
/-! SUPPORT. What the supervision of a scan and the sending of frames leave alone: supervision moves a line's
call, its receiver, its fault record and its scan rate, and of a link only what waits to be sent; sending a frame
changes no line at all. -/

namespace Sys2Proof.Machine

/-! ### The views -/

/-- A line's record without what supervision, the pool and the marks move. -/
def LineRec.unsupervised (r : LineRec) : LineRec :=
  { r with sup := .none, ret := none, b := 0, make := 0, firstDigit := 0, dialEnd := 0, pulses := 0,
           pulseSeen := false, receiver := none, queue := [], lost := 0, lossPending := false,
           changePending := false, fault := none, rate := .full, quiet := 0 }

/-- A link's record without what it has to send and what it has sent. -/
def LinkRec.standing (r : LinkRec) : LinkRec :=
  { r with queue := [], retry := none, exchange := none, controlMade := 0, controlOver := false,
           toSample := [] }

/-- The lines and the links without what supervision and sending move. -/
def State.unsupervised (s : State) : Vector LineRec 64 × Vector LinkRec 4 :=
  (s.lines.map LineRec.unsupervised, s.links.map LinkRec.standing)

theorem line_unsupervised {s t : State} (h : t.unsupervised = s.unsupervised) (n : LineNo) :
    (t.line n).unsupervised = (s.line n).unsupervised := by
  have := congrArg (fun v => v.1[n.1]) h
  simpa [State.unsupervised, State.line] using this

theorem link_standing {s t : State} (h : t.unsupervised.2 = s.unsupervised.2) (l : LinkNo) :
    (t.link l).standing = (s.link l).standing := by
  have := congrArg (fun v => v[l.1]) h
  simpa [State.unsupervised, State.link] using this

/-- An update of a line that moves only what supervision moves. -/
theorem modLine_unsupervised (s : State) (n : LineNo) {f : LineRec → LineRec}
    (hf : (f (s.line n)).unsupervised = (s.line n).unsupervised) :
    (s.modLine n f).unsupervised = s.unsupervised := by
  have h : (s.lines.set n.1 (f (s.line n)) n.2).map LineRec.unsupervised = s.lines.map LineRec.unsupervised := by
    ext i hi : 1
    by_cases e : n.1 = i
    · subst e; simpa [State.line] using hf
    · simp [e]
  exact Prod.ext h rfl

/-- An update of a link that moves only what it has to send and what it has sent. -/
theorem modLink_unsupervised (s : State) (l : LinkNo) {f : LinkRec → LinkRec}
    (hf : (f (s.link l)).standing = (s.link l).standing) :
    (s.modLink l f).unsupervised = s.unsupervised := by
  have h : (s.links.set l.1 (f (s.link l)) l.2).map LinkRec.standing = s.links.map LinkRec.standing := by
    ext i hi : 1
    by_cases e : l.1 = i
    · subst e; simpa [State.link] using hf
    · simp [e]
  exact Prod.ext rfl h

@[simp] theorem setRcv_unsupervised (s : State) (k : RcvNo) (r : RcvState) :
    (s.setRcv k r).unsupervised = s.unsupervised := rfl

@[simp] theorem finish_unsupervised (s : State) (k : SlotNo) (o : OrderOutcome) (r : Reason) (d : List Nat) :
    (finish s k o r d).unsupervised = s.unsupervised := by
  unfold finish endOrder
  split <;> rfl

@[simp] theorem placeFrame_unsupervised (s : State) (l : LinkNo) (f : Frame) :
    (placeFrame s l f).unsupervised = s.unsupervised := by
  unfold placeFrame
  split
  · exact modLink_unsupervised s l rfl
  · rfl

@[simp] theorem withdrawFrame_unsupervised (s : State) (l : LinkNo) (f : Frame) :
    (withdrawFrame s l f).unsupervised = s.unsupervised := modLink_unsupervised s l rfl

@[simp] theorem placeRelay_unsupervised (s : State) (n : LineNo) (cfg : RelayCfg) (o : RelayOwner) :
    (placeRelay s n cfg o).unsupervised = s.unsupervised := placeFrame_unsupervised s _ _

@[simp] theorem faultEvent_unsupervised (s : State) (n : LineNo) (kind : Cls) :
    (faultEvent s n kind).unsupervised = s.unsupervised := modLine_unsupervised s n rfl

@[simp] theorem restoreFault_unsupervised (s : State) (n : LineNo) :
    (restoreFault s n).unsupervised = s.unsupervised := modLine_unsupervised s n rfl

@[simp] theorem restoreMinor_unsupervised (s : State) (n : LineNo) :
    (restoreMinor s n).unsupervised = s.unsupervised := modLine_unsupervised s n rfl

@[simp] theorem updatePeak_unsupervised (s : State) (n : LineNo) :
    (updatePeak s n).unsupervised = s.unsupervised := modLine_unsupervised s n rfl

/-! ### The pool -/

@[simp] theorem setReceiver_unsupervised (s : State) (n : LineNo) (k : Option RcvNo) :
    (setReceiver s n k).unsupervised = s.unsupervised := by
  rw [setReceiver_eq]
  split
  · rfl
  · exact modLine_unsupervised s n (f := fun r => { r with receiver := k, changePending := true }) rfl

@[simp] theorem grant_unsupervised (s : State) (e : WaitEntry) (k : RcvNo) :
    (grant s e k).unsupervised = s.unsupervised := by
  unfold grant
  rw [placeFrame_unsupervised, setReceiver_unsupervised]
  split <;> rfl

@[simp] theorem grantLoop_unsupervised (k : Nat) (s : State) :
    (grantLoop k s).unsupervised = s.unsupervised := by
  induction k generalizing s with
  | zero => rfl
  | succ k ih =>
    unfold grantLoop
    split
    · rw [ih, grant_unsupervised]; rfl
    · rfl

@[simp] theorem grantTest_unsupervised (s : State) : (grantTest s).unsupervised = s.unsupervised :=
  grantLoop_unsupervised 8 s

@[simp] theorem join_unsupervised (s : State) (n : LineNo) : (join s n).unsupervised = s.unsupervised := by
  unfold join
  split
  · exact grantTest_unsupervised _
  · rfl

@[simp] theorem releaseRcv_unsupervised (s : State) (k : RcvNo) (out : Bool) :
    (releaseRcv s k out).unsupervised = s.unsupervised := by
  unfold releaseRcv
  repeat' first
    | simp only [setRcv_unsupervised, placeFrame_unsupervised, withdrawFrame_unsupervised,
        setReceiver_unsupervised]
    | split

@[simp] theorem release_unsupervised (s : State) (k : RcvNo) : (release s k).unsupervised = s.unsupervised := by
  rw [release, grantTest_unsupervised, releaseRcv_unsupervised]

@[simp] theorem removeWaiting_unsupervised (s : State) (n : LineNo) :
    (removeWaiting s n).unsupervised = s.unsupervised := rfl

@[simp] theorem surrender_unsupervised (s : State) (n : LineNo) :
    (surrender s n).unsupervised = s.unsupervised := by
  unfold surrender finishListen
  repeat' first
    | simp only [finish_unsupervised, removeWaiting_unsupervised, release_unsupervised]
    | split

@[simp] theorem policyRelease_unsupervised (s : State) (n : LineNo) :
    (policyRelease s n).unsupervised = s.unsupervised := by
  unfold policyRelease
  repeat' first
    | simp only [removeWaiting_unsupervised, release_unsupervised]
    | split

/-! ### Supervision -/

@[simp] theorem setFull_unsupervised (s : State) (n : LineNo) : (setFull s n).unsupervised = s.unsupervised :=
  modLine_unsupervised s n rfl

@[simp] theorem leaveCall_unsupervised (s : State) (n : LineNo) (was : Sup) :
    (leaveCall s n was).unsupervised = s.unsupervised := by
  unfold leaveCall
  split
  · exact surrender_unsupervised s n
  · rfl

@[simp] theorem queueEntry_unsupervised (s : State) (n : LineNo) (sym : Symbol) (src : Source) (p : Nat) :
    (queueEntry s n sym src p).unsupervised = s.unsupervised :=
  modLine_unsupervised s n (by unfold pushEntry; split <;> rfl)

@[simp] theorem completeDigit_unsupervised (s : State) (n : LineNo) :
    (completeDigit s n).unsupervised = s.unsupervised := by
  have h1 : ((queueEntry s n (pulseSymbol (s.conv n).numbering (s.line n).pulses) .pulse
      (s.line n).pulses).modLine n fun r => { r with pulses := 0, dialEnd := 0 }).unsupervised
      = s.unsupervised := (modLine_unsupervised _ n rfl).trans (queueEntry_unsupervised s n _ _ _)
  unfold completeDigit
  dsimp only
  split
  · exact h1
  split
  · exact (policyRelease_unsupervised _ n).trans ((modLine_unsupervised _ n rfl).trans h1)
  · exact (modLine_unsupervised _ n rfl).trans h1

@[simp] theorem enterOnHook_unsupervised (s : State) (n : LineNo) :
    (enterOnHook s n).unsupervised = s.unsupervised := by
  refine (leaveCall_unsupervised _ n _).trans ?_
  split
  · exact (faultEvent_unsupervised _ n .leak).trans (modLine_unsupervised s n rfl)
  · exact modLine_unsupervised s n rfl

@[simp] theorem enterLockout_unsupervised (s : State) (n : LineNo) :
    (enterLockout s n).unsupervised = s.unsupervised :=
  (leaveCall_unsupervised _ n _).trans (modLine_unsupervised s n rfl)

@[simp] theorem enterFault_unsupervised (s : State) (n : LineNo) (kind : Cls) :
    (enterFault s n kind).unsupervised = s.unsupervised := by
  rw [enterFault, leaveCall_unsupervised, faultEvent_unsupervised, setFull_unsupervised]
  exact modLine_unsupervised s n rfl

@[simp] theorem seize_unsupervised (s : State) (n : LineNo) (a : Nat) :
    (seize s n a).unsupervised = s.unsupervised := by
  have h := (setFull_unsupervised (s.modLine n fun r => { r with sup := .seized, firstDigit := a, make := a })
    n).trans (modLine_unsupervised s n rfl)
  unfold seize
  dsimp only
  split
  · exact (join_unsupervised _ n).trans h
  · exact h

@[simp] theorem flash_unsupervised (s : State) (n : LineNo) : (flash s n).unsupervised = s.unsupervised := by
  have h : ((queueEntry s n .flash .hook 0).modLine n fun r =>
      { r with sup := .seized, ret := none, firstDigit := 0, pulseSeen := false }).unsupervised
      = s.unsupervised := (modLine_unsupervised _ n rfl).trans (queueEntry_unsupervised s n _ _ _)
  unfold flash
  dsimp only
  split
  · exact (join_unsupervised _ n).trans h
  · exact h

@[simp] theorem endBreak_unsupervised (s : State) (n : LineNo) : (endBreak s n).unsupervised = s.unsupervised :=
  modLine_unsupervised s n rfl

@[simp] theorem judgeMake_unsupervised (s : State) (n : LineNo) (m : Nat) :
    (judgeMake s n m).unsupervised = s.unsupervised := by
  unfold judgeMake
  extract_lets p d s1 s2
  have h1 : s1.unsupervised = s.unsupervised := modLine_unsupervised s n rfl
  have h2 : s2.unsupervised = s.unsupervised := by
    show (if _ then _ else _ : State).unsupervised = _
    split
    · exact (completeDigit_unsupervised s1 n).trans h1
    · exact h1
  clear_value s2
  rw [← h2]
  split
  · exact endBreak_unsupervised s2 n
  split
  · exact modLine_unsupervised s2 n rfl
  split
  · exact flash_unsupervised s2 n
  · exact (endBreak_unsupervised _ n).trans (queueEntry_unsupervised s2 n _ _ _)

@[simp] theorem acceptInCall_unsupervised (s : State) (n : LineNo) (from_ : Ret) (c : Cls) (a : Nat) :
    (acceptInCall s n from_ c a).unsupervised = s.unsupervised := by
  unfold acceptInCall
  split
  · exact modLine_unsupervised s n rfl
  split
  · exact enterFault_unsupervised s n c
  · rfl

@[simp] theorem transition_unsupervised (s : State) (n : LineNo) (c : Cls) (a : Nat) :
    (transition s n c a).unsupervised = s.unsupervised := by
  unfold transition
  repeat' first
    | simp only [enterOnHook_unsupervised, enterLockout_unsupervised, enterFault_unsupervised,
        seize_unsupervised, judgeMake_unsupervised, acceptInCall_unsupervised, faultEvent_unsupervised,
        restoreFault_unsupervised]
    | exact modLine_unsupervised s n rfl
    | split

@[simp] theorem takeAcceptance_unsupervised (s : State) (n : LineNo) (old c : Cls) (a : Nat) :
    (takeAcceptance s n old c a).unsupervised = s.unsupervised := by
  unfold takeAcceptance
  extract_lets s1
  have h1 : s1.unsupervised = s.unsupervised := by
    show (if _ then _ else _ : State).unsupervised = _
    split
    · exact restoreMinor_unsupervised s n
    · rfl
  clear_value s1
  rw [← h1]
  split
  · unfold lockoutOpen
    split
    · exact modLine_unsupervised s1 n rfl
    · rfl
  · exact transition_unsupervised s1 n c a

@[simp] theorem dialEndTimesOut_unsupervised (s : State) (n : LineNo) :
    (dialEndTimesOut s n).unsupervised = s.unsupervised := by
  unfold dialEndTimesOut
  extract_lets s1 s2
  have h1 : s1.unsupervised = s.unsupervised := by
    show (if _ then _ else _ : State).unsupervised = _
    split
    · exact completeDigit_unsupervised s n
    · rfl
  have h2 : s2.unsupervised = s.unsupervised := (modLine_unsupervised s1 n rfl).trans h1
  clear_value s2
  split
  · exact (policyRelease_unsupervised s2 n).trans h2
  · exact h2

@[simp] theorem limitsInBreak_unsupervised (s : State) (n : LineNo) :
    (limitsInBreak s n).unsupervised = s.unsupervised := by
  unfold limitsInBreak
  repeat' first
    | simp only [completeDigit_unsupervised, enterOnHook_unsupervised, enterLockout_unsupervised]
    | split

@[simp] theorem limitsInDialling_unsupervised (s : State) (n : LineNo) :
    (limitsInDialling s n).unsupervised = s.unsupervised := by
  unfold limitsInDialling
  repeat' first
    | simp only [completeDigit_unsupervised, dialEndTimesOut_unsupervised]
    | split

@[simp] theorem testLimits_unsupervised (s : State) (n : LineNo) :
    (testLimits s n).unsupervised = s.unsupervised := by
  unfold testLimits
  repeat' first
    | simp only [limitsInBreak_unsupervised, limitsInDialling_unsupervised, enterOnHook_unsupervised,
        enterLockout_unsupervised]
    | split

@[simp] theorem advanceCounters_unsupervised (acc : Cls) (r : LineRec) :
    (advanceCounters acc r).unsupervised = r.unsupervised := by
  unfold advanceCounters
  dsimp only
  split
  case h_5 => split <;> rfl
  all_goals rfl

/-- The end of a trace and the quiet counter of a scan, too, move nothing else. -/
@[simp] theorem abortTraceOn_unsupervised (s : State) (n : LineNo) (r : Reason) :
    (abortTraceOn s n r).unsupervised = s.unsupervised := by
  unfold abortTraceOn endTrace finishTrace
  split
  · split
    · split
      · rfl
      · refine Eq.trans (b := (placeRelay _ _ _ _).unsupervised) rfl ?_
        exact (placeRelay_unsupervised _ _ _ _).trans (finish_unsupervised _ _ _ _ _)
    · rfl
  · rfl

@[simp] theorem quietScan_unsupervised (s : State) (n : LineNo) (raw : Cls) :
    (quietScan s n raw).unsupervised = s.unsupervised := by
  unfold quietScan
  split
  · exact setFull_unsupervised s n
  split
  · exact modLine_unsupervised s n rfl
  · rfl

/-! ### Sending -/

/-- Two updates of one link are one. -/
theorem State.modLink_modLink (s : State) (l : LinkNo) (f g : LinkRec → LinkRec) :
    (s.modLink l f).modLink l g = s.modLink l fun r => g (f r) := by
  simp [State.modLink, State.link]

/-- A link's record after the SAMPLE of its next pair that passes a test is sent, if one is left (R143). -/
def LinkRec.nextSample (ok : PairNo → Bool) (r : LinkRec) : LinkRec :=
  { r with exchange := ((r.toSample.find? ok).map Frame.sample).or r.exchange,
           toSample := (r.toSample.dropWhile fun p => !ok p).tail }

theorem sendSample_eq (s : State) (l : LinkNo) :
    sendSample s l = s.modLink l (LinkRec.nextSample fun p => eligible s (lineAt l p)) := by
  unfold sendSample LinkRec.nextSample State.modLink
  simp only [List.find?_eq_head?_dropWhile_not]
  split
  · next h => rw [h]; rfl
  · next h => rw [h]; rfl

/-- Whether a line may have a scan rests on no link's sending. -/
theorem eligible_modLink (s : State) (l : LinkNo) {f : LinkRec → LinkRec}
    (hf : (f (s.link l)).standing = (s.link l).standing) (n : LineNo) :
    eligible (s.modLink l f) n = eligible s n := by
  have h := link_standing (congrArg Prod.snd (modLink_unsupervised s l hf)) (linkOf n)
  have ha : absent (s.modLink l f) n = absent s n :=
    (congrArg (fun r : LinkRec => decide (r.pairCount = 8) && decide (8 ≤ (pairOf n).1)) h :)
  have hm : restoredMark (s.modLink l f) n = restoredMark s n :=
    (congrArg (fun r : LinkRec => r.restored[(pairOf n).1]'(pairOf n).2) h :)
  unfold eligible serviced
  rw [ha, hm]
  rfl

/-- The end of a period's control phase: the next SAMPLE is sent (R141, R143). -/
theorem endControl_eq (s : State) (l : LinkNo) :
    endControl s l = s.modLink l fun r =>
      LinkRec.nextSample (fun p => eligible s (lineAt l p)) { r with controlOver := true } := by
  have he : ∀ n, eligible (s.modLink l fun r => { r with controlOver := true }) n = eligible s n :=
    fun n => eligible_modLink s l rfl n
  rw [endControl, sendSample_eq, State.modLink_modLink]
  simp only [he]

/-- A receiver told that its TAP CONNECT is taken is all that changes then (R75). -/
theorem frameTaken_frame (s : State) (f : Frame) :
    { frameTaken s f with rcvs := s.rcvs, dets := s.dets } = s := by
  unfold frameTaken tapTaken
  repeat' first | rfl | split

theorem sendControl_modLink (s : State) (l : LinkNo) (g : LinkRec → LinkRec) (f : Frame) :
    sendControl (s.modLink l g) l f
      = s.modLink l fun r => { g r with exchange := some f, controlMade := (g r).controlMade + 1 } :=
  State.modLink_modLink s l g _

/-- The next exchange of a link changes that link's record of what it sends, and a receiver that it serves. -/
theorem advanceLink_sends (s : State) (l : LinkNo) :
    ∃ f : LinkRec → LinkRec, (∀ r, (f r).standing = r.standing)
      ∧ { advanceLink s l with rcvs := s.rcvs, dets := s.dets } = s.modLink l f := by
  have hend : ∃ f : LinkRec → LinkRec, (∀ r, (f r).standing = r.standing)
      ∧ { endControl s l with rcvs := s.rcvs, dets := s.dets } = s.modLink l f := by
    rw [endControl_eq]
    exact ⟨fun r => LinkRec.nextSample (fun p => eligible s (lineAt l p)) { r with controlOver := true },
      fun _ => rfl, rfl⟩
  unfold advanceLink
  dsimp only
  split
  · split
    · exact hend
    split
    · next f _ =>
      refine ⟨fun r => { r with retry := none, exchange := some f, controlMade := r.controlMade + 1 },
        fun _ => rfl, ?_⟩
      rw [sendControl_modLink]
      rfl
    · next f rest _ _ =>
      refine ⟨fun r => { r with queue := rest, exchange := some f, controlMade := r.controlMade + 1 },
        fun _ => rfl, ?_⟩
      exact (frameTaken_frame _ f).trans (sendControl_modLink s l _ f)
    · exact hend
  · exact ⟨id, fun _ => rfl, by simp [State.modLink, State.link]⟩

theorem advanceLink_frame (s : State) (l : LinkNo) :
    { advanceLink s l with links := s.links, rcvs := s.rcvs, dets := s.dets } = s := by
  obtain ⟨f, -, h⟩ := advanceLink_sends s l
  exact (congrArg (fun u : State => { u with links := s.links }) h :)

@[simp] theorem advanceLink_lines (s : State) (l : LinkNo) : (advanceLink s l).lines = s.lines :=
  (congrArg State.lines (advanceLink_frame s l) :)

@[simp] theorem advanceLink_line (s : State) (l : LinkNo) (n : LineNo) :
    (advanceLink s l).line n = s.line n := by
  simp [State.line]

@[simp] theorem advanceLink_slots (s : State) (l : LinkNo) : (advanceLink s l).slots = s.slots :=
  (congrArg State.slots (advanceLink_frame s l) :)

@[simp] theorem advanceLink_slot (s : State) (l : LinkNo) (k : SlotNo) :
    (advanceLink s l).slot k = s.slot k := by
  simp [State.slot]

theorem advanceLink_link_other (s : State) {l m : LinkNo} (h : m ≠ l) :
    (advanceLink s l).link m = s.link m := by
  obtain ⟨f, -, hf⟩ := advanceLink_sends s l
  exact ((congrArg (fun u : State => u.link m) hf :)).trans (State.link_modLink_other s h f)

@[simp] theorem advanceLink_standing (s : State) (l m : LinkNo) :
    ((advanceLink s l).link m).standing = (s.link m).standing := by
  obtain ⟨f, hs, hf⟩ := advanceLink_sends s l
  have h : (advanceLink s l).link m = (s.modLink l f).link m := (congrArg (fun u : State => u.link m) hf :)
  rw [h]
  exact link_standing (congrArg Prod.snd (modLink_unsupervised s l (hs _))) m

/-- Once the control exchanges of a period are over an UP link without an exchange sends its next SAMPLE (R141). -/
theorem advanceLink_controlOver {s : State} {l : LinkNo} (hup : (s.link l).state = .up)
    (hx : (s.link l).exchange = none) (ho : (s.link l).controlOver = true) :
    advanceLink s l = endControl s l := by
  simp [advanceLink, hup, hx, ho]

end Sys2Proof.Machine
end

section
/-! SUPPORT. Every operation keeps the numbers of the lines and the protocol error count in their ranges
(R9, R22, R89, R144, R158, R159, R161): one lemma an operation, in the order of the model's files. -/

namespace Sys2Proof.Machine

variable {s t : State}

/-! ### Updates of the records -/

/-- The ranges say nothing of a line's receiver field and mark. -/
theorem LineFits.of_noRcv {a b : LineRec} (h : LineFits b) (e : a.noRcv = b.noRcv) : LineFits a := by
  rw [eq_of_noRcv e]
  exact { h with }

/-- An operation that changes of the lines at most receiver fields and marks, and keeps the engine's part, keeps
the numbers in range. -/
theorem numbersFit.of_noRcv (h : numbersFit s) (hl : ∀ m, (t.line m).noRcv = (s.line m).noRcv)
    (he : t.engine = s.engine) : numbersFit t := by
  refine ⟨fun m => (h.1 m).of_noRcv (hl m), ?_⟩
  have hp : t.protocolErrors = s.protocolErrors := congrArg Engine.protocolErrors he
  exact hp ▸ h.2

/-- An update of one line that keeps its record in range keeps the numbers in range. -/
theorem numbersFit.modLine (h : numbersFit s) (n : LineNo) {f : LineRec → LineRec}
    (hf : ∀ r, LineFits r → LineFits (f r)) : numbersFit (s.modLine n f) := by
  refine ⟨fun m => ?_, h.2⟩
  rw [State.line_modLine_ite]
  split
  · exact hf _ (h.1 n)
  · exact h.1 m

/-- Steps over a list in turn, each of which keeps the numbers in range, keep them so. -/
theorem numbersFit.foldl {α : Type} {f : State → α → State} (hf : ∀ s x, numbersFit s → numbersFit (f s x))
    (l : List α) (h : numbersFit s) : numbersFit (l.foldl f s) :=
  List.foldlRecOn l f h fun s hs x _ => hf s x hs

/-! ### Marks -/

theorem markImage_fits (h : numbersFit s) (n : LineNo) : numbersFit (markImage s n) := by
  rw [markImage_eq]
  exact h.modLine n (f := fun r => { r with changePending := true }) fun _ hr => { hr with }

theorem markPace_fits (h : numbersFit s) (n : LineNo) : numbersFit (markPace s n) := by
  rw [markPace_eq]
  exact h.modLine n (f := fun r => { r with pacePending := true }) fun _ hr => { hr with }

theorem markChanges_fits {a : State} (h : numbersFit s) : numbersFit (markChanges a s) :=
  h.of_noRcv (fun m => by rw [markChanges_line]; rfl) (markChanges_engine a s)

theorem eachLine_fits {f : State → LineNo → State} (hf : ∀ s n, numbersFit s → numbersFit (f s n))
    (h : numbersFit s) (l : List LineNo) : numbersFit (eachLine f l s) := by
  refine h.foldl (fun s n hs => ?_) l
  split
  · exact markImage_fits (hf s n hs) n
  · exact hf s n hs

/-! ### Fault records -/

/-- A fault event leaves a count of occurrences from 1 to 255 (R89, R90). -/
theorem recordFault_occurrences (kind : Cls) (t : Word) (m : Int) (o : Option FaultRec)
    (h : ∀ f, o = some f → 1 ≤ f.occurrences ∧ f.occurrences ≤ 255) :
    1 ≤ (recordFault kind t m o).occurrences ∧ (recordFault kind t m o).occurrences ≤ 255 := by
  cases o with
  | none => simp [recordFault]
  | some f =>
    have := h f rfl
    simp only [recordFault, satInc]
    omega

/-- A change of a fault record that keeps its count of occurrences keeps the count in range. -/
theorem mapFault_occurrences {o : Option FaultRec} {g : FaultRec → FaultRec}
    (hg : ∀ f, (g f).occurrences = f.occurrences)
    (h : ∀ f, o = some f → 1 ≤ f.occurrences ∧ f.occurrences ≤ 255) :
    ∀ f, o.map g = some f → 1 ≤ f.occurrences ∧ f.occurrences ≤ 255 := by
  intro f hf
  obtain ⟨x, hx, rfl⟩ := Option.map_eq_some_iff.1 hf
  rw [hg]
  exact h x hx

theorem faultEvent_fits (h : numbersFit s) (n : LineNo) (kind : Cls) : numbersFit (faultEvent s n kind) :=
  h.modLine n fun _ hr => { hr with
    faults := fun f hf => by
      obtain rfl := Option.some.inj hf
      exact recordFault_occurrences _ _ _ _ hr.faults }

theorem restoreFault_fits (h : numbersFit s) (n : LineNo) : numbersFit (restoreFault s n) :=
  h.modLine n fun _ hr => { hr with faults := mapFault_occurrences (fun _ => rfl) hr.faults }

theorem restoreMinor_fits (h : numbersFit s) (n : LineNo) : numbersFit (restoreMinor s n) :=
  h.modLine n fun _ hr => { hr with
    faults := mapFault_occurrences (fun f => by split <;> rfl) hr.faults }

theorem updatePeak_fits (h : numbersFit s) (n : LineNo) : numbersFit (updatePeak s n) :=
  h.modLine n fun _ hr => { hr with
    faults := mapFault_occurrences (fun f => by split <;> rfl) hr.faults }

/-! ### Supervision -/

theorem LineFits.clearCounters {r : LineRec} (h : LineFits r) : LineFits (clearCounters r) :=
  { h with breakCounter := Nat.zero_le _, make := Nat.zero_le _, firstDigit := Nat.zero_le _,
           dialEnd := Nat.zero_le _, pulses := Nat.zero_le _ }

theorem LineFits.pushEntry {r : LineRec} (h : LineFits r) (sym : Symbol) (src : Source) (n : Nat) (t : Word) :
    LineFits (pushEntry r sym src n t) := by
  have hq := pushEntry_length h.queue sym src n t
  rcases le_or_gt Config.queueMax r.queue.length with hf | hf
  · rw [pushEntry_full hf]
    exact { h with lost := satInc_le _ _ }
  · rw [pushEntry_room hf] at hq ⊢
    exact { h with queue := hq }

/-- Stage 1 keeps every counter at or below its bound (R22, R23). -/
theorem LineFits.advanceCounters {r : LineRec} (h : LineFits r) (acc : Cls) :
    LineFits (advanceCounters acc r) := by
  unfold Machine.advanceCounters
  cases r.sup with
  | seized => exact { h with make := satInc_le _ _, firstDigit := satInc_le _ _ }
  | dialling => exact { h with make := satInc_le _ _, dialEnd := satInc_le _ _ }
  | held => exact { h with make := satInc_le _ _ }
  | brk =>
    have hfd : (if r.ret = some .seized then satInc Config.max17 r.firstDigit else r.firstDigit)
        ≤ Config.max17 := by
      split
      · exact satInc_le _ _
      · exact h.firstDigit
    exact { h with breakCounter := satInc_le _ _, firstDigit := hfd }
  | lockout =>
    dsimp only
    split
    · exact { h with breakCounter := satInc_le _ _ }
    · exact h
  | _ => exact h

theorem setFull_fits (h : numbersFit s) (n : LineNo) : numbersFit (setFull s n) :=
  h.modLine n fun _ hr => { hr with quiet := Nat.zero_le _ }

theorem leaveCall_fits (h : numbersFit s) (n : LineNo) (was : Sup) : numbersFit (leaveCall s n was) :=
  h.of_noRcv (fun m => leaveCall_noRcv s n was m) (leaveCall_engine s n was)

theorem policyRelease_fits (h : numbersFit s) (n : LineNo) : numbersFit (policyRelease s n) :=
  h.of_noRcv (fun m => policyRelease_noRcv s n m) (policyRelease_engine s n)

theorem join_fits (h : numbersFit s) (n : LineNo) : numbersFit (join s n) :=
  h.of_noRcv (fun m => join_noRcv s n m) (join_engine s n)

theorem queueEntry_fits (h : numbersFit s) (n : LineNo) (sym : Symbol) (src : Source) (p : Nat) :
    numbersFit (queueEntry s n sym src p) :=
  h.modLine n fun _ hr => hr.pushEntry sym src p s.time

theorem completeDigit_fits (h : numbersFit s) (n : LineNo) : numbersFit (completeDigit s n) := by
  have h1 := (queueEntry_fits h n (pulseSymbol (s.conv n).numbering (s.line n).pulses) .pulse
    (s.line n).pulses).modLine n (f := fun r => { r with pulses := 0, dialEnd := 0 })
      fun _ hr => { hr with pulses := Nat.zero_le _, dialEnd := Nat.zero_le _ }
  have h2 := h1.modLine n (f := fun r => { r with pulseSeen := true }) fun _ hr => { hr with }
  unfold completeDigit
  dsimp only
  split
  · exact h1
  split
  · exact policyRelease_fits h2 n
  · exact h2

theorem enterOnHook_fits (h : numbersFit s) (n : LineNo) : numbersFit (enterOnHook s n) := by
  have h1 := h.modLine n (f := fun r => { clearCounters r with
      sup := .onHook, pulseSeen := false, quiet := 0,
      rate := if s.economy && !quietHeld r then .quiet else .full })
    fun r hr => { hr.clearCounters with quiet := Nat.zero_le _ }
  refine leaveCall_fits ?_ n _
  split
  · exact faultEvent_fits h1 n .leak
  · exact h1

theorem enterLockout_fits (h : numbersFit s) (n : LineNo) : numbersFit (enterLockout s n) := by
  refine leaveCall_fits (h.modLine n fun r hr => ?_) n _
  have hb : (if r.accepted = .closed then 0 else r.b) ≤ Config.max16 := by
    split
    · exact Nat.zero_le _
    · exact hr.breakCounter
  exact { hr with make := Nat.zero_le _, firstDigit := Nat.zero_le _, dialEnd := Nat.zero_le _,
                  pulses := Nat.zero_le _, breakCounter := hb }

theorem enterFault_fits (h : numbersFit s) (n : LineNo) (kind : Cls) : numbersFit (enterFault s n kind) := by
  have h1 := h.modLine n (f := fun r => { clearCounters r with sup := .fault, pulseSeen := false })
    fun r hr => { hr.clearCounters with }
  exact leaveCall_fits (faultEvent_fits (setFull_fits h1 n) n kind) n _

theorem enterUnsensed_fits (h : numbersFit s) (n : LineNo) : numbersFit (enterUnsensed s n) := by
  have h1 := h.modLine n
    (f := fun r => { clearCounters r with sup := .unsensed, pulseSeen := false, candidate := none, run := 0 })
    fun r hr => { hr.clearCounters with run := Nat.zero_le _ }
  exact leaveCall_fits (restoreFault_fits (setFull_fits h1 n) n) n _

theorem enterSettling_fits (h : numbersFit s) (n : LineNo) : numbersFit (enterSettling s n) := by
  have h1 := h.modLine n
    (f := fun r => { clearCounters r with
      sup := .settling, pulseSeen := false, seedPending := true, candidate := none, run := 0, accepted := .none })
    fun r hr => { hr.clearCounters with run := Nat.zero_le _ }
  unfold enterSettling
  split
  · exact leaveCall_fits (restoreFault_fits (setFull_fits h1 n) n) n _
  · exact enterUnsensed_fits h n

theorem unschedule_fits (h : numbersFit s) (n : LineNo) : numbersFit (unschedule s n) := h

theorem parkLine_fits (h : numbersFit s) (n : LineNo) : numbersFit (parkLine s n) := by
  have h1 := h.modLine n
    (f := fun r => { clearCounters r with
      sup := .none, service := .parked, candidate := none, run := 0, accepted := .none })
    fun r hr => { hr.clearCounters with run := Nat.zero_le _ }
  exact leaveCall_fits (unschedule_fits (restoreFault_fits (setFull_fits h1 n) n) n) n _

theorem suspendLine_fits (h : numbersFit s) (n : LineNo) (sv : Service) : numbersFit (suspendLine s n sv) := by
  have h1 := h.modLine n (f := fun r => { clearCounters r with sup := .suspended, service := sv })
    fun r hr => { hr.clearCounters with }
  exact restoreFault_fits (setFull_fits h1 n) n

theorem releaseLine_fits (h : numbersFit s) (n : LineNo) (toActive : Bool) :
    numbersFit (releaseLine s n toActive) := by
  unfold releaseLine
  split
  · exact enterSettling_fits
      (h.modLine n (f := fun r => { r with service := .active }) fun _ hr => { hr with }) n
  · refine unschedule_fits (h.modLine n fun r hr => ?_) n
    exact { hr with run := Nat.zero_le _ }

theorem max16_le_max17 {a : Nat} (h : a ≤ Config.max16) : a ≤ Config.max17 :=
  h.trans (by decide)

theorem seize_fits (h : numbersFit s) (n : LineNo) {a : Nat} (ha : a ≤ Config.max16) :
    numbersFit (seize s n a) := by
  have h1 := setFull_fits (h.modLine n (f := fun r => { r with sup := .seized, firstDigit := a, make := a })
    fun _ hr => { hr with firstDigit := max16_le_max17 ha, make := ha }) n
  unfold seize
  dsimp only
  split
  · exact join_fits h1 n
  · exact h1

theorem flash_fits (h : numbersFit s) (n : LineNo) : numbersFit (flash s n) := by
  have h1 := (queueEntry_fits h n .flash .hook 0).modLine n
    (f := fun r => { r with sup := .seized, ret := none, firstDigit := 0, pulseSeen := false })
    fun _ hr => { hr with firstDigit := Nat.zero_le _ }
  unfold flash
  dsimp only
  split
  · exact join_fits h1 n
  · exact h1

theorem endBreak_fits (h : numbersFit s) (n : LineNo) : numbersFit (endBreak s n) :=
  h.modLine n fun _ hr => { hr with }

theorem judgeMake_fits (h : numbersFit s) (n : LineNo) {m : Nat} (hm : m ≤ Config.max16) :
    numbersFit (judgeMake s n m) := by
  have h1 := h.modLine n (f := fun r => { r with make := m }) fun _ hr => { hr with make := hm }
  unfold judgeMake
  extract_lets p d s1 s2
  have h2 : numbersFit s2 := by
    show numbersFit (if _ then _ else _)
    split
    · exact completeDigit_fits h1 n
    · exact h1
  clear_value s2
  split
  · exact endBreak_fits h2 n
  split
  · exact h2.modLine n fun _ hr => { hr with pulses := satInc_le _ _, dialEnd := Nat.zero_le _ }
  split
  · exact flash_fits h2 n
  · exact endBreak_fits (queueEntry_fits h2 n .invalid .hook 0) n

theorem acceptInCall_fits (h : numbersFit s) (n : LineNo) (from_ : Ret) (c : Cls) {a : Nat}
    (ha : a ≤ Config.max16) : numbersFit (acceptInCall s n from_ c a) := by
  unfold acceptInCall
  split
  · exact h.modLine n fun _ hr => { hr with breakCounter := ha }
  split
  · exact enterFault_fits h n c
  · exact h

theorem transition_fits (h : numbersFit s) (n : LineNo) (c : Cls) {a : Nat} (ha : a ≤ Config.max16) :
    numbersFit (transition s n c a) := by
  unfold transition
  cases (s.line n).sup with
  | settling =>
    dsimp only
    split
    · exact enterOnHook_fits h n
    split
    · exact h.modLine n fun _ hr => { hr with make := ha }
    split
    · exact enterFault_fits h n c
    · exact h
  | onHook =>
    dsimp only
    split
    · exact seize_fits h n ha
    split
    · exact faultEvent_fits h n .leak
    split
    · exact enterFault_fits h n c
    · exact h
  | seized => exact acceptInCall_fits h n .seized c ha
  | dialling => exact acceptInCall_fits h n .dialling c ha
  | held => exact acceptInCall_fits h n .held c ha
  | brk =>
    dsimp only
    split
    · exact judgeMake_fits h n ha
    split
    · exact enterFault_fits h n c
    · exact h
  | lockout =>
    dsimp only
    split
    · exact h.modLine n fun _ hr => { hr with breakCounter := Nat.zero_le _ }
    split
    · exact enterFault_fits h n c
    · exact h
  | fault =>
    dsimp only
    split
    · exact enterFault_fits h n c
    split
    · exact enterOnHook_fits (restoreFault_fits h n) n
    split
    · exact enterLockout_fits (restoreFault_fits h n) n
    · exact h
  | _ => exact h

theorem takeAcceptance_fits (h : numbersFit s) (n : LineNo) (old c : Cls) {a : Nat} (ha : a ≤ Config.max16) :
    numbersFit (takeAcceptance s n old c a) := by
  unfold takeAcceptance
  extract_lets s1
  have h1 : numbersFit s1 := by
    show numbersFit (if _ then _ else _)
    split
    · exact restoreMinor_fits h n
    · exact h
  clear_value s1
  split
  · unfold lockoutOpen
    split
    · exact h1.modLine n fun _ hr => { hr with breakCounter := ha }
    · exact h1
  · exact transition_fits h1 n c ha

theorem dialEndTimesOut_fits (h : numbersFit s) (n : LineNo) : numbersFit (dialEndTimesOut s n) := by
  unfold dialEndTimesOut
  extract_lets s1 s2
  have h1 : numbersFit s1 := by
    show numbersFit (if _ then _ else _)
    split
    · exact completeDigit_fits h n
    · exact h
  have h2 : numbersFit s2 := h1.modLine n fun _ hr => { hr with }
  clear_value s2
  split
  · exact policyRelease_fits h2 n
  · exact h2

theorem limitsInBreak_fits (h : numbersFit s) (n : LineNo) : numbersFit (limitsInBreak s n) := by
  unfold limitsInBreak
  extract_lets s1
  have h1 : numbersFit s1 := by
    show numbersFit (if _ then _ else _)
    split
    · exact completeDigit_fits h n
    · exact h
  clear_value s1
  split
  · exact enterOnHook_fits h1 n
  split
  · exact enterLockout_fits h1 n
  · exact h1

theorem limitsInDialling_fits (h : numbersFit s) (n : LineNo) : numbersFit (limitsInDialling s n) := by
  unfold limitsInDialling
  extract_lets s1
  have h1 : numbersFit s1 := by
    show numbersFit (if _ then _ else _)
    split
    · exact completeDigit_fits h n
    · exact h
  clear_value s1
  split
  · exact dialEndTimesOut_fits h1 n
  · exact h1

theorem testLimits_fits (h : numbersFit s) (n : LineNo) : numbersFit (testLimits s n) := by
  unfold testLimits
  cases (s.line n).sup with
  | brk => exact limitsInBreak_fits h n
  | dialling => exact limitsInDialling_fits h n
  | seized =>
    dsimp only
    split
    · exact enterLockout_fits h n
    · exact h
  | lockout =>
    dsimp only
    split
    · exact enterOnHook_fits h n
    · exact h
  | _ => exact h

theorem toneDigit_fits (h : numbersFit s) (n : LineNo) (sym : Symbol) : numbersFit (toneDigit s n sym) := by
  unfold toneDigit
  split
  · refine (queueEntry_fits h n sym .tone 0).modLine n fun r hr => ?_
    split
    · exact { hr with dialEnd := Nat.zero_le _ }
    · exact { hr with dialEnd := Nat.zero_le _ }
  · exact h

end Sys2Proof.Machine
end

section
/-! SUPPORT. The numbers in range, continued: the pool, the generator, the line test unit and calibration. -/

namespace Sys2Proof.Machine

variable {s t : State}

/-! ### Operations that leave the lines but for their receivers -/

theorem endOrder_fits (h : numbersFit s) (k : SlotNo) (c : Completion) : numbersFit (endOrder s k c) :=
  h.of_noRcv (endOrder_noRcv s k c) (endOrder_engine s k c)

theorem finish_fits (h : numbersFit s) (k : SlotNo) (o : OrderOutcome) (r : Reason) (d : List Nat) :
    numbersFit (finish s k o r d) :=
  endOrder_fits h k _

theorem refuse_fits (h : numbersFit s) (k : SlotNo) (r : Reason) (d : List Nat) :
    numbersFit (refuse s k r d) :=
  finish_fits h k _ r d

theorem complete_fits (h : numbersFit s) (k : SlotNo) (d : List Nat) : numbersFit (complete s k d) :=
  finish_fits h k _ _ d

theorem takeFlight_fits (h : numbersFit s) (k : SlotNo) (f : Flight) : numbersFit (takeFlight s k f) := h

theorem placeFrame_fits (h : numbersFit s) (l : LinkNo) (f : Frame) : numbersFit (placeFrame s l f) :=
  h.of_noRcv (placeFrame_noRcv s l f) (placeFrame_engine s l f)

theorem placeTrim_fits (h : numbersFit s) (n : LineNo) (range : TrimRange) (code : TrimCode) (o : TrimOwner) :
    numbersFit (placeTrim s n range code o) :=
  placeFrame_fits h _ _

theorem placeRelay_fits (h : numbersFit s) (n : LineNo) (cfg : RelayCfg) (o : RelayOwner) :
    numbersFit (placeRelay s n cfg o) :=
  placeFrame_fits h _ _

theorem grantTest_fits (h : numbersFit s) : numbersFit (grantTest s) :=
  h.of_noRcv (grantTest_noRcv s) (grantTest_engine s)

/-! ### The pool -/

theorem orderListen_fits (h : numbersFit s) (k : SlotNo) (o : OrderRead) : numbersFit (orderListen s k o) := by
  unfold orderListen
  split
  · exact refuse_fits h k _ _
  split
  · exact refuse_fits h k _ _
  split
  · exact refuse_fits h k _ _
  split
  · exact refuse_fits h k _ _
  refine grantTest_fits ?_
  split
  · exact h
  · exact h

theorem abortListen_fits (h : numbersFit s) (k : SlotNo) (r : Reason) : numbersFit (abortListen s k r) :=
  h.of_noRcv (abortListen_noRcv s k r) (abortListen_engine s k r)

theorem orderReceiverService_fits (h : numbersFit s) (k : SlotNo) (o : OrderRead) :
    numbersFit (orderReceiverService s k o) := by
  unfold orderReceiverService
  split
  · dsimp only
    split
    · split
      · exact refuse_fits h k _ _
      · exact complete_fits (h.of_noRcv (serviceOut_noRcv s _) (serviceOut_engine s _)) k _
    split
    · exact complete_fits (h.of_noRcv (serviceIn_noRcv s _) (serviceIn_engine s _)) k _
    · exact refuse_fits h k _ _
  · exact refuse_fits h k _ _

/-! ### The tone generator -/

theorem orderTrace_fits (h : numbersFit s) (k : SlotNo) (o : OrderRead) : numbersFit (orderTrace s k o) := by
  unfold orderTrace
  split
  · exact refuse_fits h k _ _
  split
  · exact refuse_fits h k _ _
  split
  · exact refuse_fits h k _ _
  split
  · exact refuse_fits h k _ _
  split
  · exact refuse_fits h k _ _
  unfold takeTrace
  exact placeRelay_fits (numbersFit.modLine (s := { takeFlight s k .trace with gen := _ }) h _
    (f := fun r => { r with trace := true }) fun _ hr => { hr with }) _ _ _

theorem endTrace_fits (h : numbersFit s) (o : OrderOutcome) (r : Reason) (c : Nat) :
    numbersFit (endTrace s o r c) :=
  h.of_noRcv (endTrace_noRcv s o r c) (endTrace_engine s o r c)

theorem abortTraceOn_fits (h : numbersFit s) (n : LineNo) (r : Reason) : numbersFit (abortTraceOn s n r) :=
  h.of_noRcv (abortTraceOn_noRcv s n r) (abortTraceOn_engine s n r)

theorem removeTrace_fits (h : numbersFit s) (c : TraceCtx) : numbersFit (removeTrace s c) :=
  numbersFit.modLine (s := { silence s with gen := _ }) h _
    (f := fun r => { r with trace := false }) fun _ hr => { hr with }

theorem traceLinkLost_fits (h : numbersFit s) (l : LinkNo) : numbersFit (traceLinkLost s l) := by
  unfold traceLinkLost
  split
  · split
    · refine removeTrace_fits ?_ _
      split
      · exact h
      · exact finish_fits h _ _ _ _
    · exact h
  · exact h

theorem traceRelayAnswered_fits (h : numbersFit s) (n : LineNo) (cfg : RelayCfg) (ack : Bool) :
    numbersFit (traceRelayAnswered s n cfg ack) := by
  unfold traceRelayAnswered
  split
  · split
    · exact h
    split
    · split
      · exact h
      split
      · exact h
      · exact endTrace_fits h _ _ _
    · exact h
    · split
      · exact removeTrace_fits h _
      · exact h
  · exact h

theorem traceExpires_fits (h : numbersFit s) : numbersFit (traceExpires s) := by
  unfold traceExpires
  split
  · split
    · exact endTrace_fits h _ _ _
    · exact h
  · exact h

theorem warble_fits (h : numbersFit s) : numbersFit (warble s) := by
  unfold warble
  split
  · split
    · split
      · exact h
      · exact h
    · exact h
    · exact h
  · exact h

theorem setCheckChannels_fits (h : numbersFit s) (c : CheckCtx) : numbersFit (setCheckChannels s c) := by
  unfold setCheckChannels
  dsimp only
  split
  · exact h
  · exact h

theorem orderReceiverCheck_fits (h : numbersFit s) (k : SlotNo) (o : OrderRead) :
    numbersFit (orderReceiverCheck s k o) := by
  unfold orderReceiverCheck
  split
  · dsimp only
    split
    · exact refuse_fits h k _ _
    split
    · exact refuse_fits h k _ _
    split
    · exact refuse_fits h k _ _
    split
    · exact refuse_fits h k _ _
    · exact setCheckChannels_fits (s := { (takeFlight s k .check).startListening _ _ with gen := _ }) h _
  · exact refuse_fits h k _ _

theorem closeCheck_fits (h : numbersFit s) (c : CheckCtx) (r : RcvState) : numbersFit (closeCheck s c r) :=
  grantTest_fits (s := { (silence s).setRcv c.rcv r with gen := _ }) h

theorem abortCheck_fits (h : numbersFit s) (r : Reason) : numbersFit (abortCheck s r) := by
  unfold abortCheck
  split
  · exact closeCheck_fits (finish_fits h _ _ _ _) _ _
  · exact h

theorem checkBlock_fits (h : numbersFit s) (c : CheckCtx) (accepted : Option Symbol) :
    numbersFit (checkBlock s c accepted) := by
  unfold checkBlock
  extract_lets c1 c2
  split
  · exact closeCheck_fits (complete_fits h _ _) _ _
  · refine setCheckChannels_fits ?_ _
    exact h

theorem deliver_fits (h : numbersFit s) (k : RcvNo) (n : LineNo) (sym : Symbol) :
    numbersFit (deliver s k n sym) :=
  (toneDigit_fits h n sym).of_noRcv (countDigit_noRcv _ k) (countDigit_engine _ k)

theorem blockEnds_fits (h : numbersFit s) (k : RcvNo) (v : BlockLevels) : numbersFit (blockEnds s k v) := by
  unfold blockEnds
  split
  · extract_lets a next
    have hn : numbersFit next := h
    clear_value next
    split
    · split
      · exact deliver_fits hn _ _ _
      · exact hn
    · split
      · split
        · exact checkBlock_fits hn _ _
        · exact hn
      · exact hn
    · exact h
  · exact h

/-! ### The line test unit -/

theorem orderInsulationTest_fits (h : numbersFit s) (k : SlotNo) (o : OrderRead) :
    numbersFit (orderInsulationTest s k o) := by
  unfold orderInsulationTest
  split
  · exact refuse_fits h k _ _
  next n _ =>
    split
    · exact refuse_fits h k _ _
    split
    · exact refuse_fits h k _ _
    split
    · exact refuse_fits h k _ _
    split
    · exact refuse_fits h k _ _
    split
    · exact refuse_fits h k _ _
    have h1 := suspendLine_fits (takeFlight_fits h k (.insulation (linkOf n))) n .testing
    exact h1.of_noRcv (startPhase_noRcv _ _ 1) (startPhase_engine _ _ 1)

theorem completeTest_fits (h : numbersFit s) (c : TestCtx) (v : Verdict) (o : OrderOutcome) (r : Reason) :
    numbersFit (completeTest s c v o r) :=
  endOrder_fits h _ _

theorem abortTest_fits (h : numbersFit s) (l : LinkNo) (r : Reason) : numbersFit (abortTest s l r) :=
  h.of_noRcv (abortTest_noRcv s l r) (abortTest_engine s l r)

theorem removeTest_fits (h : numbersFit s) (l : LinkNo) (c : TestCtx) : numbersFit (removeTest s l c) :=
  releaseLine_fits (s := s.modLink l _) h _ _

theorem testLinkLost_fits (h : numbersFit s) (l : LinkNo) : numbersFit (testLinkLost s l) := by
  unfold testLinkLost
  split
  · refine removeTest_fits ?_ _ _
    split
    · exact h
    · exact completeTest_fits h _ _ _ _
  · exact h

theorem testRelayAnswered_fits (h : numbersFit s) (n : LineNo) (cfg : RelayCfg) (ack : Bool) :
    numbersFit (testRelayAnswered s n cfg ack) := by
  unfold testRelayAnswered
  split
  · split
    · exact h
    split
    · split
      · exact h
      split
      · exact h
      · exact h.of_noRcv (endTest_noRcv s _ _ _ _) (endTest_engine s _ _ _ _)
    · exact h
    · exact h
    · split
      · exact removeTest_fits h _ _
      · exact h
  · exact h

theorem testScan_fits (h : numbersFit s) (n : LineNo) (out : ScanOutcome) : numbersFit (testScan s n out) :=
  h.of_noRcv (testScan_noRcv s n out) (testScan_engine s n out)

theorem assignTesting_fits (h : numbersFit s) (n : LineNo) (toActive : Bool) :
    numbersFit (assignTesting s n toActive) := by
  unfold assignTesting
  extract_lets s1
  have h1 : numbersFit s1 := h
  clear_value s1
  split
  · exact h1
  split
  · split
    · exact abortTest_fits h1 _ _
    · exact h1
  · exact h1

/-! ### Calibration -/

theorem modCal_fits (h : numbersFit s) (n : LineNo) (f : CalCtx → CalCtx) : numbersFit (modCal s n f) :=
  h.modLine n (f := fun r => { r with calCtx := r.calCtx.map f }) fun _ hr => { hr with }

theorem setCalCtx_fits (h : numbersFit s) (n : LineNo) (c : Option CalCtx) :
    numbersFit (s.modLine n fun r => { r with calCtx := c }) :=
  h.modLine n (f := fun r => { r with calCtx := c }) fun _ hr => { hr with }

theorem lineFinished_fits (h : numbersFit s) (k : SlotNo) (f : Tally → Tally) (o : OrderOutcome) (r : Reason) :
    numbersFit (lineFinished s k f o r) :=
  h.of_noRcv (lineFinished_noRcv s k f o r) (lineFinished_engine s k f o r)

theorem markRecord_fits (h : numbersFit s) (n : LineNo) (c : CalCtx) (st : CalStatus) :
    numbersFit (markRecord s n c st) :=
  h.modLine n (f := fun r => { r with cal := { r.cal with status := st, s1 := c.s1.getD r.cal.s1, time := s.time } })
    fun _ hr => { hr with }

theorem restoreTrim_fits (h : numbersFit s) (n : LineNo) : numbersFit (restoreTrim s n) :=
  placeTrim_fits h n _ _ _

theorem toRestoring_fits (h : numbersFit s) (n : LineNo) : numbersFit (toRestoring s n) := modCal_fits h n _

theorem failLine_fits (h : numbersFit s) (n : LineNo) (c : CalCtx) (cause : FailCause) :
    numbersFit (failLine s n c cause) := by
  have h1 := restoreTrim_fits (markRecord_fits h n c (.failed cause)) n
  exact lineFinished_fits (toRestoring_fits (placeRelay_fits h1 n .normal .calibration) n) _ _ _ _

theorem abortLine_fits (h : numbersFit s) (n : LineNo) (cause : IntCause) (o : OrderOutcome) (r : Reason) :
    numbersFit (abortLine s n cause o r) := by
  unfold abortLine
  split
  next c _ =>
    split
    · exact h
    have h1 := restoreTrim_fits (markRecord_fits h n c (.interrupted cause)) n
    exact lineFinished_fits (toRestoring_fits (placeRelay_fits h1 n .normal .calibration) n) _ _ _ _
  · exact h

theorem abortCalibrate_fits (h : numbersFit s) (k : SlotNo) (cause : IntCause) (r : Reason) :
    numbersFit (abortCalibrate s k cause r) := by
  refine h.foldl (fun s n hs => ?_) allLines
  split
  · exact abortLine_fits hs n cause .aborted r
  · exact hs

theorem removeCal_fits (h : numbersFit s) (n : LineNo) (c : CalCtx) : numbersFit (removeCal s n c) :=
  releaseLine_fits (setCalCtx_fits h n none) n c.toActive

theorem calLinkLost_fits (h : numbersFit s) (n : LineNo) : numbersFit (calLinkLost s n) := by
  unfold calLinkLost
  split
  next c _ =>
    refine removeCal_fits ?_ n c
    split
    · exact h
    · exact lineFinished_fits (markRecord_fits h n c _) _ _ _ _
  · exact h

theorem takeLine_fits (h : numbersFit s) (k : SlotNo) (o : OrderRead) (n : LineNo) :
    numbersFit (takeLine k o s n) :=
  placeTrim_fits (placeRelay_fits (suspendLine_fits (setCalCtx_fits h n _) n .calibrating) n _ _) n _ _ _

theorem orderCalibrate_fits (h : numbersFit s) (k : SlotNo) (o : OrderRead) :
    numbersFit (orderCalibrate s k o) := by
  unfold orderCalibrate
  dsimp only
  split
  · exact refuse_fits h k _ _
  split
  · exact refuse_fits h k _ _
  split
  · exact refuse_fits h k _ _
  exact (takeFlight_fits h k _).foldl (fun s n hs => takeLine_fits hs k o n) _

theorem startDecision_fits (h : numbersFit s) (n : LineNo) (c : CalCtx) : numbersFit (startDecision s n c) :=
  placeTrim_fits (setCalCtx_fits h n _) n _ _ _

theorem decisionEnds_fits (h : numbersFit s) (n : LineNo) (c : CalCtx) : numbersFit (decisionEnds s n c) := by
  unfold decisionEnds
  split
  · unfold rangeDecision
    dsimp only
    split
    · exact failLine_fits (setCalCtx_fits h n _) n _ _
    · exact startDecision_fits h n _
  · unfold bitDecision
    dsimp only
    split
    · exact startDecision_fits h n _
    · exact placeRelay_fits (placeTrim_fits (setCalCtx_fits h n _) n _ _ _) n _ _

theorem calScan_fits (h : numbersFit s) (n : LineNo) (out : ScanOutcome) : numbersFit (calScan s n out) := by
  unfold calScan
  split
  · split
    · exact h
    unfold calCounts
    split
    · dsimp only
      split
      · exact modCal_fits h n _
      · exact modCal_fits h n _
    · dsimp only
      split
      · exact decisionEnds_fits h n _
      · exact modCal_fits h n _
    · exact h
    · exact h
    · exact h
  · exact h

theorem calRelayAnswered_fits (h : numbersFit s) (n : LineNo) (cfg : RelayCfg) (ack : Bool) :
    numbersFit (calRelayAnswered s n cfg ack) := by
  unfold calRelayAnswered
  split
  · split
    · split
      · exact h
      split
      · exact modCal_fits h n _
      · exact failLine_fits h n _ _
    · exact h
    · exact h
    · exact h
    · exact h
    · split
      · exact removeCal_fits h n _
      · exact h
  · exact h

theorem commitAnswered_fits (h : numbersFit s) (n : LineNo) (c : CalCtx) (ack : Bool) :
    numbersFit (commitAnswered s n c ack) := by
  unfold commitAnswered
  split
  · refine lineFinished_fits (toRestoring_fits (h.modLine n fun r hr => ?_) n) _ _ _ _
    exact { hr with }
  · exact lineFinished_fits (toRestoring_fits (restoreTrim_fits (markRecord_fits h n c _) n) n) _ _ _ _

theorem calTrimAnswered_fits (h : numbersFit s) (n : LineNo) (ack : Bool) :
    numbersFit (calTrimAnswered s n ack) := by
  unfold calTrimAnswered
  split
  · split
    · split
      · exact modCal_fits h n _
      · exact failLine_fits h n _ _
    · exact commitAnswered_fits h n _ ack
    · exact h
    · exact h
    · exact h
    · exact h
  · exact h

theorem recordTrimAnswered_fits (h : numbersFit s) (n : LineNo) (ack : Bool) :
    numbersFit (recordTrimAnswered s n ack) := by
  unfold recordTrimAnswered
  split
  · exact h
  · refine h.modLine n fun r hr => ?_
    exact { hr with }

theorem orderSetTrim_fits (h : numbersFit s) (k : SlotNo) (o : OrderRead) : numbersFit (orderSetTrim s k o) := by
  unfold orderSetTrim
  split
  · exact refuse_fits h k _ _
  split
  · exact refuse_fits h k _ _
  split
  · exact refuse_fits h k _ _
  split
  · exact refuse_fits h k _ _
  refine complete_fits (placeTrim_fits (h.modLine _ fun r hr => ?_) _ _ _ _) _ _
  exact { hr with }

theorem assignCalibrating_fits (h : numbersFit s) (n : LineNo) (toActive : Bool) :
    numbersFit (assignCalibrating s n toActive) := by
  have h1 := modCal_fits h n fun c => { c with toActive := toActive }
  unfold assignCalibrating
  dsimp only
  split
  · exact h1
  · exact abortLine_fits h1 n _ _ _

end Sys2Proof.Machine
end

section
/-! SUPPORT. The numbers in range, continued: measurement, links, profiles, master accesses, images and the
exchange; and the invariant of every step. -/

namespace Sys2Proof.Machine

variable {s t : State}

/-! ### Measurement -/

theorem LineFits.filterStep {r : LineRec} (h : LineFits r) (k : Nat) (t : Word) (x : Sample) :
    LineFits (filterStep k t x r) :=
  { h with vt := stepAcc_fits _ k _ _ h.vt, vr := stepAcc_fits _ k _ _ h.vr,
           current := stepAcc_fits _ k _ _ h.current }

theorem LineFits.updateCandidate {r : LineRec} (h : LineFits r) (raw : Cls) :
    LineFits (updateCandidate raw r) := by
  unfold Machine.updateCandidate
  split
  · exact { h with run := Nat.zero_le _ }
  split
  · exact { h with run := satInc_le _ _ }
  split
  · exact { h with run := satInc_le _ _ }
  · exact { h with run := (by decide : 1 ≤ Config.max16) }

theorem LineFits.acceptClass {r : LineRec} (h : LineFits r) (c : Cls) : LineFits (acceptClass c r) :=
  { h with run := Nat.zero_le _, age := h.run }

theorem quietScan_fits (h : numbersFit s) (n : LineNo) (raw : Cls) : numbersFit (quietScan s n raw) := by
  unfold quietScan
  split
  · exact setFull_fits h n
  split
  · exact h.modLine n fun _ hr => { hr with quiet := satInc_le _ _ }
  · exact h

/-- A survey context stands outside the numbers. -/
theorem setSurvey_fits (h : numbersFit s) (n : LineNo) (c : Option SurveyCtx) :
    numbersFit (s.modLine n fun r => { r with survey := c }) :=
  h.modLine n (f := fun r => { r with survey := c }) fun _ hr => { hr with }

theorem orderSurvey_fits (h : numbersFit s) (k : SlotNo) (o : OrderRead) : numbersFit (orderSurvey s k o) := by
  unfold orderSurvey
  split
  · exact refuse_fits h k _ _
  dsimp only
  split
  · exact refuse_fits h k _ _
  split
  · exact refuse_fits h k _ _
  split
  · exact refuse_fits h k _ _
  · exact setFull_fits (setSurvey_fits (takeFlight_fits h k _) _ _) _

theorem surveyScan_fits (h : numbersFit s) (n : LineNo) (out : ScanOutcome) : numbersFit (surveyScan s n out) := by
  unfold surveyScan
  split
  · dsimp only
    split
    · exact setSurvey_fits (endOrder_fits h _ _) n none
    · exact setSurvey_fits h n _
  · exact h

theorem abortSurvey_fits (h : numbersFit s) (n : LineNo) (r : Reason) : numbersFit (abortSurvey s n r) := by
  unfold abortSurvey
  split
  · exact setSurvey_fits (finish_fits h _ _ _ _) n none
  · exact h

theorem scanMeasure_fits (h : numbersFit s) (n : LineNo) (x : Sample) : numbersFit (scanMeasure s n x) := by
  have h1 := h.modLine n fun _ hr => hr.filterStep (s.conv n).shift s.time x
  exact quietScan_fits (updatePeak_fits (h1.modLine n fun _ hr => hr.updateCandidate _) n) n _

theorem scanAccept_fits (h : numbersFit s) (n : LineNo) : numbersFit (scanAccept s n) := by
  have h1 := h.modLine n fun _ hr => hr.advanceCounters (s.line n).accepted
  unfold scanAccept
  dsimp only
  split
  next c _ =>
    refine takeAcceptance_fits ?_ n _ c (h1.1 n).run
    have h2 := h1.modLine n fun _ hr => hr.acceptClass c
    split
    · exact abortTraceOn_fits h2 n _
    · exact h2
  · exact h1

theorem activeScan_fits (h : numbersFit s) (n : LineNo) (x : Sample) : numbersFit (activeScan s n x) :=
  surveyScan_fits (testLimits_fits (scanAccept_fits (scanMeasure_fits h n x) n) n) n _

theorem routeScan_fits (h : numbersFit s) (n : LineNo) (out : ScanOutcome) : numbersFit (routeScan s n out) := by
  unfold routeScan
  split
  · exact h
  · split
    · exact activeScan_fits h n _
    · exact surveyScan_fits h n _
    · exact surveyScan_fits h n _
  · exact calScan_fits h n out
  · exact testScan_fits h n out

theorem takeSample_fits (h : numbersFit s) (n : LineNo) (x : Sample) : numbersFit (takeSample s n x) :=
  routeScan_fits (h.of_noRcv (surgeStep_noRcv s _ x) (surgeStep_engine s _ x)) n _

theorem missScan_fits (h : numbersFit s) (n : LineNo) : numbersFit (missScan s n) := routeScan_fits h n _

/-! ### Links -/

/-- A change of a link's record keeps the numbers of the lines. -/
theorem modLink_fits (h : numbersFit s) (l : LinkNo) (f : LinkRec → LinkRec) : numbersFit (s.modLink l f) := h

theorem advanceLink_fits (h : numbersFit s) (l : LinkNo) : numbersFit (advanceLink s l) :=
  h.of_noRcv (fun m => by rw [advanceLink_line]) (advanceLink_engine s l)

theorem startPeriod_fits (h : numbersFit s) : numbersFit (startPeriod s) := by
  unfold startPeriod
  split
  · refine numbersFit.foldl (s := { s with periodCount := _, periodEnd := _ }) (fun s l hs => ?_) allLinks h
    unfold startLinkPeriod
    split
    · exact advanceLink_fits (modLink_fits (hs.foldl (fun s p hs => missScan_fits hs (lineAt l p)) _) l _) l
    · exact hs
  · exact h

theorem unsenseLine_fits (h : numbersFit s) (n : LineNo) : numbersFit (unsenseLine s n) := by
  unfold unsenseLine
  split
  · exact enterUnsensed_fits h n
  · exact h

theorem linkLost_fits (h : numbersFit s) (l : LinkNo) : numbersFit (linkLost s l) := by
  unfold linkLost
  extract_lets s1 s2 s3 s4 s5 s6 s7
  have h1 : numbersFit s1 := h
  have h2 : numbersFit s2 := eachLine_fits (fun s n hs => unsenseLine_fits hs n) h1 (linesOf l)
  have h3 : numbersFit s3 := h2.of_noRcv (strandAll_noRcv s2 l) (strandAll_engine s2 l)
  have h4 : numbersFit s4 := eachLine_fits (fun s n hs => calLinkLost_fits hs n) h3 (linesOf l)
  have h5 : numbersFit s5 := markChanges_fits (testLinkLost_fits h4 l)
  have h6 : numbersFit s6 := markChanges_fits (traceLinkLost_fits h5 l)
  have h7 : numbersFit s7 := h6.foldl (fun s n hs => abortSurvey_fits hs n .linkLost) (linesOf l)
  exact h7.foldl (fun s n hs => setFull_fits hs n) (linesOf l)

theorem timeOut_fits (h : numbersFit s) (l : LinkNo) : numbersFit (timeOut s l) := by
  unfold timeOut
  split
  next f _ =>
    dsimp only
    split
    · have h1 : numbersFit (frameTimedOut (endExchange s l) l f) := by
        cases f with
        | sample p => exact missScan_fits (s := endExchange s l) h (lineAt l p)
        | _ => exact h
      unfold raiseFailRun
      dsimp only
      split
      · exact linkLost_fits (modLink_fits h1 l _) l
      · exact advanceLink_fits (modLink_fits h1 l _) l
    · exact h
  · exact h

theorem sampleAnswered_fits (h : numbersFit s) (l : LinkNo) (p : PairNo) (x : Sample) :
    numbersFit (sampleAnswered s l p x) := by
  unfold sampleAnswered
  split
  · exact advanceLink_fits (takeSample_fits (s := replyTaken s l) h _ x) l
  · exact h

theorem trimAnswered_fits (h : numbersFit s) (l : LinkNo) (ack : Bool) : numbersFit (trimAnswered s l ack) := by
  unfold trimAnswered
  split
  · refine advanceLink_fits ?_ l
    unfold trimOwner
    split
    · exact calTrimAnswered_fits (s := replyTaken s l) h _ ack
    · exact recordTrimAnswered_fits (s := replyTaken s l) h _ ack
  · exact h

theorem relayAnswered_fits (h : numbersFit s) (l : LinkNo) (ack : Bool) : numbersFit (relayAnswered s l ack) := by
  unfold relayAnswered
  split
  next p _ _ _ =>
    have h1 : numbersFit (setRestored (replyTaken s l) l p) := h
    refine advanceLink_fits ?_ l
    unfold relayOwner
    split
    · exact h1
    · exact calRelayAnswered_fits h1 _ _ ack
    · exact testRelayAnswered_fits h1 _ _ ack
    · exact traceRelayAnswered_fits h1 _ _ ack
  · exact h

theorem connectAnswered_fits (h : numbersFit s) (l : LinkNo) (ack : Bool) :
    numbersFit (connectAnswered s l ack) := by
  unfold connectAnswered
  split
  · exact advanceLink_fits (numbersFit.of_noRcv (s := replyTaken s l) h (tapConnectAnswered_noRcv _ _ ack)
      (tapConnectAnswered_engine _ _ ack)) l
  · exact h

theorem disconnectAnswered_fits (h : numbersFit s) (l : LinkNo) (ack : Bool) :
    numbersFit (disconnectAnswered s l ack) := by
  unfold disconnectAnswered
  split
  · exact advanceLink_fits (numbersFit.of_noRcv (s := replyTaken s l) h (tapDisconnectAnswered_noRcv _ _ ack)
      (tapDisconnectAnswered_engine _ _ ack)) l
  · exact h

theorem clearAllAnswered_fits (h : numbersFit s) (l : LinkNo) (ack : Bool) :
    numbersFit (clearAllAnswered s l ack) := by
  unfold clearAllAnswered
  split
  · exact advanceLink_fits (numbersFit.of_noRcv (s := replyTaken s l) h (tapClearAnswered_noRcv _ l ack)
      (tapClearAnswered_engine _ l ack)) l
  · exact h

theorem parkAbsent_fits (h : numbersFit s) (n : LineNo) : numbersFit (parkAbsent s n) := by
  unfold parkAbsent
  split
  · exact parkLine_fits h n
  · exact h

theorem settleUnsensed_fits (h : numbersFit s) (n : LineNo) : numbersFit (settleUnsensed s n) := by
  unfold settleUnsensed
  split
  · exact enterSettling_fits h n
  · exact h

theorem recoverLink_fits (h : numbersFit s) (l : LinkNo) (count : Nat) (rev : Byte) :
    numbersFit (recoverLink s l count rev) := by
  have h0 : numbersFit (recordProbe s l count rev) := h
  have h1 := eachLine_fits (fun s n hs => parkAbsent_fits hs n) h0 (linesOf l)
  exact eachLine_fits (fun s n hs => settleUnsensed_fits hs n) (modLink_fits h1 l _) (linesOf l)

theorem probeAnswered_fits (h : numbersFit s) (l : LinkNo) (count : Nat) (rev : Byte) :
    numbersFit (probeAnswered s l count rev) := by
  unfold probeAnswered
  split
  · have h1 : numbersFit (replyTaken s l) := h
    dsimp only
    split
    · unfold probeWhileUp
      split
      · exact advanceLink_fits (s := recordProbe (replyTaken s l) l count rev) h1 l
      · exact linkLost_fits h1 l
    · exact recoverLink_fits h1 l count rev
  · exact h

/-! ### Profiles and orders -/

theorem assignLine_fits (h : numbersFit s) (n : LineNo) (p : ProfNo) (active : Bool) :
    numbersFit (assignLine s n p active) := by
  have h1 : numbersFit (s.modLine n fun r => { r with profile := p }) :=
    h.modLine n (f := fun r => { r with profile := p }) fun _ hr => { hr with }
  have h2 := abortTraceOn_fits h1 n .lineChanged
  unfold assignLine
  dsimp only
  split
  · unfold assignParked
    split
    · refine enterSettling_fits (unschedule_fits (h2.modLine n fun r hr => ?_) n) n
      exact { hr with }
    · exact h2
  · unfold assignActive
    split
    · exact h2
    · exact parkLine_fits (abortSurvey_fits h2 n _) n
  · exact assignCalibrating_fits h2 n active
  · exact assignTesting_fits h2 n active

theorem orderAssign_fits (h : numbersFit s) (k : SlotNo) (o : OrderRead) : numbersFit (orderAssign s k o) := by
  unfold orderAssign
  split
  · exact refuse_fits h k _ _
  split
  · dsimp only
    split
    · exact refuse_fits h k _ _
    split
    · exact refuse_fits h k _ _
    exact complete_fits (assignLine_fits h _ _ _) k _
  · exact refuse_fits h k _ _

theorem loadProfile_fits (h : numbersFit s) (k : SlotNo) (p : ProfNo) (bytes : List Byte) :
    numbersFit (loadProfile s k p bytes) := by
  unfold loadProfile
  dsimp only
  split
  · exact refuse_fits h k _ _
  · exact complete_fits (s := s.setProfile p _) h k _

theorem economyLine_fits (h : numbersFit s) (n : LineNo) : numbersFit (economyLine s n) := by
  refine h.modLine n fun r hr => ?_
  split
  · exact { hr with }
  · exact hr

theorem orderEconomy_fits (h : numbersFit s) (k : SlotNo) (o : OrderRead) : numbersFit (orderEconomy s k o) := by
  unfold orderEconomy
  split
  · exact complete_fits (s := { s with economy := false }) h k _
  split
  · have h1 : numbersFit { s with economy := true } := h
    exact complete_fits (h1.foldl (fun s n hs => economyLine_fits hs n) allLines) k _
  · exact refuse_fits h k _ _

theorem orderClearFault_fits (h : numbersFit s) (k : SlotNo) (o : OrderRead) :
    numbersFit (orderClearFault s k o) := by
  unfold orderClearFault
  split
  · dsimp only
    split
    · exact complete_fits h k _
    split
    · exact refuse_fits h k _ _
    · refine complete_fits (h.modLine _ fun r hr => ?_) k _
      exact { hr with faults := fun f hf => nomatch hf }
  · exact refuse_fits h k _ _

theorem resettle_fits (h : numbersFit s) (n : LineNo) : numbersFit (resettle s n) := by
  unfold resettle
  split
  · exact enterSettling_fits h n
  · exact h

theorem periodDecision_fits (h : numbersFit s) : numbersFit (periodDecision s) := by
  unfold periodDecision
  dsimp only
  split
  · exact h
  split
  · exact h
  · refine numbersFit.foldl (fun s n hs => resettle_fits hs n) allLines ?_
    exact h

/-! ### Failed master accesses -/

theorem abortSlot_fits (h : numbersFit s) (k : SlotNo) (r : Reason) (cause : IntCause) :
    numbersFit (abortSlot s k r cause) := by
  unfold abortSlot
  split
  · exact abortSurvey_fits h _ r
  · exact abortCalibrate_fits h k cause r
  · exact abortTest_fits h _ r
  · exact abortListen_fits h k r
  · exact abortCheck_fits h r
  · exact endTrace_fits h _ r 2
  · exact h

theorem abortAll_fits (h : numbersFit s) (r : Reason) (cause : IntCause) : numbersFit (abortAll s r cause) :=
  h.foldl (fun _ k hs => abortSlot_fits hs k r cause) allSlots

theorem unmove_fits (h : numbersFit s) : numbersFit (unmove s) := by
  unfold unmove
  split
  · refine h.modLine _ fun r hr => ?_
    exact { hr with }
  · exact h

theorem halt_fits (h : numbersFit s) (addr : Word) : numbersFit (halt s addr) := by
  refine markChanges_fits ?_
  unfold haltEffect
  extract_lets s1 s2 s3
  have h2 : numbersFit s2 := unmove_fits h
  have h3 : numbersFit s3 := abortAll_fits h2 .none .halted
  clear_value s3
  exact h3

/-! ### Series of master accesses -/

/-- The state that a series of accesses comes to, at its end or at the access that fails, has a property. -/
def BusRes.Reaches (p : State → Prop) : BusRes → Prop
  | .ok s => p s
  | .err s _ => p s

theorem BusRes.Reaches.andThen {p : State → Prop} {r : BusRes} (hr : r.Reaches p) {f : State → BusRes}
    (hf : ∀ s, p s → (f s).Reaches p) : (r.andThen f).Reaches p := by
  cases r with
  | ok s => exact hf s hr
  | err s a => exact hr

theorem BusRes.reaches_busEach {p : State → Prop} {α : Type} {f : State → α → BusRes}
    (hf : ∀ s x, p s → (f s x).Reaches p) (l : List α) {s : State} (h : p s) :
    (busEach f l s).Reaches p := by
  induction l generalizing s with
  | nil => exact h
  | cons x t ih => exact (hf s x h).andThen fun s hs => ih hs

theorem busWrite_fits (h : numbersFit s) (bad : Option Word) (off : Nat) (bytes : List Byte) :
    (busWrite bad s off bytes).Reaches numbersFit := by
  unfold busWrite
  split
  · exact h
  · exact h

theorem busWriteField_fits (h : numbersFit s) (bad : Option Word) (off n : Nat) (v : Int) :
    (busWriteField bad s off n v).Reaches numbersFit :=
  busWrite_fits h bad off _

theorem busRead_fits (h : numbersFit s) {bad : Option Word} {off n : Nat} {k : List Byte → BusRes}
    (hk : ∀ b, (k b).Reaches numbersFit) : (busRead bad s off n k).Reaches numbersFit := by
  unfold busRead
  split
  · exact h
  · exact hk _

theorem busReadField_fits (h : numbersFit s) {bad : Option Word} {off n : Nat} {k : Nat → BusRes}
    (hk : ∀ v, (k v).Reaches numbersFit) : (busReadField bad s off n k).Reaches numbersFit :=
  busRead_fits h fun _ => hk _

theorem busWriteFields_fits (bad : Option Word) (l : List (Nat × Int)) (h : numbersFit s) (off : Nat) :
    (busWriteFields bad off l s).Reaches numbersFit := by
  induction l generalizing s off with
  | nil => exact h
  | cons x t ih => exact (busWriteField_fits h bad off _ _).andThen fun s hs => ih hs _

theorem settle_fits {r : BusRes} (h : r.Reaches numbersFit) : numbersFit r.settle := by
  cases r with
  | ok s => exact h
  | err s a => exact halt_fits h a

/-! ### Images and the header -/

/-- A taken count that is not valid raises the protocol error count, which saturates (R161). -/
theorem takeTaken_fits (h : numbersFit s) (n : LineNo) (v : Count) : numbersFit (takeTaken s n v) := by
  unfold takeTaken
  split
  · refine h.modLine n fun r hr => ?_
    exact { hr with }
  · exact ⟨h.1, satInc_le _ _⟩

theorem writeEntries_fits (bad : Option Word) (n : LineNo) (l : List DigitEntry) (h : numbersFit s) (w : Count) :
    (writeEntries bad n w l s).Reaches numbersFit := by
  induction l generalizing s w with
  | nil => exact h
  | cons e t ih => exact (busWriteFields_fits bad _ h _).andThen fun s hs => ih hs _

theorem writeMeasures_fits (h : numbersFit s) (bad : Option Word) (n : LineNo) :
    (writeMeasures bad n s).Reaches numbersFit := by
  refine (busWriteFields_fits bad _ h _).andThen fun s hs => ?_
  refine (busWriteField_fits hs bad _ _ _).andThen fun s hs => ?_
  refine hs.modLine n fun r hr => ?_
  exact { hr with }

theorem writeWritten_fits (h : numbersFit s) (bad : Option Word) (n : LineNo) (moved : Nat) :
    (writeWritten bad n moved s).Reaches numbersFit := by
  unfold writeWritten
  split
  · exact h
  · exact busWriteField_fits h bad _ _ _

theorem rewriteBody_fits (h : numbersFit s) (bad : Option Word) (n : LineNo) (pace : Bool) :
    (rewriteBody bad n pace s).Reaches numbersFit := by
  refine (writeEntries_fits bad n _ h _).andThen fun s hs => ?_
  refine (writeWritten_fits hs bad n _).andThen fun s hs => ?_
  refine (BusRes.reaches_busEach (fun s _ hs => busWriteField_fits hs bad _ _ _) _ hs).andThen fun s hs => ?_
  have hp : (if pace then writeMeasures bad n s else .ok s).Reaches numbersFit := by
    split
    · exact writeMeasures_fits hs bad n
    · exact hs
  refine hp.andThen fun s hs => ?_
  extract_lets s1
  have h1 : numbersFit s1 := by
    refine hs.modLine n fun r hr => ?_
    exact { hr with }
  exact h1

theorem startRewrite_fits (h : numbersFit s) (bad : Option Word) :
    (startRewrite bad s).Reaches numbersFit := by
  unfold startRewrite
  split
  next n rest _ =>
    refine (busWriteField_fits (s := { s with rewriteList := rest }) h bad _ _ _).andThen fun s hs => ?_
    have h1 : numbersFit (s.modLine n fun x => { x with changePending := false, pacePending := false }) :=
      hs.modLine n (f := fun x => { x with changePending := false, pacePending := false })
        fun _ hr => { hr with }
    refine BusRes.Reaches.andThen ?_ fun s hs => rewriteBody_fits hs bad n _
    unfold readIfFull
    dsimp only
    split
    · exact busReadField_fits h1 fun v => takeTaken_fits h1 n _
    · exact h1
  · exact h

theorem LineFits.endRewriteLine {r : LineRec} (h : LineFits r) (moved : Nat) :
    LineFits (endRewriteLine moved r) := by
  have hq : (r.queue.drop moved).length ≤ Config.queueMax := by
    rw [List.length_drop]
    exact (Nat.sub_le _ _).trans h.queue
  exact { h with queue := hq }

theorem endRewrite_fits (h : numbersFit s) (bad : Option Word) (w : Rewrite) :
    (endRewrite bad w s).Reaches numbersFit := by
  refine (busWriteField_fits h bad _ _ _).andThen fun s hs => ?_
  have h1 := hs.modLine w.line fun _ hr => hr.endRewriteLine w.moved
  show numbersFit (if w.notable then _ else _)
  split
  · exact h1
  · exact h1

theorem writeHeader_fits (h : numbersFit s) (bad : Option Word) (stopped : Bool) :
    (writeHeader bad stopped s).Reaches numbersFit := by
  refine (busWriteField_fits h bad _ _ _).andThen fun s hs => ?_
  have h1 : numbersFit { s with headerPending := false } := hs
  refine (BusRes.reaches_busEach (fun s _ hs => busWriteField_fits hs bad _ _ _) _ h1).andThen fun s hs => ?_
  refine (busWrite_fits hs bad _ _).andThen fun s hs => ?_
  exact (busWriteField_fits hs bad _ _ _).andThen fun s hs => hs

/-! ### STARTING -/

theorem adoptSlot_fits (h : numbersFit s) (bad : Option Word) (k : SlotNo) :
    (adoptSlot bad s k).Reaches numbersFit := by
  refine busReadField_fits h fun issue => busReadField_fits h fun comp => ?_
  dsimp only
  split
  · exact h
  refine (busWriteField_fits (s := s.modSlot k _) h bad _ _ _).andThen fun s hs => ?_
  refine (busWriteField_fits hs bad _ _ _).andThen fun s hs => ?_
  refine (busWrite_fits hs bad _ _).andThen fun s hs => ?_
  refine (busWriteField_fits hs bad _ _ _).andThen fun s hs => ?_
  exact (busWriteField_fits hs bad _ _ _).andThen fun s hs => hs

theorem fullBody_fits (h : numbersFit s) (bad : Option Word) (n : LineNo) :
    (fullBody bad n s).Reaches numbersFit := by
  refine (BusRes.reaches_busEach (fun s _ hs => busWrite_fits hs bad _ _) _ h).andThen fun s hs => ?_
  refine (writeEntries_fits bad n _ hs _).andThen fun s hs => ?_
  refine (busWriteField_fits hs bad _ _ _).andThen fun s hs => ?_
  refine (BusRes.reaches_busEach (fun s _ hs => busWriteField_fits hs bad _ _ _) _ hs).andThen fun s hs => ?_
  refine (writeMeasures_fits hs bad n).andThen fun s hs => ?_
  refine (busWriteField_fits hs bad _ _ _).andThen fun s hs => ?_
  refine hs.modLine n fun r hr => LineFits.endRewriteLine ?_ _
  exact { hr with }

theorem adoptLine_fits (h : numbersFit s) (bad : Option Word) (n : LineNo) :
    (adoptLine bad s n).Reaches numbersFit := by
  refine busReadField_fits h fun v => ?_
  have h1 : numbersFit (adoptCounts s n (BitVec.ofNat 16 v)) :=
    h.modLine n (f := fun r => { r with taken := BitVec.ofNat 16 v, written := BitVec.ofNat 16 v })
      fun _ hr => { hr with }
  exact (busWriteField_fits h1 bad _ _ _).andThen fun s hs => fullBody_fits hs bad n

theorem enterStarting_fits (h : numbersFit s) (bad : Option Word) :
    (enterStarting bad s).Reaches numbersFit := by
  have h1 : numbersFit (latch s) := h
  refine (BusRes.reaches_busEach (fun s k hs => adoptSlot_fits hs bad k) allSlots h1).andThen fun s hs => ?_
  refine (BusRes.reaches_busEach (fun s n hs => adoptLine_fits hs bad n) allLines hs).andThen fun s hs => ?_
  exact writeHeader_fits (s := { s with changeCount := s.changeCount + 1 }) hs bad false

/-! ### Completions, orders and sweeps -/

theorem completeIfDue_fits (h : numbersFit s) (bad : Option Word) (k : SlotNo) :
    (completeIfDue bad k s).Reaches numbersFit := by
  unfold completeIfDue
  split
  next c _ =>
    have hr : (writeResult bad c s).Reaches numbersFit := by
      unfold writeResult
      split
      · exact busWriteFields_fits bad _ h _
      · exact h
    refine hr.andThen fun s hs => ?_
    refine (busWriteField_fits hs bad _ _ _).andThen fun s hs => ?_
    refine (busWriteField_fits hs bad _ _ _).andThen fun s hs => ?_
    refine (busWrite_fits hs bad _ _).andThen fun s hs => ?_
    exact (busWriteField_fits hs bad _ _ _).andThen fun s hs => hs
  · exact h

theorem orderCancel_fits (h : numbersFit s) (bad : Option Word) (k : SlotNo) (o : OrderRead) :
    (orderCancel bad s k o).Reaches numbersFit := by
  unfold orderCancel
  split
  · dsimp only
    split
    · exact refuse_fits h k _ _
    split
    · exact refuse_fits h k _ _
    · exact (completeIfDue_fits (abortSlot_fits h _ _ _) bad _).andThen fun s hs => complete_fits hs k _
  · exact refuse_fits h k _ _

theorem orderLoadProfile_fits (h : numbersFit s) (bad : Option Word) (k : SlotNo) (o : OrderRead) :
    (orderLoadProfile bad s k o).Reaches numbersFit := by
  unfold orderLoadProfile
  split
  · exact busRead_fits h fun b => loadProfile_fits h k _ b
  · exact refuse_fits h k _ _

theorem dispatch_fits (h : numbersFit s) (bad : Option Word) (k : SlotNo) (o : OrderRead) :
    (dispatch bad s k o).Reaches numbersFit := by
  unfold dispatch
  split
  · exact orderAssign_fits h k o
  · exact orderLoadProfile_fits h bad k o
  · exact orderEconomy_fits h k o
  · exact orderSurvey_fits h k o
  · exact orderCalibrate_fits h k o
  · exact orderSetTrim_fits h k o
  · exact orderInsulationTest_fits h k o
  · exact orderClearFault_fits h k o
  · exact orderListen_fits h k o
  · exact orderReceiverService_fits h k o
  · exact orderReceiverCheck_fits h k o
  · exact orderTrace_fits h k o
  · exact orderCancel_fits h bad k o
  · exact refuse_fits h k _ _

theorem takeSlot_fits (h : numbersFit s) (bad : Option Word) (k : SlotNo) :
    (takeSlot bad s k).Reaches numbersFit := by
  unfold takeSlot
  refine busRead_fits h fun b => ?_
  refine (busWriteField_fits h bad _ _ _).andThen fun s hs => ?_
  exact (dispatch_fits (s := s.modSlot k _) hs bad k _).andThen fun s hs => completeIfDue_fits hs bad k

theorem sweepSlot_fits (h : numbersFit s) (bad : Option Word) (k : SlotNo) :
    (sweepSlot bad s k).Reaches numbersFit := by
  refine busReadField_fits h fun issue => ?_
  split
  · exact (takeSlot_fits h bad k).andThen fun t ht => markChanges_fits ht
  · exact h

theorem sweepLine_fits (h : numbersFit s) (bad : Option Word) (n : LineNo) :
    (sweepLine bad s n).Reaches numbersFit := by
  unfold sweepLine
  split
  · exact h
  refine busReadField_fits h fun v => ?_
  have h1 := takeTaken_fits h n (BitVec.ofNat 16 v)
  show numbersFit (markRoom s n _)
  unfold markRoom
  split
  · exact markImage_fits h1 n
  · exact h1

theorem sweepBody_fits (h : numbersFit s) (bad : Option Word) : (sweepBody bad s).Reaches numbersFit := by
  have h1 : numbersFit { s with sweeping := true } := h
  exact (BusRes.reaches_busEach (fun s k hs => sweepSlot_fits hs bad k) allSlots h1).andThen fun s hs =>
    BusRes.reaches_busEach (fun s n hs => sweepLine_fits hs bad n) allLines hs

theorem callSweep_fits (h : numbersFit s) (bad : Option Word) : (callSweep bad s).Reaches numbersFit := by
  unfold callSweep
  split
  · split
    · exact h
    · exact sweepBody_fits h bad
  · exact h

theorem endSweep_fits (h : numbersFit s) (bad : Option Word) : (endSweep bad s).Reaches numbersFit := by
  unfold endSweep
  split
  · split
    · exact sweepBody_fits (s := { s with sweepAgain := false }) h bad
    · exact h
  · exact h

/-! ### Exchange states and register writes -/

theorem beginStopping_fits (h : numbersFit s) : numbersFit (beginStopping s) := by
  refine abortAll_fits ?_ .stopped .stopped
  exact h

theorem endStarting_fits (h : numbersFit s) (bad : Option Word) : (endStarting bad s).Reaches numbersFit := by
  unfold endStarting
  split
  · dsimp only
    split
    · refine sweepBody_fits ?_ bad
      exact h
    · refine beginStopping_fits ?_
      exact h
  · exact h

theorem endStopping_fits (h : numbersFit s) (bad : Option Word) : (endStopping bad s).Reaches numbersFit := by
  unfold endStopping
  split
  · refine (writeHeader_fits h bad true).andThen fun s hs => ?_
    split
    · exact enterStarting_fits hs bad
    · exact markChanges_fits (s := { s with exch := .stopped }) hs
  · exact h

/-- A line's numbers after a reset. -/
theorem lineFits_reset (c : CalRec) : LineFits { LineRec.reset with cal := c } := by
  constructor <;> simp [LineRec.reset, accFits]

theorem pinReset_fits : numbersFit (pinReset s) := by
  refine ⟨fun n => ?_, Nat.zero_le _⟩
  have h : (pinReset s).line n = { LineRec.reset with cal := CalRec.reset } := by
    simp [State.line, pinReset, State.reset, LineRec.reset]
  rw [h]
  exact lineFits_reset _

theorem softReset_fits : numbersFit (softReset s) := by
  refine ⟨fun n => ?_, Nat.zero_le _⟩
  have h : (softReset s).line n = { LineRec.reset with cal := (s.line n).cal } := by
    simp [State.line, softReset]
  rw [h]
  exact lineFits_reset _

theorem writeCtrl_fits (h : numbersFit s) (bad : Option Word) (v : Word) :
    (writeCtrl bad v s).Reaches numbersFit := by
  unfold writeCtrl
  split
  · exact softReset_fits
  generalize run s = old
  have h1 : numbersFit { s with ctrl := v &&& Config.ctrlMask } := h
  generalize ({ s with ctrl := v &&& Config.ctrlMask } : State) = s1 at h1
  unfold runChanged
  split
  · split
    · exact enterStarting_fits (markChanges_fits (periodDecision_fits h1)) bad
    · exact h1
  · show numbersFit (if _ then _ else _)
    split
    · exact markChanges_fits (periodDecision_fits h1)
    · exact h1
  · show numbersFit (if _ then _ else _)
    split
    · exact markChanges_fits (beginStopping_fits h1)
    · exact h1
  · show numbersFit (if _ then _ else _)
    split
    · exact h1
    · exact markChanges_fits (s := { s1 with exch := .stopped }) h1
  · exact h1

theorem writeReg_fits (h : numbersFit s) (bad : Option Word) (r : Reg) (v : Word) :
    numbersFit (writeReg bad r v s) := by
  unfold writeReg
  split
  · exact h
  · exact settle_fits (writeCtrl_fits h bad v)
  · exact h
  · split
    · exact h
    · exact h
  · split
    · exact h
    · exact h
  · exact markChanges_fits (settle_fits (callSweep_fits h bad))
  · exact h

end Sys2Proof.Machine
end

section
/-! O55: every command keeps the numbers in range. -/

namespace Sys2Proof.Machine

variable {s t : State}

/-! ### The shapes of the commands -/

theorem next_fits {u : State} (h : numbersFit u)
    (e : (.next u : Host.Outcome State Fault Refusal) = .next t) : numbersFit t :=
  Host.Outcome.next.inj e ▸ h

theorem marked_fits {u : State} (h : numbersFit u)
    (e : (.next (markChanges s u) : Host.Outcome State Fault Refusal) = .next t) : numbersFit t :=
  next_fits (markChanges_fits h) e

/-- A step on the bus finds the controller's bytes in the memory, and keeps the numbers in range if its effect
does. -/
theorem onBus_fits {b : Bus} {f : State → State} (h : numbersFit s)
    (hf : ∀ s, numbersFit s → numbersFit (f s)) (e : onBus b f s = .next t) : numbersFit t := by
  unfold onBus at e
  split at e
  · exact next_fits (hf (withCtl b s) h) e
  · cases e

theorem onBusMarked_fits {b : Bus} {f : State → BusRes} (h : numbersFit s)
    (hf : ∀ s, numbersFit s → (f s).Reaches numbersFit) (e : onBusMarked b f s = .next t) : numbersFit t :=
  onBus_fits h (fun s hs => markChanges_fits (settle_fits (hf s hs))) e

theorem caseStep_fits (h : numbersFit s) (due : Bool) (l : LinkNo) (p : PairNo) (x : Sample) :
    numbersFit (caseStep due s l p x) := by
  unfold caseStep
  split
  · exact sampleAnswered_fits h l p x
  · exact h

/-! ### The commands that are no one operation -/

theorem execPollTick_fits {b : Bus} (h : numbersFit s) (e : execPollTick b s = .next t) : numbersFit t := by
  refine onBusMarked_fits h (fun s hs => ?_) e
  split
  · exact callSweep_fits (s := pollTicked s) hs b.bad
  · exact hs

theorem execCompletion_fits {k : SlotNo} {b : Bus} (h : numbersFit s) (e : execCompletion k b s = .next t) :
    numbersFit t := by
  refine onBusMarked_fits h (fun s hs => ?_) e
  split
  · exact completeIfDue_fits hs b.bad k
  · exact hs

theorem execImageRewrite_fits {b : Bus} (h : numbersFit s) (e : execImageRewrite b s = .next t) :
    numbersFit t := by
  refine onBusMarked_fits h (fun s hs => ?_) e
  split
  · exact startRewrite_fits hs b.bad
  · exact hs

theorem execRewriteEnd_fits {b : Bus} (h : numbersFit s) (e : execRewriteEnd b s = .next t) :
    numbersFit t := by
  refine onBusMarked_fits h (fun s hs => ?_) e
  split
  · split
    · exact endRewrite_fits hs b.bad _
    · exact hs
  · exact hs

theorem execHeaderRewrite_fits {b : Bus} (h : numbersFit s) (e : execHeaderRewrite b s = .next t) :
    numbersFit t := by
  refine onBusMarked_fits h (fun s hs => ?_) e
  split
  · exact writeHeader_fits hs b.bad false
  · exact hs

theorem execMasterAccessFailure_fits {w : Word} (h : numbersFit s)
    (e : execMasterAccessFailure w s = .next t) : numbersFit t := by
  refine next_fits ?_ e
  split
  · exact halt_fits h w
  · exact h

theorem execPaceTick_fits {q : Pace} (h : numbersFit s) (e : execPaceTick q s = .next t) : numbersFit t := by
  refine next_fits ?_ e
  split
  · refine h.foldl (fun s n hs => ?_) allLines
    split
    · exact markPace_fits hs n
    · exact hs
  · exact h

theorem execLinkLoss_fits {l : LinkNo} (h : numbersFit s) (e : execLinkLoss l s = .next t) : numbersFit t := by
  refine marked_fits (s := s) ?_ e
  dsimp only
  split
  · exact timeOut_fits h l
  · exact h

theorem probeTimerEnds_fits (h : numbersFit s) (l : LinkNo) : numbersFit (probeTimerEnds s l) := by
  unfold probeTimerEnds
  dsimp only
  split
  · exact h
  · exact h

theorem idleEnds_fits (h : numbersFit s) (l : LinkNo) : numbersFit (idleEnds s l) := by
  unfold idleEnds
  dsimp only
  split
  · exact h
  · exact h

theorem surgeEnds_fits (h : numbersFit s) (l : LinkNo) : numbersFit (surgeEnds s l) := by
  unfold surgeEnds
  dsimp only
  split
  · exact h
  · exact h

theorem guardEnds_fits (h : numbersFit s) (k : RcvNo) : numbersFit (guardEnds s k) :=
  h.of_noRcv (guardEnds_noRcv s k) (guardEnds_engine s k)

/-- A command that is a block end where that block brings about a case, and nothing otherwise. -/
theorem blockCase_fits (h : numbersFit s) (due : Bool) (k : RcvNo) (v : BlockLevels) :
    numbersFit (if due then blockEnds s k v else s) := by
  split
  · exact blockEnds_fits h k v
  · exact h

theorem execListenExpiry_fits {k : SlotNo} (h : numbersFit s) (e : execListenExpiry k s = .next t) :
    numbersFit t := by
  refine marked_fits (s := s) ?_ e
  dsimp only
  split
  · exact h.of_noRcv (expireListen_noRcv s k) (expireListen_engine s k)
  · exact h

/-! ### Every command, every step -/

theorem exec_fits {c : Instr} (h : numbersFit s) (e : exec c s = .next t) : numbersFit t := by
  cases c with
  | pinReset => exact next_fits pinReset_fits e
  | softReset v => exact next_fits softReset_fits e
  | runSet v b => exact onBus_fits h (fun s hs => settle_fits (writeCtrl_fits hs b.bad _)) e
  | startingEnd b => exact onBusMarked_fits h (fun s hs => endStarting_fits hs b.bad) e
  | runClear v => exact next_fits (settle_fits (writeCtrl_fits h none _)) e
  | stoppingEnd b => exact onBus_fits h (fun s hs => settle_fits (endStopping_fits hs b.bad)) e
  | haltClear v => exact next_fits (settle_fits (writeCtrl_fits h none _)) e
  | statClear v => exact next_fits (u := writeStat v s) h e
  | registerWrite r v b => exact onBus_fits h (fun s hs => writeReg_fits hs b.bad r v) e
  | attnWrite b => exact onBusMarked_fits h (fun s hs => callSweep_fits hs b.bad) e
  | pollTick b => exact execPollTick_fits h e
  | sweepEnd b => exact onBusMarked_fits h (fun s hs => endSweep_fits hs b.bad) e
  | completion k b => exact execCompletion_fits h e
  | imageRewrite b => exact execImageRewrite_fits h e
  | rewriteEnd b => exact execRewriteEnd_fits h e
  | headerRewrite b => exact execHeaderRewrite_fits h e
  | masterAccessFailure w => exact execMasterAccessFailure_fits h e
  | paceTick q => exact execPaceTick_fits h e
  | scanPeriodStart => exact marked_fits (startPeriod_fits h) e
  | sampleReply l p x => exact marked_fits (sampleAnswered_fits h l p x) e
  | interdigitCompletion l p x => exact marked_fits (caseStep_fits h _ l p x) e
  | longBreakCompletion l p x => exact marked_fits (caseStep_fits h _ l p x) e
  | clear l p x => exact marked_fits (caseStep_fits h _ l p x) e
  | lockoutClear l p x => exact marked_fits (caseStep_fits h _ l p x) e
  | firstDigitTimeout l p x => exact marked_fits (caseStep_fits h _ l p x) e
  | dialEndTimeout l p x => exact marked_fits (caseStep_fits h _ l p x) e
  | surveyCompletion l p x => exact marked_fits (caseStep_fits h _ l p x) e
  | quietDelay l p x => exact marked_fits (caseStep_fits h _ l p x) e
  | decisionEnd l p x => exact marked_fits (caseStep_fits h _ l p x) e
  | phaseComplete l p x => exact marked_fits (caseStep_fits h _ l p x) e
  | exchangeTimeout l => exact marked_fits (timeOut_fits h l) e
  | linkLoss l => exact execLinkLoss_fits h e
  | unmatchedReply l r => exact next_fits h e
  | probeTimer l => exact marked_fits (probeTimerEnds_fits h l) e
  | idleProbe l => exact marked_fits (idleEnds_fits h l) e
  | probeReply l c r => exact marked_fits (probeAnswered_fits h l c r) e
  | surgeHoldExpiry l => exact marked_fits (surgeEnds_fits h l) e
  | trimReply l a => exact marked_fits (trimAnswered_fits h l a) e
  | relayReply l a => exact marked_fits (relayAnswered_fits h l a) e
  | tapConnectReply l a => exact marked_fits (connectAnswered_fits h l a) e
  | tapDisconnectReply l a => exact marked_fits (disconnectAnswered_fits h l a) e
  | tapClearAllReply l a => exact marked_fits (clearAllAnswered_fits h l a) e
  | guardEnd k => exact marked_fits (guardEnds_fits h k) e
  | blockEnd k v => exact marked_fits (blockEnds_fits h k _) e
  | toneAcceptance k v => exact marked_fits (blockCase_fits h _ k _) e
  | gapEnd k v => exact marked_fits (blockCase_fits h _ k _) e
  | checkEnd k => exact marked_fits (blockCase_fits h _ k _) e
  | listenExpiry k => exact execListenExpiry_fits h e
  | traceExpiry => exact marked_fits (traceExpires_fits h) e
  | warbleHalf => exact marked_fits (warble_fits h) e

/-- Poll ticks and surge holds that end in a millisecond leave the numbers of the lines. -/
theorem idle_fits (h : numbersFit s) : numbersFit (idle s) := by
  have h1 : ∀ s, numbersFit s → numbersFit (if pollDue s then pollTicked s else s) := fun s hs => by
    split
    · exact hs
    · exact hs
  have h2 : numbersFit (pollPast s) := h1 _ (h1 s h)
  unfold idle
  extract_lets s1
  have h3 : numbersFit s1 := h2.foldl (fun s l hs => surgeEnds_fits hs l) allLinks
  clear_value s1
  exact h3

/-- Settles O55: the numbers in range are an invariant of every command and of a millisecond that passes. -/
theorem stepsKeepTheNumbersInRange : Obligations.StepsKeepTheNumbersInRange := by
  intro s t h e
  unfold step at e
  split at e
  · exact next_fits (idle_fits h) e
  · next c rest _ => exact exec_fits (s := { s with pending := rest }) h e

end Sys2Proof.Machine
end

section
/-! O1: a step runs the front command, or lets a millisecond pass (logs 1, 19, 40). -/

namespace Sys2Proof.Machine

/-! ### The poll timer over a millisecond -/

/-- The fastest poll rate leaves 250 units between ticks (R169). -/
theorem pollInterval_ge (c : Word) : 250 ≤ pollInterval c := by
  unfold pollInterval pollRate
  have h : min ((c >>> 8).toNat % 8) 4 + 1 ≤ 5 := by omega
  have h4 : 4 ^ (min ((c >>> 8).toNat % 8) 4 + 1) ≤ 4 ^ 5 := Nat.pow_le_pow_right (by omega) h
  rw [Nat.le_div_iff_mul_le (Nat.pow_pos (by omega))]
  omega

/-- Where the poll timer stands once the ticks of a millisecond are past (R169; log 40). -/
def pollAfter (s : State) : Nat :=
  if 256 ≤ s.pollIn then s.pollIn
  else if 256 ≤ s.pollIn + pollInterval s.ctrl then s.pollIn + pollInterval s.ctrl
  else s.pollIn + 2 * pollInterval s.ctrl

/-- The ticks of a millisecond move the poll timer alone. -/
theorem pollPast_eq (s : State) : pollPast s = { s with pollIn := pollAfter s } := by
  simp only [pollPast, pollDue, pollAfter, decide_eq_true_eq]
  by_cases h1 : s.pollIn < 256
  · rw [if_pos h1, if_neg (not_le.2 h1)]
    by_cases h2 : s.pollIn + pollInterval s.ctrl < 256
    · simp only [pollTicked, h2, not_le.2 h2, if_true, if_false, two_mul, Nat.add_assoc]
    · simp only [pollTicked, h2, not_lt.1 h2, if_true, if_false]
  · simp only [h1, not_lt.1 h1, if_true, if_false]

/-! ### The surge holds over a millisecond -/

/-- A surge hold whose 100 ms are over is out of force; nothing else of the link's record moves (R5). -/
theorem surgeEnds_link (s : State) (l m : LinkNo) :
    (surgeEnds s l).link m =
      if m = l ∧ (s.link l).surgeOn = true ∧ 100 ≤ (s.time - (s.link l).surgeTime).toNat
      then { s.link l with surgeOn := false } else s.link m := by
  have hs : surgeEnds s l = if (s.link l).surgeOn = true ∧ 100 ≤ (s.time - (s.link l).surgeTime).toNat
      then s.modLink l fun r => { r with surgeOn := false } else s := rfl
  rw [hs]
  by_cases hd : (s.link l).surgeOn = true ∧ 100 ≤ (s.time - (s.link l).surgeTime).toNat
  · rw [if_pos hd, State.link_modLink_ite]
    simp only [hd, and_self, and_true]
  · rw [if_neg hd]
    simp only [hd, and_false, if_false]

theorem surgeEnds_time (s : State) (l : LinkNo) : (surgeEnds s l).time = s.time :=
  (congrArg State.time (surgeEnds_frame s l) :)

/-- The holds of a list of links, each ended if its 100 ms are over. -/
theorem surgeEnds_foldl_link (ls : List LinkNo) (hl : ls.Nodup) (s : State) (m : LinkNo) :
    (ls.foldl surgeEnds s).link m =
      if m ∈ ls ∧ (s.link m).surgeOn = true ∧ 100 ≤ (s.time - (s.link m).surgeTime).toNat
      then { s.link m with surgeOn := false } else s.link m := by
  induction ls generalizing s with
  | nil => simp
  | cons l ls ih =>
    rw [List.nodup_cons] at hl
    rw [List.foldl_cons, ih hl.2, surgeEnds_time, surgeEnds_link]
    by_cases hm : m = l
    · subst hm
      simp [hl.1]
    · simp [hm]

/-- A millisecond that passes moves the time, the poll timer and the links alone. -/
theorem idle_eq (s : State) :
    idle s = { s with time := s.time + 1, pollIn := pollAfter s - 256, links := (idle s).links } := by
  have hu : ∀ u : State, { u with links := s.links } = { s with pollIn := pollAfter s } →
      { u with time := u.time + 1, pollIn := u.pollIn - 256 }
        = { s with time := s.time + 1, pollIn := pollAfter s - 256, links := u.links } := by
    intro u h
    cases u; cases s
    simp_all
  have h := surgesPast_frame (pollPast s)
  rw [pollPast_eq] at h
  unfold idle
  rw [pollPast_eq]
  exact hu _ h

/-- The surge holds after a millisecond that passes. -/
theorem idle_link (s : State) (l : LinkNo) :
    (idle s).link l = if (s.link l).surgeOn = true ∧ 100 ≤ (s.time - (s.link l).surgeTime).toNat
      then { s.link l with surgeOn := false } else s.link l := by
  have h := surgeEnds_foldl_link allLinks (List.nodup_finRange 4) (pollPast s) l
  simp only [show l ∈ allLinks from List.mem_finRange l, true_and] at h
  have hu : ∀ u : State, { u with time := u.time + 1, pollIn := u.pollIn - 256 }.link l = u.link l :=
    fun _ => rfl
  unfold idle surgesPast
  rw [hu, h, pollPast_eq]
  rfl

/-- Settles O1: the front command by definition; a millisecond by what becomes of the poll timer and of the surge
holds in it. -/
theorem stepRunsTheFrontCommand : Obligations.StepRunsTheFrontCommand := by
  refine ⟨fun c rest s => rfl, fun s hp => ?_⟩
  intro i
  have hi : 250 ≤ i := pollInterval_ge s.ctrl
  have hq : pollAfter s = if 256 ≤ s.pollIn then s.pollIn else if 256 ≤ s.pollIn + i then s.pollIn + i
    else s.pollIn + 2 * i := rfl
  clear_value i
  have hs : step s = .next (idle s) := by unfold step; rw [hp]
  refine ⟨idle s, pollAfter s - 256, hs, idle_eq s, idle_link s, fun h => ?_, fun h h' => ?_, fun h => ?_⟩
  · rw [hq, if_pos h]
    omega
  · rw [hq, if_neg (by omega), if_pos h']
    omega
  · rw [hq, if_neg (by omega), if_neg (by omega)]
    omega

end Sys2Proof.Machine
end

section
/-! SUPPORT. What an ACCEPTED, a HELD and a MISSING scan do to an ACTIVE line: the filter, the classification and the
acceptance as one function of the line's record, which supervision and the survey leave as it is; and the marks
and the sending that follow a scan in its step. -/

namespace Sys2Proof.Machine

/-! ### Lines and pairs -/

@[simp] theorem linkOf_lineAt (l : LinkNo) (p : PairNo) : linkOf (lineAt l p) = l := by
  apply Fin.ext
  simp only [linkOf, lineAt]
  omega

/-! ### Classification -/

/-- The run with a raw class goes on: the candidate is that class, or both are open and the line leaves a loop
(R15). -/
def runGoesOn (raw : Cls) (r : LineRec) : Bool :=
  (isLoopCls r.accepted && isOpenCls raw && candidateOpen r.candidate) || decide (r.candidate = some raw)

/-- The candidate's run after a scan of a raw class that is not the accepted one (R15). -/
def nextRun (raw : Cls) (r : LineRec) : Nat := if runGoesOn raw r then satInc Config.max16 r.run else 1

theorem updateCandidate_same {raw : Cls} {r : LineRec} (h : raw = r.accepted) :
    updateCandidate raw r = { r with candidate := none, run := 0 } := if_pos h

theorem updateCandidate_new {raw : Cls} {r : LineRec} (h : raw ≠ r.accepted) :
    updateCandidate raw r = { r with candidate := some raw, run := nextRun raw r } := by
  unfold updateCandidate nextRun runGoesOn
  rw [if_neg h]
  by_cases h1 : (isLoopCls r.accepted && isOpenCls raw && candidateOpen r.candidate) = true
  · rw [if_pos h1, h1]
    rfl
  rw [if_neg h1, Bool.eq_false_of_not_eq_true h1]
  by_cases h2 : r.candidate = some raw
  · simp [h2]
  · simp [h2]

/-- The acceptance of a candidate whose run has reached the persistence (R16, R17). -/
def acceptDue (p : Conv) (r : LineRec) : LineRec :=
  match acceptedNow p r with
  | some c => acceptClass c r
  | none => r

/-- An ACCEPTED scan's measurement of a line: filter, candidate and acceptance (R8, R9, R13 to R17). -/
def scanned (p : Conv) (t : Word) (x : Sample) (r : LineRec) : LineRec :=
  let f := filterStep p.shift t x r
  acceptDue p (updateCandidate (rawClass p.thr f) f)

/-- A line's record without its classification. -/
def LineRec.unclassified (r : LineRec) : LineRec := { r with candidate := none, run := 0, accepted := .none, age := 0 }

theorem acceptDue_unclassified (p : Conv) (r : LineRec) : (acceptDue p r).unclassified = r.unclassified := by
  unfold acceptDue
  split <;> rfl

theorem updateCandidate_unclassified (raw : Cls) (r : LineRec) :
    (updateCandidate raw r).unclassified = r.unclassified := by
  unfold updateCandidate
  repeat' first | rfl | split

/-- Of the record the measurement of a scan changes what the filter does, and the classification. -/
theorem scanned_unclassified (p : Conv) (t : Word) (x : Sample) (r : LineRec) :
    (scanned p t x r).unclassified = (filterStep p.shift t x r).unclassified :=
  (acceptDue_unclassified p _).trans (updateCandidate_unclassified _ _)

/-! ### A scan of a line -/

/-- The converted profile that a line uses stays the same while its profile number and the profiles do. -/
theorem conv_congr {s t : State} (he : t.engine = s.engine) {n : LineNo}
    (hp : (t.line n).profile = (s.line n).profile) : t.conv n = s.conv n := by
  have h : t.profiles = s.profiles := congrArg Engine.profiles he
  simp only [State.conv, State.profile, hp, h]

theorem scanMeasure_line (s : State) (n : LineNo) (x : Sample) :
    ((scanMeasure s n x).line n).unsupervised
      = (let f := filterStep (s.conv n).shift s.time x (s.line n)
         updateCandidate (rawClass (s.conv n).thr f) f).unsupervised := by
  unfold scanMeasure
  dsimp only
  refine (line_unsupervised ((quietScan_unsupervised _ n _).trans (updatePeak_unsupervised _ n)) n).trans ?_
  simp only [State.line_modLine_same]

/-- What is accepted rests on the measured part of the record alone. -/
theorem acceptDue_congr (p : Conv) {a b : LineRec} (h : a.unsupervised = b.unsupervised) :
    (acceptDue p a).unsupervised = (acceptDue p b).unsupervised := by
  have he : ∀ r, acceptedNow p r = acceptedNow p r.unsupervised := fun r => rfl
  have hc : ∀ c, (acceptClass c a).unsupervised = (acceptClass c b).unsupervised := fun c =>
    (congrArg (acceptClass c) h :)
  unfold acceptDue
  rw [he a, he b, h]
  split
  · exact hc _
  · exact h

theorem scanAccept_line (s : State) (n : LineNo) :
    ((scanAccept s n).line n).unsupervised = (acceptDue (s.conv n) (s.line n)).unsupervised := by
  have hadv := advanceCounters_unsupervised (s.line n).accepted (s.line n)
  rw [← acceptDue_congr (s.conv n) hadv]
  have hline : ((s.modLine n (advanceCounters (s.line n).accepted)).line n)
      = advanceCounters (s.line n).accepted (s.line n) := State.line_modLine_same _ _ _
  have hconv : (s.modLine n (advanceCounters (s.line n).accepted)).conv n = s.conv n :=
    conv_congr (modLine_engine s n _) (hline ▸ (congrArg LineRec.profile hadv :))
  unfold scanAccept acceptDue
  dsimp only
  rw [hconv, hline]
  cases acceptedNow (s.conv n) (advanceCounters (s.line n).accepted (s.line n)) with
  | some c =>
    dsimp only
    refine (line_unsupervised (takeAcceptance_unsupervised _ n _ c _) n).trans ?_
    split
    · refine (line_unsupervised (abortTraceOn_unsupervised _ n _) n).trans ?_
      simp only [State.line_modLine_same]
    · simp only [State.line_modLine_same]
  | none =>
    dsimp only
    rw [hline]

/-- Supervision's three stages leave what a scan has measured (R23). -/
theorem testLimits_scanFront_line (s : State) (n : LineNo) (x : Sample) :
    ((testLimits (scanFront s n x) n).line n).unsupervised
      = (scanned (s.conv n) s.time x (s.line n)).unsupervised := by
  have hm := scanMeasure_line s n x
  have hf : (let f := filterStep (s.conv n).shift s.time x (s.line n)
      updateCandidate (rawClass (s.conv n).thr f) f).profile = (s.line n).profile :=
    (congrArg LineRec.profile (updateCandidate_unclassified _ (filterStep (s.conv n).shift s.time x (s.line n))) :)
  have hp : ((scanMeasure s n x).line n).profile = (s.line n).profile :=
    ((congrArg LineRec.profile hm :)).trans hf
  have hc : (scanMeasure s n x).conv n = s.conv n := conv_congr (scanMeasure_engine s n x) hp
  rw [line_unsupervised (testLimits_unsupervised _ n) n, scanFront, scanAccept_line, hc]
  exact acceptDue_congr _ hm

theorem scanFront_links (s : State) (n : LineNo) (x : Sample) :
    (scanFront s n x).unsupervised.2 = s.unsupervised.2 := by
  have hm : (scanMeasure s n x).unsupervised.2 = s.unsupervised.2 := by
    unfold scanMeasure
    dsimp only
    rw [quietScan_unsupervised, updatePeak_unsupervised]
    rfl
  rw [← hm]
  unfold scanFront scanAccept
  dsimp only
  split
  · rw [takeAcceptance_unsupervised]
    split
    · rw [abortTraceOn_unsupervised]
      rfl
    · rfl
  · rfl

/-! ### A survey's scan -/

/-- A scan that is not the last of a survey is counted in its context. -/
theorem surveyScan_counts {s : State} {n : LineNo} {out : ScanOutcome}
    (h : ∀ c, (s.line n).survey = some c → (surveyTake out c).accepted < (surveyTake out c).n) :
    surveyScan s n out = s.modLine n fun r => { r with survey := r.survey.map (surveyTake out) } := by
  unfold surveyScan
  split
  · next c hc =>
    simp only [Nat.not_le.2 (h c hc), if_false, State.modLine, hc, Option.map_some]
  · next hc =>
    have : { s.line n with survey := (s.line n).survey.map (surveyTake out) } = s.line n := by
      rw [hc, Option.map_none, ← hc]
    simp only [State.modLine, this]
    simp [State.line]

/-- A survey's scan changes of the line its survey alone, and no link. -/
theorem surveyScan_line (s : State) (n : LineNo) (out : ScanOutcome) :
    { (surveyScan s n out).line n with survey := (s.line n).survey } = s.line n := by
  have he : ∀ k c, (endOrder s k c).line n = s.line n := fun k c => by
    unfold endOrder
    split <;> rfl
  unfold surveyScan
  split
  · dsimp only
    split
    · simp only [completeSurvey, State.line_modLine_same, he]
    · simp only [State.line_modLine_same]
  · rfl

theorem surveyScan_links (s : State) (n : LineNo) (out : ScanOutcome) :
    (surveyScan s n out).links = s.links := by
  have he : ∀ k c, (endOrder s k c).links = s.links := fun k c => by
    unfold endOrder
    split <;> rfl
  unfold surveyScan
  split
  · dsimp only
    split
    · exact he _ _
    · rfl
  · rfl

/-! ### The step of a SAMPLE-REPLY -/

/-- A matching SAMPLE-REPLY is taken, and the link goes on (R134). -/
theorem exec_sampleReply {s : State} {l : LinkNo} {p : PairNo} (x : Sample)
    (h : (s.link l).exchange = some (.sample p)) :
    exec (.sampleReply l p x) s
      = .next (markChanges s (advanceLink (takeSample (replyTaken s l) (lineAt l p) x) l)) := by
  show Host.Outcome.next (markChanges s (sampleAnswered s l p x)) = _
  rw [sampleAnswered, if_pos h]

theorem takeSample_eq (s : State) (l : LinkNo) (p : PairNo) (x : Sample) :
    takeSample (replyTaken s l) (lineAt l p) x
      = routeScan (atReply s l x) (lineAt l p) (replyOutcome (atReply s l x) (lineAt l p) x) := by
  unfold takeSample atReply
  rw [linkOf_lineAt]

theorem surgeInForce_replyTaken (s : State) (l : LinkNo) : surgeInForce (replyTaken s l) l = surgeInForce s l := by
  have hl : (replyTaken s l).link l = { s.link l with exchange := none, idleTime := s.time, failRun := 0 } := by
    simp [replyTaken, endExchange]
  unfold surgeInForce
  rw [hl]
  rfl

/-- The scan of an ACTIVE line without SURGE or TESTRANGE, no surge hold in force, is ACCEPTED (R3, R4). -/
theorem takeSample_accepted {s : State} {l : LinkNo} {p : PairNo} {x : Sample}
    (hv : (s.line (lineAt l p)).service = .active) (hx : x.surge = false) (hh : surgeInForce s l = false)
    (ht : x.testRange = false) :
    takeSample (replyTaken s l) (lineAt l p) x = activeScan (replyTaken s l) (lineAt l p) x := by
  have hr : atReply s l x = replyTaken s l := by simp [atReply, surgeStep, hx]
  have ho : replyOutcome (replyTaken s l) (lineAt l p) x = .accepted x := by
    simp [replyOutcome, hx, ht, surgeInForce_replyTaken, hh]
  have hv' : ((replyTaken s l).line (lineAt l p)).service = .active := hv
  rw [takeSample_eq, hr, ho, routeScan, hv']

/-- The scan of an ACTIVE line with SURGE, or under the surge hold, is HELD, and goes to its survey alone (R5,
R6). -/
theorem takeSample_held {s : State} {l : LinkNo} {p : PairNo} {x : Sample}
    (hv : (s.line (lineAt l p)).service = .active) (h : x.surge = true ∨ surgeInForce s l = true) :
    takeSample (replyTaken s l) (lineAt l p) x = surveyScan (atReply s l x) (lineAt l p) .held := by
  have ho : replyOutcome (atReply s l x) (lineAt l p) x = .held := by
    by_cases hx : x.surge = true
    · simp [replyOutcome, hx]
    · have hh := h.resolve_left hx
      simp [replyOutcome, hx, atReply, surgeStep, surgeInForce_replyTaken, hh]
  have hl : (atReply s l x).line (lineAt l p) = s.line (lineAt l p) := by
    unfold atReply surgeStep
    split <;> rfl
  rw [takeSample_eq, ho, routeScan, hl, hv]

/-! ### What follows a scan in its step -/

theorem markChanges_line_unsupervised (a b : State) (n : LineNo) :
    ((markChanges a b).line n).unsupervised = (b.line n).unsupervised := by
  rw [markChanges_line]
  rfl

theorem markChanges_line_noRcv (a b : State) (n : LineNo) :
    ((markChanges a b).line n).noRcv = (b.line n).noRcv := by
  rw [markChanges_line]
  rfl

/-- The lines other than the one scanned change in their receivers and marks at most. -/
theorem scanStep_others (s : State) (l : LinkNo) (p : PairNo) (x : Sample) {m : LineNo} (h : m ≠ lineAt l p) :
    sameButReceiver
      ((markChanges s (advanceLink (takeSample (replyTaken s l) (lineAt l p) x) l)).line m) (s.line m) := by
  refine sameButReceiver_of_noRcv ?_
  rw [markChanges_line_noRcv, advanceLink_line]
  exact takeSample_noRcv (replyTaken s l) (lineAt l p) x h

theorem scanStep_engine (s : State) (l : LinkNo) (p : PairNo) (x : Sample) :
    (markChanges s (advanceLink (takeSample (replyTaken s l) (lineAt l p) x) l)).engine = s.engine := by
  rw [markChanges_engine, advanceLink_engine, takeSample_engine, replyTaken_engine]

/-- A line's record as the scans measure it: without what supervision moves and without its survey. -/
def LineRec.measured (r : LineRec) : LineRec := { r.unsupervised with survey := none }

theorem measured_congr {a b : LineRec} (h : a.unsupervised = b.unsupervised) : a.measured = b.measured :=
  congrArg (fun r : LineRec => { r with survey := none }) h

/-- An ACCEPTED scan measures its line, whatever supervision and the survey do at it. -/
theorem activeScan_measured (s : State) (n : LineNo) (x : Sample) :
    ((activeScan s n x).line n).measured = (scanned (s.conv n) s.time x (s.line n)).measured := by
  have h := testLimits_scanFront_line s n x
  unfold activeScan
  generalize testLimits (scanFront s n x) n = v at h ⊢
  have hs := surveyScan_line v n (.accepted x)
  generalize (surveyScan v n (.accepted x)).line n = y at hs ⊢
  have hy : y.measured = (v.line n).measured := (congrArg LineRec.measured hs :)
  exact hy.trans (measured_congr h)

theorem scanStep_measured {s : State} {l : LinkNo} {p : PairNo} {x : Sample}
    (hv : (s.line (lineAt l p)).service = .active) (hx : x.surge = false) (hh : surgeInForce s l = false)
    (ht : x.testRange = false) :
    ((markChanges s (advanceLink (takeSample (replyTaken s l) (lineAt l p) x) l)).line (lineAt l p)).measured
      = (scanned (s.conv (lineAt l p)) s.time x (s.line (lineAt l p))).measured := by
  rw [measured_congr (markChanges_line_unsupervised _ _ _), advanceLink_line, takeSample_accepted hv hx hh ht,
    activeScan_measured]
  rfl

end Sys2Proof.Machine
end

section
/-! O27, O28, O30, O34: the scans of an ACTIVE line. -/

namespace Sys2Proof.Machine

/-! ### O27: the filter -/

/-- The accumulators, the seed-pending mark and the time that a scan leaves in a line (R8, R9, R167). -/
theorem filtered_of_measured {y : LineRec} {p : Conv} {t : Word} {x : Sample} {r : LineRec}
    (h : y.measured = (scanned p t x r).measured) :
    y.aVt = stepAcc r.seedPending p.shift r.aVt x.vt.toInt ∧ y.aVr = stepAcc r.seedPending p.shift r.aVr x.vr.toInt
      ∧ y.aI = stepAcc r.seedPending p.shift r.aI x.i.toInt ∧ y.seedPending = false ∧ y.measTime = t := by
  have h1 : y.unclassified.measured = (filterStep p.shift t x r).unclassified.measured :=
    ((congrArg LineRec.unclassified h :)).trans
      (congrArg LineRec.measured (scanned_unclassified p t x r))
  exact ⟨(congrArg LineRec.aVt h1 :), (congrArg LineRec.aVr h1 :), (congrArg LineRec.aI h1 :),
    (congrArg LineRec.seedPending h1 :), (congrArg LineRec.measTime h1 :)⟩

/-- The link of a taken SAMPLE-REPLY after the step: its failure run is 0 and its surge hold as the reply leaves
it (R134, R138, R5). -/
theorem atReply_link (s : State) (l : LinkNo) (x : Sample) :
    (atReply s l x).link l =
      { s.link l with exchange := none, idleTime := s.time, failRun := 0,
                      surgeTime := if x.surge then s.time else (s.link l).surgeTime,
                      surgeOn := x.surge || (s.link l).surgeOn } := by
  unfold atReply surgeStep
  cases x.surge <;> simp [startSurge, replyTaken, endExchange]

theorem activeScan_links (s : State) (n : LineNo) (x : Sample) :
    (activeScan s n x).unsupervised.2 = s.unsupervised.2 := by
  have h : (testLimits (scanFront s n x) n).unsupervised.2 = s.unsupervised.2 := by
    rw [testLimits_unsupervised, scanFront_links]
  unfold activeScan
  generalize testLimits (scanFront s n x) n = v at h ⊢
  exact (congrArg (Vector.map LinkRec.standing) (surveyScan_links v n (.accepted x))).trans h

theorem scanStep_failRun {s : State} {l : LinkNo} {p : PairNo} {x : Sample}
    (hv : (s.line (lineAt l p)).service = .active) (hx : x.surge = false) (hh : surgeInForce s l = false)
    (ht : x.testRange = false) :
    ((markChanges s (advanceLink (takeSample (replyTaken s l) (lineAt l p) x) l)).link l).failRun = 0 := by
  have h1 := link_standing (activeScan_links (replyTaken s l) (lineAt l p) x) l
  rw [markChanges_link, takeSample_accepted hv hx hh ht]
  generalize activeScan (replyTaken s l) (lineAt l p) x = v at h1 ⊢
  have h2 : ((replyTaken s l).link l).failRun = 0 := by simp [replyTaken]
  exact ((congrArg LinkRec.failRun ((advanceLink_standing v l l).trans h1) :)).trans h2

/-- Settles O27: the step of an ACCEPTED scan leaves the line measured as the filter gives it. -/
theorem acceptedScansFilterTheSample : Obligations.AcceptedScansFilterTheSample := by
  intro l p x s n r k move hex hv hx hh ht
  obtain ⟨hVt, hVr, hI, hseed, htime⟩ := filtered_of_measured (scanStep_measured hv hx hh ht)
  exact ⟨_, exec_sampleReply x hex, hVt, hVr, hI, hseed, htime,
    fun m hm => scanStep_others s l p x hm, scanStep_failRun hv hx hh ht, scanStep_engine s l p x⟩

/-! ### O28: the classification -/

theorem isOpenCls_eq (y : Cls) : decide (y = Cls.opn ∨ y = Cls.leak) = isOpenCls y := by
  cases y <;> rfl

theorem isFaultCls_eq (y : Cls) : decide (y = Cls.short ∨ y = Cls.ground ∨ y = Cls.foreign) = isFaultCls y := by
  cases y <;> rfl

theorem isLoopCls_eq (y : Cls) : decide (y = Cls.closed ∨ y = Cls.short) = isLoopCls y := by
  cases y <;> rfl

theorem candidateOpen_eq (o : Option Cls) : (o.map isOpenCls).getD false = candidateOpen o := by
  cases o <;> rfl

/-- The persistence of a transition, the class NONE counting as no open one (R16). -/
theorem persistence_eq (p : Conv) (a c : Cls) :
    persistence p a c =
      if isFaultCls c then p.fault else if isFaultCls a then p.restore
      else if a ≠ .none ∧ isOpenCls a = true ∧ isOpenCls c = true then p.fault else p.hook := by
  unfold persistence
  cases a <;> simp [isOpenCls]

/-- The candidate, run, accepted class and age that an ACCEPTED scan of a raw class leaves (R15 to R17). -/
theorem acceptDue_updateCandidate (p : Conv) (raw : Cls) (r : LineRec) :
    let y := acceptDue p (updateCandidate raw r)
    (raw = r.accepted → y.candidate = none ∧ y.run = 0 ∧ y.accepted = r.accepted ∧ y.age = r.age)
    ∧ (raw ≠ r.accepted → nextRun raw r < persistence p r.accepted raw →
        y.candidate = some raw ∧ y.run = nextRun raw r ∧ y.accepted = r.accepted ∧ y.age = r.age)
    ∧ (raw ≠ r.accepted → persistence p r.accepted raw ≤ nextRun raw r →
        y.candidate = none ∧ y.run = 0 ∧ y.accepted = raw ∧ y.age = nextRun raw r) := by
  refine ⟨fun h => ?_, fun h hr => ?_, fun h hr => ?_⟩
  · rw [updateCandidate_same h]
    exact ⟨rfl, rfl, rfl, rfl⟩
  · rw [updateCandidate_new h]
    simp [acceptDue, acceptedNow, Nat.not_le.2 hr]
  · rw [updateCandidate_new h]
    simp [acceptDue, acceptedNow, hr, acceptClass]

/-- Settles O28: the raw class is that of the filtered values, which the step leaves as the filter gives them. -/
theorem acceptedScansClassifyTheLine : Obligations.AcceptedScansClassifyTheLine := by
  intro l p x s n r c open_ major looped thr hex hv hx hh ht
  refine ⟨_, exec_sampleReply x hex, ?_, fun m hm => scanStep_others s l p x hm, scanStep_engine s l p x⟩
  have hm : _ = (scanned c s.time x r).measured := scanStep_measured hv hx hh ht
  generalize (markChanges s (advanceLink (takeSample (replyTaken s l) (lineAt l p) x) l)).line (lineAt l p) = y
    at hm
  obtain ⟨hVt, hVr, hI, -, -⟩ := filtered_of_measured hm
  intro vt vr i raw goesOn run need
  have hopen : open_ = isOpenCls := funext isOpenCls_eq
  have hmajor : major = isFaultCls := funext isFaultCls_eq
  have hlooped : looped = isLoopCls r.accepted := isLoopCls_eq r.accepted
  have hraw : raw = rawClass c.thr (filterStep c.shift s.time x r) := by
    simp only [raw, vt, vr, i, thr, hlooped, vtF, vrF, iF, hVt, hVr, hI]
    rfl
  have hrun : run = nextRun raw (filterStep c.shift s.time x r) := by
    simp only [run, goesOn, hlooped, hopen, candidateOpen_eq]
    rfl
  have hneed : need = persistence c r.accepted raw := by
    simp only [need, hmajor, hopen, persistence_eq]
  have h := acceptDue_updateCandidate c raw (filterStep c.shift s.time x r)
  rw [hrun, hneed]
  clear_value raw
  subst hraw
  have hcand : y.candidate = (scanned c s.time x r).candidate := (congrArg LineRec.candidate hm :)
  have hyrun : y.run = (scanned c s.time x r).run := (congrArg LineRec.run hm :)
  have hacc : y.accepted = (scanned c s.time x r).accepted := (congrArg LineRec.accepted hm :)
  have hage : y.age = (scanned c s.time x r).age := (congrArg LineRec.age hm :)
  rw [hcand, hyrun, hacc, hage]
  exact h

end Sys2Proof.Machine
end

section
/-! O30 and O34: the HELD scan, and the scan that completes a survey. -/

namespace Sys2Proof.Machine

/-! ### O30: HELD scans -/

/-- A reply that is taken changes, before its scan, its link's record alone. -/
theorem atReply_frame (s : State) (l : LinkNo) (x : Sample) : { atReply s l x with links := s.links } = s := by
  unfold atReply surgeStep
  split <;> rfl

theorem atReply_line (s : State) (l : LinkNo) (x : Sample) (m : LineNo) : (atReply s l x).line m = s.line m :=
  (congrArg (fun u : State => u.line m) (atReply_frame s l x) :)

/-- Settles O30: a HELD scan goes to the survey of its line alone, and the surge hold is as the reply leaves it. -/
theorem heldScansLeaveTheLineAlone : Obligations.HeldScansLeaveTheLineAlone := by
  intro l p x s n hex hv hc hheld
  have hsurge : x.surge = true ∨ surgeInForce s l = true := by
    refine hheld.imp_right fun h => ?_
    simp only [surgeInForce, Bool.and_eq_true, decide_eq_true_eq]
    exact h
  have hscan : takeSample (replyTaken s l) n x
      = (atReply s l x).modLine n fun r => { r with survey := r.survey.map (surveyTake .held) } := by
    rw [takeSample_held hv hsurge]
    exact surveyScan_counts fun c h => hc c (atReply_line s l x n ▸ h)
  have hstep := exec_sampleReply x hex
  have hengine := scanStep_engine s l p x
  change _ = Host.Outcome.next (markChanges s (advanceLink (takeSample (replyTaken s l) n x) l)) at hstep
  change (markChanges s (advanceLink (takeSample (replyTaken s l) n x) l)).engine = _ at hengine
  rw [hscan] at hstep hengine
  have hlink := advanceLink_standing
    ((atReply s l x).modLine n fun r => { r with survey := r.survey.map (surveyTake .held) }) l l
  rw [State.link_modLine, atReply_link] at hlink
  have hon := (congrArg LinkRec.surgeOn hlink :)
  have htime := (congrArg LinkRec.surgeTime hlink :)
  refine ⟨_, hstep, ?_, fun m hm => ?_, fun h => ?_, fun h => ?_, ?_, ?_, ?_, hengine⟩
  · rw [markChanges_line_bare, advanceLink_line, State.line_modLine_same, atReply_line]
    rfl
  · rw [markChanges_line_bare, advanceLink_line, State.line_modLine_other _ hm, atReply_line]
  · rw [markChanges_link]
    exact ⟨hon.trans (by rw [h]; rfl), htime.trans (by rw [h]; rfl)⟩
  · rw [markChanges_link]
    exact ⟨hon.trans (by rw [h]; rfl), htime.trans (by rw [h]; rfl)⟩
  · rw [markChanges_link]
    exact (congrArg LinkRec.failRun hlink :)
  · rw [markChanges_link]
    exact (congrArg LinkRec.idleTime hlink :)
  · rw [markChanges_slots, advanceLink_slots]
    exact (congrArg State.slots (atReply_frame s l x) :)

/-! ### O34: the result of a survey -/

/-- The rounding of a mean: to the nearest, ties away from zero (R20, R98). -/
theorem nearest_roundDiv (x : Int) {n : Nat} (hn : 1 ≤ n) : nearest x n (roundDiv x n) := by
  have hd := Nat.div_add_mod (2 * x.natAbs + n) (2 * n)
  have hm := Nat.mod_lt (2 * x.natAbs + n) (show 0 < 2 * n by omega)
  unfold nearest roundDiv
  generalize (2 * x.natAbs + n) / (2 * n) = q at hd ⊢
  generalize (2 * x.natAbs + n) % (2 * n) = m at hd hm
  have he : 2 * n * q = 2 * (q * n) := by ring
  rw [he] at hd
  have hq : ((q : Int) * n) = ((q * n : Nat) : Int) := by push_cast; ring
  simp only [Int.abs_eq_natAbs]
  split
  · rw [neg_mul, hq]
    generalize q * n = k at hd
    omega
  · rw [hq]
    generalize q * n = k at hd
    omega

/-- A reply is overrange by its flag or by a code at a converter limit (R2). -/
theorem overrange_iff (x : Sample) : overrange x = true ↔
    x.overrange = true ∨ ∃ y ∈ [x.vt, x.vr, x.i], y.toInt = -2048 ∨ y.toInt = 2047 := by
  simp only [overrange, Bool.or_eq_true, decide_eq_true_eq, List.mem_cons, List.not_mem_nil, or_false,
    exists_eq_or_imp, exists_eq_left]
  tauto

theorem endOrder_slot {s : State} (h : s.exch = .running ∨ s.exch = .stopping) (k : SlotNo) (c : Completion) :
    (endOrder s k c).slot k = { s.slot k with flight := none, due := some c } := by
  rw [endOrder, if_pos h, State.slot_modSlot_same]

theorem endOrder_line (s : State) (k : SlotNo) (c : Completion) (n : LineNo) :
    (endOrder s k c).line n = s.line n := by
  unfold endOrder
  split <;> rfl

/-- An ACCEPTED scan: neither SURGE nor a surge hold, nor TESTRANGE but on a line under test (R3, R4). -/
theorem replyOutcome_accepted {s : State} {n : LineNo} {x y : Sample} (h : replyOutcome s n x = .accepted y) :
    x.surge = false ∧ surgeInForce s (linkOf n) = false
      ∧ (x.testRange = true → (s.line n).service = .testing) := by
  unfold replyOutcome at h
  split at h
  · cases h
  · next h1 =>
    split at h
    · cases h
    · next h2 =>
      split at h
      · cases h
      · next h3 =>
        exact ⟨Bool.eq_false_of_not_eq_true h1, Bool.eq_false_of_not_eq_true h2,
          fun ht => by_contra fun hs => h3 ⟨ht, hs⟩⟩

/-- The case of a survey's last scan: the reply matches, its line is ACTIVE, and the scan is ACCEPTED and brings the
count of the survey to N. -/
theorem surveyCase_spec {s : State} {l : LinkNo} {p : PairNo} {x : Sample} {c : SurveyCtx}
    (h : replyCase surveyDue .active s l p x = true) (hc : (s.line (lineAt l p)).survey = some c) :
    (s.link l).exchange = some (.sample p) ∧ (s.line (lineAt l p)).service = .active
      ∧ x.surge = false ∧ surgeInForce s l = false ∧ x.testRange = false ∧ c.n ≤ c.accepted + 1 := by
  simp only [replyCase, Bool.and_eq_true, decide_eq_true_eq, atReply_line] at h
  obtain ⟨⟨hex, hv⟩, hd⟩ := h
  unfold surveyDue at hd
  rw [atReply_line, hc] at hd
  split at hd
  · next c' y hsc hout =>
    obtain rfl := Option.some.inj hsc
    obtain ⟨hx, hh, ht⟩ := replyOutcome_accepted hout
    have hr : atReply s l x = replyTaken s l := by simp [atReply, surgeStep, hx]
    rw [linkOf_lineAt, hr, surgeInForce_replyTaken] at hh
    rw [atReply_line, hv] at ht
    exact ⟨hex, hv, hx, hh, Bool.eq_false_of_not_eq_true (fun e => nomatch ht e), of_decide_eq_true hd⟩
  · cases hd

theorem exec_surveyCompletion {s : State} {l : LinkNo} {p : PairNo} {x : Sample}
    (h : replyCase surveyDue .active s l p x = true) :
    exec (.surveyCompletion l p x) s = exec (.sampleReply l p x) s := by
  show stepMarked (fun s => caseStep _ s l p x) s = stepMarked (fun s => sampleAnswered s l p x) s
  simp only [stepMarked, caseStep, h, if_true]

/-- The scan that reaches N of a survey, as one state: supervision's, the order ended, the survey gone (R20). -/
theorem activeScan_completes {s : State} {n : LineNo} {x : Sample} {c : SurveyCtx}
    (hc : (s.line n).survey = some c) (hn : c.n ≤ c.accepted + 1) :
    activeScan s n x = completeSurvey (testLimits (scanFront s n x) n) n (surveySample x c) := by
  have h : ((testLimits (scanFront s n x) n).line n).survey = (s.line n).survey :=
    ((congrArg LineRec.survey (testLimits_scanFront_line s n x) :)).trans
      (congrArg LineRec.survey (scanned_unclassified (s.conv n) s.time x (s.line n)) :)
  unfold activeScan surveyScan
  rw [h, hc]
  exact if_pos hn

/-- Settles O34: the last scan of a survey ends the order with the statistics that the sample completes. -/
theorem surveysCompleteAtTheirLastScan : Obligations.SurveysCompleteAtTheirLastScan := by
  intro l p x s c n with_ vt vr i beyond hcase hc h1 hexch
  obtain ⟨hex, hv, hx, hh, ht, hn⟩ := surveyCase_spec hcase hc
  have hstep := (exec_surveyCompletion hcase).trans (exec_sampleReply x hex)
  have hothers := fun m (hm : m ≠ n) => scanStep_others s l p x hm
  have hengine := scanStep_engine s l p x
  have hscan : takeSample (replyTaken s l) (lineAt l p) x
      = completeSurvey (testLimits (scanFront (replyTaken s l) n x) n) n (surveySample x c) := by
    rw [takeSample_accepted hv hx hh ht]
    exact activeScan_completes (s := replyTaken s l) hc hn
  rw [hscan] at hstep hothers hengine
  have hve : (testLimits (scanFront (replyTaken s l) n x) n).engine = s.engine := by
    rw [testLimits_engine, scanFront_engine, replyTaken_engine]
  generalize testLimits (scanFront (replyTaken s l) n x) n = v at hstep hothers hengine hve
  have hvx : v.exch = .running ∨ v.exch = .stopping := by
    rw [show v.exch = s.exch from congrArg Engine.exch hve]
    exact hexch
  have hdet : detail16 v (c.accepted + 1) = detail16 s (c.accepted + 1) := by
    rw [detail16, show v.latchBig = s.latchBig from congrArg Engine.latchBig hve]
    rfl
  have hwith : ∀ o y, with_ o y = ((addStat y o).min, (addStat y o).max, (addStat y o).sum) := fun o y => by
    cases o <;> rfl
  refine ⟨_, roundDiv vt.2.2 c.n, roundDiv vr.2.2 c.n, roundDiv i.2.2 c.n, (surveySample x c).overrange, hstep,
    ?_, ?_, nearest_roundDiv _ h1, nearest_roundDiv _ h1, nearest_roundDiv _ h1, fun hb => ?_, fun hb => ?_, ?_,
    hothers, hengine⟩
  · rw [markChanges_line, advanceLink_line, completeSurvey, State.line_modLine_same]
  · rw [markChanges_slot, advanceLink_slot, completeSurvey, State.slot_modLine]
    exact congrArg SlotRec.flight (endOrder_slot hvx c.slot _)
  · exact if_pos ((overrange_iff x).2 hb)
  · exact if_neg fun ho => hb ((overrange_iff x).1 ho)
  · rw [markChanges_slot, advanceLink_slot, completeSurvey, State.slot_modLine]
    refine (congrArg SlotRec.due (endOrder_slot hvx c.slot _)).trans ?_
    rw [markChanges_line, advanceLink_line, State.line_modLine_same, endOrder_line, ← hdet]
    simp only [vt, vr, i, hwith]
    rfl

end Sys2Proof.Machine
end

section
/-! O39: a timeout short of the loss of its link. -/

namespace Sys2Proof.Machine

/-! ### Marks of a step that changes no image -/

/-- The image of no line changes where lines and insulation tests stay as they are. -/
theorem imageChanged_of_same {a b : State} (hl : b.lines = a.lines) (ht : ∀ l, (b.link l).test = (a.link l).test)
    (n : LineNo) : imageChanged a b n = false := by
  have h1 : b.line n = a.line n := by simp [State.line, hl]
  have h2 : imageOf a n = imageOf b n := by
    unfold imageOf testPhase
    rw [h1, ht]
  simp [imageChanged, h1, h2]

/-- A step that changes no image marks no line. -/
theorem markChanges_lines_same {a b : State} (h : ∀ n, imageChanged a b n = false) :
    (markChanges a b).lines = b.lines := by
  ext i hi : 1
  have := markChanges_line a b ⟨i, hi⟩
  rw [h, Bool.or_false] at this
  exact this

/-- The marks are no part of the bare state. -/
theorem markChanges_bare (a b : State) : (markChanges a b).bare = b.bare := by
  have h := congrArg State.bare (markChanges_rest a b)
  have hl : (markChanges a b).lines.map LineRec.bare = b.lines.map LineRec.bare := by
    ext i hi : 1
    simpa [State.line] using markChanges_line_bare a b ⟨i, hi⟩
  refine Eq.trans ?_ h
  unfold State.bare
  rw [hl]

/-! ### MISSING scans -/

/-- A MISSING scan of a CALIBRATING line changes nothing (R112). -/
theorem calScan_missing (s : State) (n : LineNo) : calScan s n .missing = s := by
  unfold calScan
  split
  · next h => cases h
  · rfl

theorem State.modLink_self {s : State} {l : LinkNo} {f : LinkRec → LinkRec} (h : f (s.link l) = s.link l) :
    s.modLink l f = s := by
  rw [State.modLink, h]
  simp [State.link]

/-- What a MISSING scan of a line does to the test of its link (R96). -/
def testMiss (n : LineNo) (c : TestCtx) : TestCtx :=
  if c.line = n ∧ (c.step = .settle ∨ c.step = .dwell) then
    { c with missing := satInc Config.max16 c.missing }
  else c

theorem testScan_missing (s : State) (n : LineNo) :
    testScan s n .missing = modTest s (linkOf n) (testMiss n) := by
  unfold testScan modTest
  split
  · next c hc =>
    have hmap : ∀ g : TestCtx → TestCtx, { s.link (linkOf n) with test := (s.link (linkOf n)).test.map g }
        = { s.link (linkOf n) with test := some (g c) } := fun g => by rw [hc]; rfl
    simp only [State.modLink, hmap]
    by_cases h : c.line ≠ n ∨ c.step = .relayWait ∨ c.step = .restoring
    · have hm : testMiss n c = c := by
        unfold testMiss
        rw [if_neg]
        rintro ⟨hl, hs⟩
        rcases h with h | h | h
        · exact h hl
        · simp [h] at hs
        · simp [h] at hs
      rw [if_pos h, hm, ← hc]
      exact (State.modLink_self (s := s) (l := linkOf n) (f := id) rfl).symm
    · have hm : testMiss n c = { c with missing := satInc Config.max16 c.missing } := by
        unfold testMiss
        rw [if_pos]
        simp only [not_or, not_not] at h
        refine ⟨h.1, ?_⟩
        cases hs : c.step <;> simp_all
      rw [if_neg h, hm]
  · next hc =>
    refine (State.modLink_self ?_).symm
    rw [hc, Option.map_none, ← hc]

/-- A MISSING scan goes to the survey of an ACTIVE line and to the test of a TESTING one (R6, R19, R96). -/
theorem missScan_cases (s : State) (n : LineNo) :
    (s.line n).service = .active ∧ missScan s n = surveyScan s n .missing
    ∨ (s.line n).service = .testing ∧ missScan s n = modTest s (linkOf n) (testMiss n)
    ∨ (s.line n).service ≠ .active ∧ (s.line n).service ≠ .testing ∧ missScan s n = s := by
  unfold missScan routeScan
  cases h : (s.line n).service with
  | parked => exact .inr (.inr ⟨nofun, nofun, rfl⟩)
  | active => exact .inl ⟨rfl, rfl⟩
  | calibrating => exact .inr (.inr ⟨nofun, nofun, calScan_missing s n⟩)
  | testing => exact .inr (.inl ⟨rfl, testScan_missing s n⟩)

/-- A MISSING scan changes of a link at most its insulation test, and only on the line's link. -/
theorem missScan_link (s : State) (n : LineNo) (m : LinkNo) :
    { (missScan s n).link m with test := (s.link m).test } = s.link m
      ∧ (m ≠ linkOf n → (missScan s n).link m = s.link m) := by
  rcases missScan_cases s n with ⟨-, h⟩ | ⟨-, h⟩ | ⟨-, -, h⟩
  · have hl : (missScan s n).link m = s.link m := by
      rw [h, State.link, surveyScan_links]
      rfl
    exact ⟨by rw [hl], fun _ => hl⟩
  · rw [h, modTest]
    refine ⟨?_, fun hm => State.link_modLink_other s hm _⟩
    rw [State.link_modLink_ite]
    split
    · next e => rw [e]
    · rfl
  · rw [h]
    exact ⟨rfl, fun _ => rfl⟩

/-- A survey's scan changes no other line. -/
theorem surveyScan_line_other (s : State) {n m : LineNo} (out : ScanOutcome) (h : m ≠ n) :
    (surveyScan s n out).line m = s.line m := by
  unfold surveyScan
  split
  · dsimp only
    split
    · rw [completeSurvey, State.line_modLine_other _ h, endOrder_line]
    · rw [State.line_modLine_other _ h]
  · rfl

/-- A MISSING scan changes of a line at most its survey, and only of the line scanned. -/
theorem missScan_line (s : State) (n m : LineNo) :
    { (missScan s n).line m with survey := (s.line m).survey } = s.line m
      ∧ (m ≠ n → (missScan s n).line m = s.line m) := by
  rcases missScan_cases s n with ⟨-, h⟩ | ⟨-, h⟩ | ⟨-, -, h⟩
  · rw [h]
    refine ⟨?_, surveyScan_line_other s .missing⟩
    by_cases e : m = n
    · rw [e]
      exact surveyScan_line s n .missing
    · rw [surveyScan_line_other s .missing e]
  · rw [h]
    exact ⟨rfl, fun _ => rfl⟩
  · rw [h]
    exact ⟨rfl, fun _ => rfl⟩

/-! ### What a timeout does before its link goes on -/

/-- Whether a line may have a scan rests on its service and supervision and on its link's pairs. -/
theorem eligible_congr {s t : State} {n : LineNo} (hv : (t.line n).service = (s.line n).service)
    (hs : (t.line n).sup = (s.line n).sup)
    (hc : (t.link (linkOf n)).pairCount = (s.link (linkOf n)).pairCount)
    (hr : (t.link (linkOf n)).restored = (s.link (linkOf n)).restored) : eligible t n = eligible s n := by
  unfold eligible serviced restoredMark absent
  dsimp only
  rw [hv, hs, hc, hr]

/-- A link's record without its test and what a timed out control frame leaves there. -/
def LinkRec.noRetry (r : LinkRec) : LinkRec := { r with test := none, retry := none, controlOver := false }

/-- A control frame becomes the retry frame and ends the control exchanges of the period (R134, R141). -/
theorem frameTimedOut_control (s : State) (l : LinkNo) {f : Frame} (h : keyOf f ≠ none) :
    frameTimedOut s l f = s.modLink l fun r => { r with retry := some f, controlOver := true } := by
  cases f with
  | probe => exact absurd rfl h
  | sample _ => exact absurd rfl h
  | _ => rfl

theorem frameTimedOut_link (s : State) (l : LinkNo) (f : Frame) (m : LinkNo) :
    ((frameTimedOut s l f).link m).noRetry = (s.link m).noRetry
      ∧ (m ≠ l → (frameTimedOut s l f).link m = s.link m) := by
  by_cases hk : keyOf f = none
  · cases f with
    | sample p =>
      obtain ⟨h, ho⟩ := missScan_link s (lineAt l p) m
      rw [linkOf_lineAt] at ho
      exact ⟨(congrArg LinkRec.noRetry h :), ho⟩
    | probe => exact ⟨rfl, fun _ => rfl⟩
    | _ => cases hk
  · rw [frameTimedOut_control s l hk]
    refine ⟨?_, fun h => State.link_modLink_other s h _⟩
    rw [State.link_modLink_ite]
    split
    · next e => rw [e]; rfl
    · rfl

/-- A timeout changes of a line at most its survey. -/
theorem frameTimedOut_line (s : State) (l : LinkNo) (f : Frame) (n : LineNo) :
    { (frameTimedOut s l f).line n with survey := (s.line n).survey } = s.line n := by
  cases f with
  | sample p => exact (missScan_line s (lineAt l p) n).1
  | _ => rfl

/-- The state after a timeout short of the loss of its link, before the link's next exchange (R138). -/
def timedOut (s : State) (l : LinkNo) (f : Frame) : State :=
  (frameTimedOut (endExchange s l) l f).modLink l fun r => { r with failRun := r.failRun + 1 }

theorem timedOut_noRetry (s : State) (l : LinkNo) (f : Frame) :
    ((timedOut s l f).link l).noRetry
      = { s.link l with exchange := none, idleTime := s.time,
                        failRun := (s.link l).failRun + 1 }.noRetry := by
  have h := (frameTimedOut_link (endExchange s l) l f l).1
  simp only [endExchange, State.link_modLink_same] at h
  rw [timedOut, State.link_modLink_same]
  exact (congrArg (fun r : LinkRec => { r with failRun := r.failRun + 1 }) h :)

theorem timedOut_link_other (s : State) {l m : LinkNo} (f : Frame) (h : m ≠ l) :
    (timedOut s l f).link m = s.link m := by
  rw [timedOut, State.link_modLink_other _ h, (frameTimedOut_link _ l f m).2 h, endExchange,
    State.link_modLink_other _ h]

/-- A timeout leaves the lines that may have a scan. -/
theorem timedOut_eligible (s : State) (l : LinkNo) (f : Frame) (n : LineNo) :
    eligible (timedOut s l f) n = eligible s n := by
  have hl := frameTimedOut_line (endExchange s l) l f n
  have hk : ((timedOut s l f).link (linkOf n)).pairCount = (s.link (linkOf n)).pairCount
      ∧ ((timedOut s l f).link (linkOf n)).restored = (s.link (linkOf n)).restored := by
    by_cases h : linkOf n = l
    · have hr := timedOut_noRetry s l f
      rw [h]
      exact ⟨(congrArg LinkRec.pairCount hr :), (congrArg LinkRec.restored hr :)⟩
    · rw [timedOut_link_other s f h]
      exact ⟨rfl, rfl⟩
  exact eligible_congr (congrArg LineRec.service hl :) (congrArg LineRec.sup hl :) hk.1 hk.2

/-- A timeout short of the third on an UP link counts, and the link goes on (R138). -/
theorem timeOut_up {s : State} {l : LinkNo} {f : Frame} (hx : (s.link l).exchange = some f)
    (hup : (s.link l).state = .up) (hr : (s.link l).failRun + 1 < 3) :
    timeOut s l = advanceLink (timedOut s l f) l := by
  have hf : ((timedOut s l f).link l).failRun = (s.link l).failRun + 1 :=
    (congrArg LinkRec.failRun (timedOut_noRetry s l f) :)
  have hu : linkUp (endExchange s l) l = true := by simp [linkUp, endExchange, hup]
  rw [timeOut, hx]
  dsimp only
  rw [if_pos hu, raiseFailRun]
  exact if_neg (by rw [← timedOut, hf]; exact Nat.not_le.2 hr)

/-- With the control exchanges of the period over, the next SAMPLE follows the timeout (R141). -/
theorem timedOut_nextSample {s : State} {l : LinkNo} {f : Frame} (hup : (s.link l).state = .up)
    (ho : ((timedOut s l f).link l).controlOver = true) :
    (advanceLink (timedOut s l f) l).rcvs = (timedOut s l f).rcvs
      ∧ ((advanceLink (timedOut s l f) l).link l).retry = ((timedOut s l f).link l).retry
      ∧ ((advanceLink (timedOut s l f) l).link l).controlOver = true
      ∧ ((advanceLink (timedOut s l f) l).link l).queue = (s.link l).queue
      ∧ ((advanceLink (timedOut s l f) l).link l).exchange
          = ((s.link l).toSample.find? fun p => eligible s (lineAt l p)).map Frame.sample := by
  have hr := timedOut_noRetry s l f
  have hu : ((timedOut s l f).link l).state = .up := ((congrArg LinkRec.state hr :)).trans hup
  have hx : ((timedOut s l f).link l).exchange = none := (congrArg LinkRec.exchange hr :)
  have hq : ((timedOut s l f).link l).queue = (s.link l).queue := (congrArg LinkRec.queue hr :)
  have ht : ((timedOut s l f).link l).toSample = (s.link l).toSample := (congrArg LinkRec.toSample hr :)
  rw [advanceLink_controlOver hu hx ho, endControl_eq]
  simp only [State.link_modLink_same, LinkRec.nextSample, timedOut_eligible, hx, hq, ht, Option.or_none,
    and_true]
  rfl

/-! ### The step of a timeout -/

/-- A timeout leaves the lines as they are where its scan, if any, does. -/
theorem timeoutStep_lines {s t : State} {l : LinkNo} (hl : t.lines = s.lines)
    (ht : ∀ m, (t.link m).test = (s.link m).test) :
    (markChanges s (advanceLink t l)).lines = s.lines := by
  have hl' : (advanceLink t l).lines = s.lines := (advanceLink_lines t l).trans hl
  refine (markChanges_lines_same fun n => imageChanged_of_same hl' (fun m => ?_) n).trans hl'
  exact ((congrArg LinkRec.test (advanceLink_standing t l m) :)).trans (ht m)

/-- A control frame's timeout touches no line, receiver or test. -/
theorem timedOut_control (s : State) (l : LinkNo) {f : Frame} (h : keyOf f ≠ none) :
    (timedOut s l f).lines = s.lines ∧ (timedOut s l f).rcvs = s.rcvs
      ∧ (∀ m, ((timedOut s l f).link m).test = (s.link m).test)
      ∧ ((timedOut s l f).link l).retry = some f ∧ ((timedOut s l f).link l).controlOver = true := by
  rw [timedOut, frameTimedOut_control _ l h, endExchange, State.modLink_modLink, State.modLink_modLink]
  refine ⟨rfl, rfl, fun m => ?_, ?_, ?_⟩
  · rw [State.link_modLink_ite]
    split
    · next e => rw [e]
    · rfl
  all_goals rw [State.link_modLink_same]

/-- A PROBE's timeout touches no line or test. -/
theorem timedOut_probe (s : State) (l : LinkNo) :
    (timedOut s l .probe).lines = s.lines
      ∧ (∀ m, ((timedOut s l .probe).link m).test = (s.link m).test) := by
  rw [timedOut, frameTimedOut, endExchange, State.modLink_modLink]
  refine ⟨rfl, fun m => ?_⟩
  rw [State.link_modLink_ite]
  split
  · next e => rw [e]
  · rfl

/-- Without a control frame the timeout leaves the retry frame and the end of the control exchanges. -/
theorem timedOut_noControl (s : State) (l : LinkNo) {f : Frame} (h : keyOf f = none) :
    ((timedOut s l f).link l).retry = (s.link l).retry
      ∧ ((timedOut s l f).link l).controlOver = (s.link l).controlOver := by
  rw [timedOut, State.link_modLink_same]
  have he : (endExchange s l).link l = { s.link l with exchange := none, idleTime := s.time } :=
    State.link_modLink_same s l _
  cases f with
  | sample p =>
    have hm := (missScan_link (endExchange s l) (lineAt l p) l).1
    rw [he] at hm
    exact ⟨(congrArg LinkRec.retry hm :), (congrArg LinkRec.controlOver hm :)⟩
  | probe => exact ⟨(congrArg LinkRec.retry he :), (congrArg LinkRec.controlOver he :)⟩
  | _ => cases h

/-- A survey counts a MISSING scan, saturating (R19). -/
def surveyMiss (c : SurveyCtx) : SurveyCtx := { c with missing := min (c.missing + 1) 65535 }

/-- A MISSING scan counts in the survey of an ACTIVE line (R19). -/
theorem missScan_active {s : State} {n : LineNo} (hv : (s.line n).service = .active)
    (hc : ∀ c, (s.line n).survey = some c → c.accepted < c.n) :
    (missScan s n).line n = { s.line n with survey := (s.line n).survey.map surveyMiss } := by
  have hs : ∀ c, (s.line n).survey = some c → (surveyTake .missing c).accepted < (surveyTake .missing c).n := hc
  rw [missScan, routeScan, hv]
  dsimp only
  rw [surveyScan_counts hs, State.line_modLine_same]
  rfl

/-- A MISSING scan of a line that is not ACTIVE changes no line. -/
theorem missScan_inactive {s : State} {n : LineNo} (hv : (s.line n).service ≠ .active) (m : LineNo) :
    (missScan s n).line m = s.line m := by
  rcases missScan_cases s n with ⟨h, -⟩ | ⟨-, h⟩ | ⟨-, -, h⟩
  · exact absurd h hv
  · rw [h]; rfl
  · rw [h]

/-- A MISSING scan counts in the insulation test of its line (R96). -/
theorem missScan_testing {s : State} {n : LineNo} (hv : (s.line n).service = .testing) :
    ((missScan s n).link (linkOf n)).test = (s.link (linkOf n)).test.map (testMiss n) := by
  rw [missScan, routeScan, hv]
  dsimp only
  rw [testScan_missing, modTest, State.link_modLink_same]

/-- Settles O39: a timeout short of the third is the end of the exchange, what becomes of its frame, a count in
the failure run, and the link's next exchange. -/
theorem timeoutsKeepTheFrameForRetry : Obligations.TimeoutsKeepTheFrameForRetry := by
  intro l s f hx
  refine ⟨markChanges s (timeOut s l), rfl, fun hup hr => ?_, fun hd => ?_⟩
  · have he : (markChanges s (timeOut s l)).engine = s.engine := by rw [markChanges_engine, timeOut_engine]
    have hb : ∀ m, ((markChanges s (timeOut s l)).line m).bare = ((timedOut s l f).line m).bare := fun m => by
      rw [markChanges_line_bare, timeOut_up hx hup hr, advanceLink_line]
    have hlink : ∀ m, (markChanges s (timeOut s l)).link m = (advanceLink (timedOut s l f) l).link m := fun m => by
      rw [markChanges_link, timeOut_up hx hup hr]
    have hst : ((advanceLink (timedOut s l f) l).link l).standing
        = ((timedOut s l f).link l).standing := advanceLink_standing _ l l
    have hno := timedOut_noRetry s l f
    simp only [hlink]
    refine ⟨?_, ?_, ?_, fun m hm => ?_, he, fun hk => ?_, fun hp => ?_, fun hk ho => ?_, fun p hp => ?_⟩
    · exact ((congrArg LinkRec.failRun hst :)).trans (congrArg LinkRec.failRun hno :)
    · exact (((congrArg LinkRec.state hst :)).trans (congrArg LinkRec.state hno :)).trans hup
    · exact ((congrArg LinkRec.idleTime hst :)).trans (congrArg LinkRec.idleTime hno :)
    · rw [advanceLink_link_other _ hm, timedOut_link_other s f hm]
    · obtain ⟨hl, hrcv, ht, hretry, hover⟩ := timedOut_control s l hk
      obtain ⟨hrcvs, hretry', hover', hqueue, hexch⟩ := timedOut_nextSample hup hover
      refine ⟨hretry'.trans hretry, hover', hqueue, hexch, ?_, ?_⟩
      · rw [timeOut_up hx hup hr]
        exact timeoutStep_lines hl ht
      · rw [markChanges_rcvs, timeOut_up hx hup hr, hrcvs, hrcv]
    · rw [timeOut_up hx hup hr, hp]
      obtain ⟨hl, ht⟩ := timedOut_probe s l
      exact timeoutStep_lines hl ht
    · obtain ⟨hretry, hover⟩ := timedOut_noControl s l hk
      obtain ⟨-, hretry', -, hqueue, hexch⟩ := timedOut_nextSample (f := f) hup (hover.trans ho)
      exact ⟨hretry'.trans hretry, hqueue, hexch⟩
    · have hsame : ∀ m, (timedOut s l f).line m = (missScan (endExchange s l) (lineAt l p)).line m := fun m => by
        rw [hp]; rfl
      simp only [hb, hsame]
      refine ⟨fun m hm => ?_, fun hv => ?_, fun hv hc => ?_, fun c hv hc hn => ?_⟩
      · exact congrArg LineRec.bare ((missScan_line (endExchange s l) (lineAt l p) m).2 hm)
      · exact congrArg LineRec.bare (missScan_inactive (s := endExchange s l) hv (lineAt l p))
      · exact congrArg LineRec.bare (missScan_active (s := endExchange s l) hv hc)
      · have ht : ((advanceLink (timedOut s l f) l).link l).test = ((timedOut s l f).link l).test :=
          (congrArg LinkRec.test hst :)
        have hm := missScan_testing (s := endExchange s l) (n := lineAt l p) hv
        have hl : ((timedOut s l f).link l).test = ((missScan (endExchange s l) (lineAt l p)).link l).test := by
          rw [timedOut, State.link_modLink_same, hp]
          rfl
        have he' : ((endExchange s l).link l).test = some c := by
          rw [endExchange, State.link_modLink_same]
          exact hc
        rw [linkOf_lineAt] at hm
        rw [ht, hl, hm, he', Option.map_some, testMiss]
        simp only [hn, true_and]
        rfl
  · have hu : linkUp (endExchange s l) l = false := by simp [linkUp, endExchange, hd]
    rw [markChanges_bare, timeOut, hx]
    dsimp only
    rw [hu]
    rfl

end Sys2Proof.Machine
end

section
/-! O15: the checks of a SURVEY and of an INSULATION TEST, and the contexts that they start. -/

namespace Sys2Proof.Machine

/-! ### Refusals -/

/-- While the exchange is RUNNING a refusal whose detail holds nothing is the completion that falls due (R177). -/
theorem refuse_running {s : State} (hrun : s.exch = .running) (k : SlotNo) (r : Reason) {d : List Nat}
    (hd : detail d = detail []) : refuse s k r d = answered s k .refused r [] := by
  rw [refuse, finish, hd, endOrder, if_pos (.inl hrun)]
  rfl

theorem detail_detail16_zero (s : State) : detail (detail16 s 0) = detail [] := by
  unfold detail16
  cases s.latchBig <;> rfl

theorem refuse_empty {s : State} (hrun : s.exch = .running) (k : SlotNo) (r : Reason) :
    refuse s k r [] = answered s k .refused r [] := refuse_running hrun k r rfl

theorem refuse_detail16 {s : State} (hrun : s.exch = .running) (k : SlotNo) (r : Reason) :
    refuse s k r (detail16 s 0) = answered s k .refused r [] :=
  refuse_running hrun k r (detail_detail16_zero s)

/-! ### The checks -/

/-- A result buffer is valid in the free part of the window, at a multiple of 64 (R171). -/
theorem resultValid_iff (s : State) (off : Nat) :
    resultValid s off = true
      ↔ off % 64 = 0 ∧ 0x6900 ≤ off ∧ off + 64 ≤ 32768 * 2 ^ (min s.latchWin.toNat 5) := by
  unfold resultValid windowSize Config.freeBase
  rw [Bool.and_eq_true, Bool.and_eq_true, decide_eq_true_iff, decide_eq_true_iff, decide_eq_true_iff, and_assoc]

theorem quietEnough_iff (s : State) (n : LineNo) :
    quietEnough s n = true
      ↔ (s.link (linkOf n)).state = .up ∧ ((s.line n).service = .parked
          ∨ ((s.line n).service = .active
              ∧ ((s.line n).sup = .onHook ∨ (s.line n).sup = .fault ∨ (s.line n).sup = .lockout))) := by
  simp [quietEnough, linkUp, or_assoc]

/-- The scans of a period that last a time are the least that do (R95). -/
theorem ceilDiv_bounds {a b : Nat} (ha : a ≠ 0) (hb : 0 < b) :
    a ≤ ceilDiv a b * b ∧ (ceilDiv a b - 1) * b < a := by
  have hdiv := Nat.div_add_mod (a + b - 1) b
  have hmod := Nat.mod_lt (a + b - 1) hb
  rw [Nat.mul_comm] at hdiv
  rw [ceilDiv, Nat.sub_mul, Nat.one_mul]
  omega

theorem Period.ms_pos (p : Period) : 0 < p.ms := by cases p <;> decide

/-! ### The orders, check by check -/

section Survey
variable {s : State} {k : SlotNo} {o : OrderRead}

theorem orderSurvey_absent (hrun : s.exch = .running) (hp : presentLine s (lineOf o) = none) :
    orderSurvey s k o = answered s k .refused .badLine [] := by
  rw [orderSurvey, hp]
  exact refuse_detail16 hrun k _

variable {n : LineNo}

theorem orderSurvey_badBuffer (hrun : s.exch = .running) (hp : presentLine s (lineOf o) = some n)
    (hb : resultValid s (resultOf o) ≠ true) :
    orderSurvey s k o = answered s k .refused .badAddress [] := by
  rw [orderSurvey, hp]
  dsimp only
  rw [if_pos hb]
  exact refuse_detail16 hrun k _

theorem orderSurvey_busy (hrun : s.exch = .running) (hp : presentLine s (lineOf o) = some n)
    (hb : resultValid s (resultOf o) = true)
    (h : (s.line n).service ≠ .active ∨ (s.line n).sup = .suspended ∨ (s.line n).sup = .unsensed
      ∨ (s.line n).survey.isSome = true) :
    orderSurvey s k o = answered s k .refused .lineBusy [] := by
  rw [orderSurvey, hp]
  dsimp only
  rw [if_neg (not_not.2 hb)]
  by_cases ha : (s.line n).service = .active ∧ (s.line n).sup ≠ .suspended ∧ (s.line n).sup ≠ .unsensed
  · have hs : (s.line n).survey.isSome = true := by
      obtain ⟨hv, hu, hx⟩ := ha
      rcases h with h | h | h | h
      · exact absurd hv h
      · exact absurd h hu
      · exact absurd h hx
      · exact h
    rw [if_neg (not_not.2 ha), if_pos hs]
    exact refuse_detail16 hrun k _
  · rw [if_pos ha]
    exact refuse_detail16 hrun k _

theorem orderSurvey_taken (hp : presentLine s (lineOf o) = some n) (hb : resultValid s (resultOf o) = true)
    (hv : (s.line n).service = .active) (hu : (s.line n).sup ≠ .suspended) (hx : (s.line n).sup ≠ .unsensed)
    (hs : (s.line n).survey = none) :
    orderSurvey s k o
      = (s.modSlot k fun x => { x with flight := some (.survey n) }).modLine n fun x =>
          { x with rate := .full, quiet := 0,
                   survey := some { slot := k, n := if param8 o 0 = 0 then 256 else param8 o 0,
                                    result := resultOf o, stats := none, accepted := 0, held := 0,
                                    missing := 0, overrange := 0 } } := by
  rw [orderSurvey, hp]
  dsimp only
  rw [if_neg (not_not.2 hb), if_neg (not_not.2 ⟨hv, hu, hx⟩), if_neg (by simp [hs]), setFull,
    State.modLine_modLine]
  rfl

end Survey

section InsulationTest
variable {s : State} {k : SlotNo} {o : OrderRead}

/-- The parameters of a test are in range (R94). -/
def testParamsFit (o : OrderRead) : Prop := param8 o 0 ≠ 0 ∧ param8 o 1 ≤ 64 ∧ param16 o 4 ≤ 2047

/-- A line is free for a test: it is quiet, and neither traced nor surveyed (R94). -/
def testLineFree (s : State) (n : LineNo) : Prop :=
  quietEnough s n = true ∧ tracing s n = false ∧ (s.line n).survey = none

theorem testParams_bad_iff (o : OrderRead) :
    (param8 o 0 = 0 ∨ 64 < param8 o 1 ∨ 2047 < param16 o 4) ↔ ¬testParamsFit o := by
  unfold testParamsFit
  omega

theorem orderInsulationTest_absent (hrun : s.exch = .running) (hp : presentLine s (lineOf o) = none) :
    orderInsulationTest s k o = answered s k .refused .badLine [] := by
  rw [orderInsulationTest, hp]
  exact refuse_empty hrun k _

variable {n : LineNo}

theorem orderInsulationTest_badParam (hrun : s.exch = .running) (hp : presentLine s (lineOf o) = some n)
    (h : ¬testParamsFit o) : orderInsulationTest s k o = answered s k .refused .badParam [] := by
  rw [orderInsulationTest, hp]
  dsimp only
  rw [if_pos ((testParams_bad_iff o).2 h)]
  exact refuse_empty hrun k _

theorem orderInsulationTest_badBuffer (hrun : s.exch = .running) (hp : presentLine s (lineOf o) = some n)
    (h : testParamsFit o) (hb : resultValid s (resultOf o) ≠ true) :
    orderInsulationTest s k o = answered s k .refused .badAddress [] := by
  rw [orderInsulationTest, hp]
  dsimp only
  rw [if_neg (fun hf => (testParams_bad_iff o).1 hf h), if_pos hb]
  exact refuse_empty hrun k _

theorem orderInsulationTest_busy (hrun : s.exch = .running) (hp : presentLine s (lineOf o) = some n)
    (h : testParamsFit o) (hb : resultValid s (resultOf o) = true) (hf : ¬testLineFree s n) :
    orderInsulationTest s k o = answered s k .refused .lineBusy [] := by
  rw [orderInsulationTest, hp]
  dsimp only
  rw [if_neg (fun hf => (testParams_bad_iff o).1 hf h), if_neg (not_not.2 hb)]
  by_cases hq : quietEnough s n = true
  · have hu : tracing s n = true ∨ (s.line n).survey.isSome = true := by
      by_contra hc
      simp only [not_or, Bool.not_eq_true, Option.isSome_eq_false_iff, Option.isNone_iff_eq_none] at hc
      exact hf ⟨hq, hc⟩
    rw [if_neg (not_not.2 hq), if_pos hu]
    exact refuse_empty hrun k _
  · rw [if_pos hq]
    exact refuse_empty hrun k _

/-- Past its four checks a test waits for the link's own, or is taken. -/
theorem orderInsulationTest_free (hp : presentLine s (lineOf o) = some n)
    (h : testParamsFit o) (hb : resultValid s (resultOf o) = true) (hf : testLineFree s n) :
    orderInsulationTest s k o
      = if (s.link (linkOf n)).test.isSome then refuse s k .resourceBusy [] else takeTest s k o n := by
  obtain ⟨hq, htr, hs⟩ := hf
  rw [orderInsulationTest, hp]
  dsimp only
  rw [if_neg (fun hf => (testParams_bad_iff o).1 hf h), if_neg (not_not.2 hb), if_neg (not_not.2 hq),
    if_neg (by simp [htr, hs])]

end InsulationTest

/-! ### A test that is taken -/

/-- The context that a test starts with (R95). -/
def firstTest (s : State) (k : SlotNo) (o : OrderRead) (n : LineNo) : TestCtx :=
  { line := n, slot := k, toActive := decide ((s.line n).service = .active),
    settleScans := ceilDiv (param8 o 0) s.period.ms,
    m := if param8 o 1 = 0 then 64 else param8 o 1,
    passLimit := param16 o 2, foreignLimit := param16 o 4, result := resultOf o,
    phase := 1, step := .relayWait, settleCount := 0, dwellCount := 0, sumA := 0, sumB := 0,
    phasesDone := 0, p1 := none, p2 := none, p3 := none, p4 := none, held := 0, missing := 0, mismatch := 0 }

/-- A line taken out of supervision is SUSPENDED at FULL rate, its counters cleared and its fault restored (R95,
R111). -/
theorem suspendLine_eq (s : State) (n : LineNo) (sv : Service) :
    suspendLine s n sv = s.modLine n fun r =>
      { clearCounters r with sup := .suspended, service := sv, rate := .full, quiet := 0,
                             fault := restored r.fault } := by
  rw [suspendLine, setFull, restoreFault, State.modLine_modLine, State.modLine_modLine]
  rfl

/-- A frame placed on an UP link joins its queue (R140). -/
theorem placeFrame_up {s : State} {l : LinkNo} (h : (s.link l).state = .up) (f : Frame) :
    placeFrame s l f = s.modLink l fun r => { r with queue := queuePlace f r.queue } :=
  if_pos (by simp [linkUp, h])

/-- A test that is taken starts its first phase on its line's link (R95). -/
theorem takeTest_eq {s : State} (k : SlotNo) (o : OrderRead) {n : LineNo}
    (hup : (s.link (linkOf n)).state = .up) :
    takeTest s k o n
      = (suspendLine (takeFlight s k (.insulation (linkOf n))) n .testing).modLink (linkOf n) fun r =>
          { r with test := some (firstTest s k o n),
                   queue := queuePlace (.relay (pairOf n) .feedOff .test) r.queue } := by
  have hup' : (suspendLine (takeFlight s k (.insulation (linkOf n))) n .testing).link (linkOf n)
      = s.link (linkOf n) := rfl
  rw [takeTest, startPhase, placeRelay, placeFrame_up, State.modLink_modLink]
  · rfl
  · rw [State.link_modLink_same]
    exact hup

/-- Settles O15: each order goes through its checks in turn, and past the last one its context stands. -/
theorem surveysAndTestsAreTaken : Obligations.SurveysAndTestsAreTaken := by
  intro s k o hrun bufferOk
  have hbuf : resultValid s (resultOf o) = true ↔ bufferOk := resultValid_iff s _
  have h4 : kindOf o = 4 → dispatch none s k o = .ok (orderSurvey s k o) := fun h => by
    unfold dispatch
    rw [h]
    rfl
  have h7 : kindOf o = 7 → dispatch none s k o = .ok (orderInsulationTest s k o) := fun h => by
    unfold dispatch
    rw [h]
    rfl
  refine ⟨fun hk hp => ?_, ?_⟩
  · rcases hk with hk | hk
    · rw [h4 hk, orderSurvey_absent hrun hp]
    · rw [h7 hk, orderInsulationTest_absent hrun hp]
  intro n hp r l
  refine ⟨fun hk => ?_, fun hk => ?_⟩
  · rw [h4 hk]
    refine ⟨fun hb => ?_, fun hb h => ?_, fun hb hv hu hx hs => ?_⟩
    · rw [orderSurvey_badBuffer hrun hp (mt hbuf.1 hb)]
    · rw [orderSurvey_busy hrun hp (hbuf.2 hb) h]
    · rw [orderSurvey_taken hp (hbuf.2 hb) hv hu hx hs]
  · rw [h7 hk]
    intro paramOk quietLine free
    have hfree : free ↔ testLineFree s n := and_congr_left' (quietEnough_iff s n).symm
    refine ⟨fun hpar => ?_, fun hpar hb => ?_, fun hpar hb hf => ?_, fun hpar hb hf ht => ?_,
      fun hpar hb hf ht => ?_⟩
    · rw [orderInsulationTest_badParam hrun hp hpar]
    · rw [orderInsulationTest_badBuffer hrun hp hpar (mt hbuf.1 hb)]
    · rw [orderInsulationTest_busy hrun hp hpar (hbuf.2 hb) (mt hfree.2 hf)]
    · rw [orderInsulationTest_free hp hpar (hbuf.2 hb) (hfree.1 hf), if_pos ht, refuse_empty hrun]
    · have hup : (s.link l).state = .up := hf.1.1
      have hset : param8 o 0 ≠ 0 := hpar.1
      obtain ⟨hle, hlt⟩ := ceilDiv_bounds hset s.period.ms_pos
      refine ⟨takeTest s k o n, firstTest s k o n, ?_, ?_⟩
      · rw [orderInsulationTest_free hp hpar (hbuf.2 hb) (hfree.1 hf), if_neg (by simp [l, ht])]
      have hengine : (takeTest s k o n).engine = s.engine := takeTest_engine s k o n
      rw [takeTest_eq k o hup] at hengine ⊢
      rw [suspendLine_eq] at hengine ⊢
      refine ⟨rfl, ?_, hle, hlt, rfl, ?_, ?_, fun m hm => ?_, fun m hm => ?_, rfl, hengine⟩
      · rw [State.link_modLink_same]
      · rw [State.line_modLink, State.line_modLine_same]
        rfl
      · rw [State.link_modLink_same]
        exact mem_queuePlace _ _
      · rw [State.line_modLink, State.line_modLine_other _ hm]
        rfl
      · exact State.link_modLink_other _ hm _

end Sys2Proof.Machine
end

section
/-! SUPPORT. What services, supervision and the pool agree on: of each line its service, supervision, rate, receiver
and whether it calibrates; of each link the line under test; of each receiver its duty; the waiting list's lines and
classes; and the receiver of the check. The invariants of services (R47, R95, R111, R145) and of the pool (R69, R70,
R73, R87) are statements about this view alone. -/

namespace Sys2Proof.Machine

/-! ### The view -/

/-- What services, supervision and the pool read of a line. -/
@[ext] structure LineCall where
  service : Service
  sup : Sup
  rate : Rate
  receiver : Option RcvNo
  calibrating : Bool

/-- What a receiver does for the pool: it is FREE, serves a line, checks, or none of these. -/
inductive Duty where
  | free
  | serving (n : LineNo)
  | checking
  | away

/-- The view of a state. -/
@[ext] structure Calls where
  line : LineNo → LineCall
  tested : LinkNo → Option LineNo
  duty : RcvNo → Duty
  waiting : List (LineNo × Fin 2)
  checked : Option RcvNo

def LineRec.call (r : LineRec) : LineCall :=
  { service := r.service, sup := r.sup, rate := r.rate, receiver := r.receiver, calibrating := r.calCtx.isSome }

def RcvState.duty : RcvState → Duty
  | .free => .free
  | .connecting e _ _ => .serving e.line
  | .listening e _ => .serving e.line
  | .releasing _ _ _ => .away
  | .checking _ => .checking
  | .stranded _ _ => .away
  | .outOfService _ => .away

/-- The line under test of a link's record. -/
def LinkRec.tested (r : LinkRec) : Option LineNo := r.test.map TestCtx.line

/-- A waiting entry's line and class. -/
def WaitEntry.place (e : WaitEntry) : LineNo × Fin 2 := (e.line, e.cls)

/-- The receiver that a check in progress names. -/
def GenCtx.checked : GenCtx → Option RcvNo
  | .check c => some c.rcv
  | .trace _ => Option.none
  | .none => Option.none

def State.calls (s : State) : Calls :=
  { line := fun n => (s.line n).call, tested := fun l => (s.link l).tested, duty := fun k => (s.rcv k).duty,
    waiting := s.waiting.map WaitEntry.place, checked := s.gen.ctx.checked }

/-- The lines on the waiting list. -/
def Calls.waiters (c : Calls) : List LineNo := c.waiting.map Prod.fst

def Calls.setLine (c : Calls) (n : LineNo) (r : LineCall) : Calls := { c with line := Function.update c.line n r }

def Calls.setReceiver (c : Calls) (n : LineNo) (k : Option RcvNo) : Calls :=
  c.setLine n { c.line n with receiver := k }

def Calls.setDuty (c : Calls) (k : RcvNo) (d : Duty) : Calls := { c with duty := Function.update c.duty k d }

@[simp] theorem Calls.setLine_line (c : Calls) (n : LineNo) (r : LineCall) : (c.setLine n r).line n = r := by
  simp [setLine]

theorem Calls.setLine_line_ite (c : Calls) (n m : LineNo) (r : LineCall) :
    (c.setLine n r).line m = if m = n then r else c.line m := by
  simp [setLine, Function.update_apply]

@[simp] theorem Calls.setLine_setLine (c : Calls) (n : LineNo) (a b : LineCall) :
    (c.setLine n a).setLine n b = c.setLine n b := by
  simp [setLine]

@[simp] theorem Calls.setLine_self (c : Calls) (n : LineNo) : c.setLine n (c.line n) = c := by
  simp [setLine]

/-! ### The view after an update -/

@[simp] theorem State.calls_line (s : State) (n : LineNo) : s.calls.line n = (s.line n).call := rfl

theorem modLine_calls (s : State) (n : LineNo) (f : LineRec → LineRec) :
    (s.modLine n f).calls = s.calls.setLine n (f (s.line n)).call := by
  refine Calls.ext (funext fun m => ?_) rfl rfl rfl rfl
  rw [Calls.setLine_line_ite, State.calls_line, State.line_modLine_ite]
  split <;> rfl

/-- An update of a line outside the view. -/
theorem modLine_calls_same (s : State) (n : LineNo) {f : LineRec → LineRec}
    (hf : (f (s.line n)).call = (s.line n).call) : (s.modLine n f).calls = s.calls := by
  rw [modLine_calls, hf]
  exact s.calls.setLine_self n

/-- An update of a link that leaves the line under test. -/
theorem modLink_calls_same (s : State) (l : LinkNo) {f : LinkRec → LinkRec}
    (hf : (f (s.link l)).tested = (s.link l).tested) : (s.modLink l f).calls = s.calls := by
  refine Calls.ext rfl (funext fun m => ?_) rfl rfl rfl
  show ((s.modLink l f).link m).tested = (s.link m).tested
  rw [State.link_modLink_ite]
  split
  · next h => rw [hf, h]
  · rfl

@[simp] theorem modSlot_calls (s : State) (k : SlotNo) (f : SlotRec → SlotRec) : (s.modSlot k f).calls = s.calls := rfl

@[simp] theorem setDet_calls (s : State) (k : RcvNo) (d : Det) : (s.setDet k d).calls = s.calls := rfl

@[simp] theorem setRcv_calls (s : State) (k : RcvNo) (r : RcvState) :
    (s.setRcv k r).calls = s.calls.setDuty k r.duty := by
  refine Calls.ext rfl rfl (funext fun m => ?_) rfl rfl
  show ((s.setRcv k r).rcv m).duty = Function.update s.calls.duty k r.duty m
  rw [State.rcv_setRcv_ite, Function.update_apply]
  split <;> rfl

@[simp] theorem startListening_calls (s : State) (k : RcvNo) (r : RcvState) :
    (s.startListening k r).calls = s.calls.setDuty k r.duty := by
  refine Calls.ext rfl rfl (funext fun m => ?_) rfl rfl
  show ((s.startListening k r).rcv m).duty = Function.update s.calls.duty k r.duty m
  rw [State.rcv_startListening_ite, Function.update_apply]
  split <;> rfl

/-- A receiver that keeps its duty. -/
theorem Calls.setDuty_self {c : Calls} {k : RcvNo} {d : Duty} (h : c.duty k = d) : c.setDuty k d = c := by
  simp [setDuty, ← h]

/-- What a state's marks, slots, detection and generator channels hold stands outside the view. -/
theorem calls_of_frame {s t : State} (hl : t.lines = s.lines) (hk : t.links = s.links) (hr : t.rcvs = s.rcvs)
    (hw : t.waiting = s.waiting) (hg : t.gen.ctx.checked = s.gen.ctx.checked) : t.calls = s.calls := by
  simp only [State.calls, State.line, State.link, State.rcv, hl, hk, hr, hw, hg]

@[simp] theorem markImage_calls (s : State) (n : LineNo) : (markImage s n).calls = s.calls := by
  rw [markImage_eq]
  exact modLine_calls_same s n (f := fun r => { r with changePending := true }) rfl

@[simp] theorem markPace_calls (s : State) (n : LineNo) : (markPace s n).calls = s.calls := by
  rw [markPace_eq]
  exact modLine_calls_same s n (f := fun r => { r with pacePending := true }) rfl

@[simp] theorem markChanges_calls (a b : State) : (markChanges a b).calls = b.calls := by
  refine Calls.ext (funext fun n => ?_) (funext fun l => ?_) (funext fun k => ?_) ?_ ?_
  · show ((markChanges a b).line n).call = _
    rw [markChanges_line]; rfl
  · show ((markChanges a b).link l).tested = _
    rw [markChanges_link]; rfl
  · show ((markChanges a b).rcv k).duty = _
    rw [markChanges_rcv]; rfl
  · show (markChanges a b).waiting.map _ = _
    rw [markChanges_waiting]; rfl
  · show (markChanges a b).gen.ctx.checked = _
    rw [markChanges_gen]; rfl

@[simp] theorem setReceiver_calls (s : State) (n : LineNo) (k : Option RcvNo) :
    (setReceiver s n k).calls = s.calls.setReceiver n k := by
  unfold setReceiver Calls.setReceiver
  split
  · next h => rw [← h]; exact (s.calls.setLine_self n).symm
  · rw [markImage_calls, modLine_calls]; rfl

/-! ### The invariants on the view -/

/-- A line is ACTIVE in a call state. -/
def LineCall.inCall (r : LineCall) : Prop := r.service = .active ∧ isCall r.sup = true

/-- A line's service agrees with its supervision, its rate and its calibration (R47, R95, R111, R145). -/
structure LineCall.Ok (r : LineCall) : Prop where
  agrees : match r.service with
    | .parked => r.sup = .none
    | .calibrating => r.sup = .suspended
    | .testing => r.sup = .suspended
    | .active => r.sup ≠ .none ∧ r.sup ≠ .suspended
  quiet : r.rate = .quiet → r.service = .active ∧ r.sup = .onHook
  calibrating : r.calibrating = true → r.service = .calibrating

/-- Services, supervision, rates, calibrations and insulation tests agree. -/
structure Calls.ServicesOk (c : Calls) : Prop where
  line : ∀ n, (c.line n).Ok
  tested : ∀ l n, c.tested l = some n → linkOf n = l ∧ (c.line n).service = .testing

/-- The pool is in order, but that a receiver may be FREE while lines wait, and that line x may wait or hold a
receiver outside a call. -/
structure Calls.PoolBut (x : Option LineNo) (c : Calls) : Prop where
  nodup : c.waiters.Nodup
  sorted : c.waiting.Pairwise fun a b => b.2 ≤ a.2
  serves : ∀ k n, c.duty k = .serving n ↔ (c.line n).receiver = some k
  apart : ∀ n ∈ c.waiters, (c.line n).receiver = none
  inCall : ∀ n, some n ≠ x → (c.line n).receiver ≠ none ∨ n ∈ c.waiters → (c.line n).inCall
  checking : ∀ k, c.checked = some k → c.duty k = .checking

/-- No receiver is FREE while a line waits (R73). -/
def Calls.NoneFree (c : Calls) : Prop := c.waiting ≠ [] → ∀ k, c.duty k ≠ .free

/-- The pool is in order. -/
def Calls.PoolOk (c : Calls) : Prop := c.PoolBut none ∧ c.NoneFree

theorem servicesSound_iff {s : State} : ServicesSound s ↔ s.calls.ServicesOk := by
  constructor
  · intro h
    refine ⟨fun n => ⟨h.agrees n, h.quiet n, h.calibrating n⟩, fun l n ht => ?_⟩
    obtain ⟨c, hc, rfl⟩ := Option.map_eq_some_iff.mp ht
    exact h.testing l c hc
  · intro h
    refine ⟨fun n => (h.line n).agrees, fun n => (h.line n).quiet, fun n => (h.line n).calibrating, fun l c hc => ?_⟩
    exact h.tested l c.line (Option.map_eq_some_iff.mpr ⟨c, hc, rfl⟩)

theorem duty_serving_iff {r : RcvState} {n : LineNo} :
    r.duty = .serving n ↔ ∃ e, grantedEntry r = some e ∧ e.line = n := by
  cases r <;> simp [RcvState.duty, grantedEntry]

theorem duty_free_iff {r : RcvState} : r.duty = .free ↔ r = .free := by
  cases r <;> simp [RcvState.duty]

theorem duty_checking_iff {r : RcvState} : r.duty = .checking ↔ isChecking r = true := by
  cases r <;> simp [RcvState.duty, isChecking]

theorem checked_eq_some {g : GenCtx} {k : RcvNo} : g.checked = some k ↔ ∃ c, g = .check c ∧ c.rcv = k := by
  cases g <;> simp [GenCtx.checked]

theorem calls_waiters (s : State) : s.calls.waiters = s.waiting.map WaitEntry.line := by
  simp [Calls.waiters, State.calls, WaitEntry.place]

theorem poolSound_iff {s : State} : PoolSound s ↔ s.calls.PoolOk := by
  have hmem : ∀ n, n ∈ s.calls.waiters ↔ ∃ e ∈ s.waiting, e.line = n := fun n => by
    rw [calls_waiters]; exact List.mem_map
  have hsort : s.calls.waiting.Pairwise (fun a b => b.2 ≤ a.2) ↔ s.waiting.Pairwise fun a b => b.cls ≤ a.cls := by
    exact List.pairwise_map
  have hfree : s.calls.NoneFree ↔ (s.waiting ≠ [] → ∀ k, s.rcv k ≠ .free) := by
    simp only [Calls.NoneFree, State.calls, ne_eq, List.map_eq_nil_iff, duty_free_iff]
  constructor
  · intro h
    refine ⟨⟨?_, hsort.mpr h.ordered.2, fun k n => ?_, fun n hn => ?_, fun n _ hn => ?_, fun k hk => ?_⟩,
      hfree.mpr h.law⟩
    · rw [calls_waiters]; exact h.ordered.1
    · constructor
      · intro hd
        obtain ⟨e, he, rfl⟩ := duty_serving_iff.mp hd
        exact h.attached k e he
      · exact fun hr => duty_serving_iff.mpr (h.held n k hr)
    · obtain ⟨e, he, rfl⟩ := (hmem n).mp hn
      exact h.apart e he
    · rcases hn with hr | hw
      · obtain ⟨k, hk⟩ := Option.ne_none_iff_exists'.mp hr
        obtain ⟨e, he, rfl⟩ := h.held n k hk
        exact h.serving k e he
      · obtain ⟨e, he, rfl⟩ := (hmem n).mp hw
        exact h.listed e he
    · obtain ⟨c, hc, rfl⟩ := checked_eq_some.mp hk
      exact duty_checking_iff.mpr (h.checking c hc)
  · rintro ⟨h, hf⟩
    have hatt : ∀ k e, grantedEntry (s.rcv k) = some e → (s.line e.line).receiver = some k := fun k e he =>
      (h.serves k e.line).mp (duty_serving_iff.mpr ⟨e, he, rfl⟩)
    refine ⟨⟨?_, hsort.mp h.sorted⟩, hatt, fun n k hr => ?_, fun e he => ?_, fun e he => ?_, fun k e he => ?_,
      hfree.mp hf, fun c hc => ?_⟩
    · rw [← calls_waiters]; exact h.nodup
    · exact duty_serving_iff.mp ((h.serves k n).mpr hr)
    · exact h.apart e.line ((hmem _).mpr ⟨e, he, rfl⟩)
    · exact h.inCall e.line (by simp) (.inr ((hmem _).mpr ⟨e, he, rfl⟩))
    · exact h.inCall e.line (by simp) (.inl (by rw [State.calls_line]; simp [LineRec.call, hatt k e he]))
    · exact duty_checking_iff.mp (h.checking c.rcv (checked_eq_some.mpr ⟨c, hc, rfl⟩))

/-! ### Services -/

/-- Services agree whatever the pool does: they do not rest on receivers, the list or the check. -/
theorem Calls.ServicesOk.of_receivers {c d : Calls} (h : c.ServicesOk)
    (hl : ∀ n, { d.line n with receiver := none } = { c.line n with receiver := none })
    (ht : d.tested = c.tested) : d.ServicesOk := by
  have hv : ∀ n, (d.line n).service = (c.line n).service := fun n => (congrArg LineCall.service (hl n) :)
  refine ⟨fun n => ?_, fun l n hn => ?_⟩
  · have hs : (d.line n).sup = (c.line n).sup := (congrArg LineCall.sup (hl n) :)
    have hr : (d.line n).rate = (c.line n).rate := (congrArg LineCall.rate (hl n) :)
    have hc : (d.line n).calibrating = (c.line n).calibrating := (congrArg LineCall.calibrating (hl n) :)
    obtain ⟨ha, hq, hk⟩ := h.line n
    rw [← hv n, ← hs] at ha
    rw [← hv n, ← hs, ← hr] at hq
    rw [← hv n, ← hc] at hk
    exact ⟨ha, hq, hk⟩
  · rw [ht] at hn
    rw [hv n]
    exact h.tested l n hn

/-- A line's record changes to one whose service agrees with the rest of it. -/
theorem Calls.ServicesOk.setLine {c : Calls} (h : c.ServicesOk) {n : LineNo} {r : LineCall} (hr : r.Ok)
    (ht : ∀ l, c.tested l = some n → r.service = .testing) : (c.setLine n r).ServicesOk := by
  refine ⟨fun m => ?_, fun l m hm => ?_⟩
  · rw [setLine_line_ite]
    split
    · exact hr
    · exact h.line m
  · refine ⟨(h.tested l m hm).1, ?_⟩
    rw [setLine_line_ite]
    split
    · next e => exact ht l (e ▸ hm)
    · exact (h.tested l m hm).2

/-- An ACTIVE line is under no test. -/
theorem Calls.ServicesOk.not_tested {c : Calls} (h : c.ServicesOk) {n : LineNo} (hn : (c.line n).service ≠ .testing)
    (l : LinkNo) : c.tested l ≠ some n := fun e => hn (h.tested l n e).2

/-- Only an ACTIVE line in ON_HOOK is QUIET. -/
theorem LineCall.Ok.full {r : LineCall} (h : r.Ok) (hs : r.sup ≠ .onHook) : r.rate = .full := by
  cases e : r.rate with
  | full => rfl
  | quiet => exact absurd (h.quiet e).2 hs

/-- A line in a call state is ACTIVE. -/
theorem LineCall.Ok.inCall {r : LineCall} (h : r.Ok) (hc : isCall r.sup = true) : r.inCall := by
  refine ⟨?_, hc⟩
  have ha := h.agrees
  cases e : r.service with
  | active => rfl
  | _ => rw [e] at ha; rw [ha] at hc; cases hc

end Sys2Proof.Machine
end

section
/-! SUPPORT. The pool kept in order (R69, R70, R73, R87): what each of its moves does to the view of receivers, list
and lines, and that every operation of the pool controller keeps it so. -/

namespace Sys2Proof.Machine

variable {x : Option LineNo} {c : Calls} {s : State} {n : LineNo} {k : RcvNo}

/-! ### Moves on the view -/

/-- A line neither waits nor holds a receiver. -/
def Calls.Apart (c : Calls) (n : LineNo) : Prop := (c.line n).receiver = none ∧ n ∉ c.waiters

theorem Calls.setReceiver_receiver (c : Calls) (n m : LineNo) (k : Option RcvNo) :
    ((c.setReceiver n k).line m).receiver = if m = n then k else (c.line m).receiver := by
  rw [setReceiver, setLine_line_ite]
  split <;> rfl

@[simp] theorem Calls.setReceiver_duty (c : Calls) (n : LineNo) (k : Option RcvNo) :
    (c.setReceiver n k).duty = c.duty := rfl

theorem Calls.setReceiver_inCall (c : Calls) (n m : LineNo) (k : Option RcvNo) :
    ((c.setReceiver n k).line m).inCall ↔ (c.line m).inCall := by
  rw [setReceiver, setLine_line_ite]
  split
  · next h => subst h; rfl
  · rfl

theorem Calls.setDuty_duty (c : Calls) (k j : RcvNo) (d : Duty) :
    (c.setDuty k d).duty j = if j = k then d else c.duty j := by
  simp [setDuty, Function.update_apply]

/-- Line n is in a call, or no longer waits and holds nothing: it need not be excepted. -/
theorem Calls.PoolBut.close (h : c.PoolBut (some n)) (hn : c.Apart n ∨ (c.line n).inCall) : c.PoolBut none := by
  refine { h with inCall := fun m _ hm => ?_ }
  by_cases e : m = n
  · subst e
    rcases hn with ha | hc
    · exact hm.elim (fun hr => absurd ha.1 hr) (fun hw => absurd hw ha.2)
    · exact hc
  · exact h.inCall m (by simpa using e) hm

/-- A line's record changes, its receiver apart: the line is excepted. -/
theorem Calls.PoolBut.setLine (h : c.PoolBut none) {r : LineCall} (hr : r.receiver = (c.line n).receiver) :
    (c.setLine n r).PoolBut (some n) := by
  have hrcv : ∀ m, ((c.setLine n r).line m).receiver = (c.line m).receiver := fun m => by
    rw [setLine_line_ite]
    split
    · next e => rw [hr, e]
    · rfl
  refine ⟨h.nodup, h.sorted, fun k m => ?_, fun m hm => ?_, fun m hx hm => ?_, h.checking⟩
  · rw [hrcv m]; exact h.serves k m
  · rw [hrcv m]; exact h.apart m hm
  · have hmn : m ≠ n := fun e => hx (e ▸ rfl)
    rw [hrcv m] at hm
    rw [setLine_line_ite, if_neg hmn]
    exact h.inCall m (by simp) hm

/-- A receiver that serves no line goes over to another such duty. -/
theorem Calls.PoolBut.setDuty {d : Duty} (h : c.PoolBut x) (hk : ∀ m, c.duty k ≠ .serving m)
    (hd : ∀ m, d ≠ .serving m) (hc : c.checked = some k → d = .checking) : (c.setDuty k d).PoolBut x := by
  refine ⟨h.nodup, h.sorted, fun j m => ?_, h.apart, h.inCall, fun j hj => ?_⟩
  · rw [setDuty_duty]
    split
    · next e =>
      subst e
      exact ⟨fun e => absurd e (hd m), fun e => absurd ((h.serves j m).mpr e) (hk m)⟩
    · exact h.serves j m
  · rw [setDuty_duty]
    split
    · next e => exact hc (e ▸ hj)
    · exact h.checking j hj

/-- A receiver lets its line go. -/
theorem Calls.PoolBut.detach {d : Duty} (h : c.PoolBut x) (hk : c.duty k = .serving n) (hd : ∀ m, d ≠ .serving m) :
    ((c.setReceiver n none).setDuty k d).PoolBut x := by
  refine ⟨h.nodup, h.sorted, fun j m => ?_, fun m hm => ?_, fun m hx hm => ?_, fun j hj => ?_⟩
  · have hs := h.serves j m
    show ((c.setReceiver n none).setDuty k d).duty j = _ ↔ ((c.setReceiver n none).line m).receiver = _
    rw [setDuty_duty, setReceiver_receiver]
    have hn := h.serves j n
    have hkn := (h.serves k n).mp hk
    by_cases ej : j = k
    · subst ej
      by_cases em : m = n
      · simp [em, hd]
      · have : ¬(c.line m).receiver = some j := fun e => em (Duty.serving.inj (((h.serves j m).mpr e).symm.trans hk))
        simp [em, hd, this]
    · by_cases em : m = n
      · subst em
        have : c.duty j ≠ .serving m := fun e => ej (Option.some.inj ((hs.mp e).symm.trans hkn))
        simp [ej, this]
      · simpa [ej, em] using hs
  · show ((c.setReceiver n none).line m).receiver = _
    rw [setReceiver_receiver]
    split
    · rfl
    · exact h.apart m hm
  · show ((c.setReceiver n none).line m).inCall
    rw [setReceiver_inCall]
    refine h.inCall m hx (hm.imp_left fun hr => ?_)
    change ((c.setReceiver n none).line m).receiver ≠ none at hr
    rw [setReceiver_receiver] at hr
    split at hr
    · exact absurd rfl hr
    · exact hr
  · rw [setDuty_duty]
    split
    · next e => have := h.checking j hj; rw [e, hk] at this; cases this
    · exact h.checking j hj

/-- After that the line holds nothing, and does not wait. -/
theorem Calls.PoolBut.detach_apart {d : Duty} (h : c.PoolBut x) (hk : c.duty k = .serving n) :
    ((c.setReceiver n none).setDuty k d).Apart n := by
  refine ⟨?_, fun hw => ?_⟩
  · show ((c.setReceiver n none).line n).receiver = none
    rw [setReceiver_receiver, if_pos rfl]
  · have := h.apart n hw
    rw [(h.serves k n).mp hk] at this
    cases this

/-- The line at the head of the list is granted a FREE receiver. -/
theorem Calls.PoolBut.grant {w : LineNo × Fin 2} {rest : List (LineNo × Fin 2)} (h : c.PoolBut x)
    (hw : c.waiting = w :: rest) (hk : c.duty k = .free) :
    (({ c with waiting := rest }.setDuty k (.serving w.1)).setReceiver w.1 (some k)).PoolBut x := by
  have hwait : c.waiters = w.1 :: rest.map Prod.fst := by rw [waiters, hw]; rfl
  have hnd := h.nodup
  rw [hwait, List.nodup_cons] at hnd
  have hs := h.sorted
  rw [hw, List.pairwise_cons] at hs
  have hnone : (c.line w.1).receiver = none := h.apart w.1 (by rw [hwait]; exact List.mem_cons_self)
  have hmem : ∀ m ∈ rest.map Prod.fst, m ≠ w.1 ∧ m ∈ c.waiters := fun m hm =>
    ⟨fun e => hnd.1 (e ▸ hm), by rw [hwait]; exact List.mem_cons_of_mem _ hm⟩
  generalize hd : { c with waiting := rest }.setDuty k (.serving w.1) = d
  have hline : d.line = c.line := by rw [← hd]; rfl
  have hdw : d.waiters = rest.map Prod.fst := by rw [← hd]; rfl
  have hdd : ∀ j, d.duty j = if j = k then .serving w.1 else c.duty j := fun j => by
    rw [← hd, setDuty_duty]
  refine ⟨?_, ?_, fun j m => ?_, fun m hm => ?_, fun m hx hm => ?_, fun j hj => ?_⟩
  · exact hdw ▸ hnd.2
  · have : d.waiting = rest := by rw [← hd]; rfl
    exact this ▸ hs.2
  · show d.duty j = _ ↔ _
    rw [setReceiver_receiver, hdd, hline]
    have hj := h.serves j m
    by_cases ej : j = k
    · subst ej
      by_cases em : m = w.1
      · simp [em]
      · have : (c.line m).receiver ≠ some j := fun e => by rw [hj.mpr e] at hk; cases hk
        simp [em, this, Ne.symm em]
    · by_cases em : m = w.1
      · have : c.duty j ≠ .serving m := fun e => by rw [em, hnone] at hj; exact absurd (hj.mp (em ▸ e)) (by simp)
        subst em
        simp [ej, this, Ne.symm ej]
      · simpa [ej, em] using hj
  · change m ∈ d.waiters at hm
    rw [hdw] at hm
    rw [setReceiver_receiver, if_neg (hmem m hm).1, hline]
    exact h.apart m (hmem m hm).2
  · rw [setReceiver_inCall, hline]
    rw [setReceiver_receiver, hline] at hm
    by_cases em : m = w.1
    · exact h.inCall m hx (.inr (by rw [hwait, em]; exact List.mem_cons_self))
    · rw [if_neg em] at hm
      refine h.inCall m hx (hm.imp_right fun hm => ?_)
      change m ∈ d.waiters at hm
      rw [hdw] at hm
      exact (hmem m hm).2
  · show d.duty j = _
    have hc : c.checked = some j := by rw [← hd] at hj; exact hj
    have := h.checking j hc
    rw [hdd, if_neg]
    · exact this
    · intro e; rw [e, hk] at this; cases this

/-- A line joins the list. -/
theorem Calls.PoolBut.enlist {w : LineNo × Fin 2} {l : List (LineNo × Fin 2)} (h : c.PoolBut x)
    (hl : l.Perm (w :: c.waiting)) (hs : l.Pairwise fun a b => b.2 ≤ a.2) (ha : c.Apart w.1)
    (hc : some w.1 ≠ x → (c.line w.1).inCall) : { c with waiting := l }.PoolBut x := by
  have hp : (l.map Prod.fst).Perm (w.1 :: c.waiters) := hl.map Prod.fst
  refine ⟨?_, hs, h.serves, fun m hm => ?_, fun m hx hm => ?_, h.checking⟩
  · exact hp.nodup_iff.mpr (List.nodup_cons.mpr ⟨ha.2, h.nodup⟩)
  · rcases List.mem_cons.mp (hp.mem_iff.mp hm) with e | hm
    · exact e ▸ ha.1
    · exact h.apart m hm
  · rcases hm with hr | hm
    · exact h.inCall m hx (.inl hr)
    · rcases List.mem_cons.mp (hp.mem_iff.mp hm) with e | hm
      · exact e ▸ hc (e ▸ hx)
      · exact h.inCall m hx (.inr hm)

/-- Lines leave the list. -/
theorem Calls.PoolBut.delist {l : List (LineNo × Fin 2)} (h : c.PoolBut x) (hl : l.Sublist c.waiting) :
    { c with waiting := l }.PoolBut x := by
  have hw : (l.map Prod.fst).Sublist c.waiters := hl.map Prod.fst
  exact ⟨h.nodup.sublist hw, h.sorted.sublist hl, h.serves, fun m hm => h.apart m (hw.subset hm),
    fun m hx hm => h.inCall m hx (hm.imp_right fun hm => hw.subset hm), h.checking⟩

theorem Calls.NoneFree.delist {l : List (LineNo × Fin 2)} (h : c.NoneFree) (hl : l.Sublist c.waiting) :
    { c with waiting := l }.NoneFree := fun hne => h fun e => hne (List.sublist_nil.mp (e ▸ hl))

/-- No receiver goes FREE by a move of one that does not. -/
theorem Calls.NoneFree.setDuty {d : Duty} (h : c.NoneFree) (hd : d ≠ .free) : (c.setDuty k d).NoneFree := by
  intro hw j
  rw [setDuty_duty]
  split
  · exact hd
  · exact h hw j

/-! ### Grants -/

@[simp] theorem modListen_calls (s : State) (t : SlotNo) (f : ListenCtx → ListenCtx) :
    (modListen s t f).calls = s.calls := rfl

@[simp] theorem placeFrame_calls (s : State) (l : LinkNo) (f : Frame) : (placeFrame s l f).calls = s.calls := by
  unfold placeFrame
  split
  · exact modLink_calls_same s l rfl
  · rfl

@[simp] theorem withdrawFrame_calls (s : State) (l : LinkNo) (f : Frame) : (withdrawFrame s l f).calls = s.calls :=
  modLink_calls_same s l rfl

theorem grant_calls (s : State) (e : WaitEntry) (k : RcvNo) :
    (grant s e k).calls = (s.calls.setDuty k (.serving e.line)).setReceiver e.line (some k) := by
  unfold grant
  rw [placeFrame_calls, setReceiver_calls]
  congr 1
  split
  · exact (modListen_calls _ _ _).trans (setRcv_calls s k _)
  · exact setRcv_calls s k _

/-- The receivers that are FREE. -/
def freeRcvs (s : State) : List RcvNo := allRcvs.filter (isFree s)

theorem isFree_iff {s : State} {k : RcvNo} : isFree s k = true ↔ s.calls.duty k = .free := by
  rw [isFree, decide_eq_true_iff]
  exact duty_free_iff.symm

theorem mem_freeRcvs {s : State} {k : RcvNo} : k ∈ freeRcvs s ↔ s.calls.duty k = .free := by
  simp [freeRcvs, allRcvs, isFree_iff]

/-- The pool looks at every receiver, whatever it starts from (R74). -/
theorem mem_grantOrder (s : State) (k : RcvNo) : k ∈ grantOrder s := by
  unfold grantOrder
  split
  · exact List.mem_map.mpr ⟨k - (s.rotation + 1), by simp [allRcvs], add_sub_cancel _ _⟩
  · simp [allRcvs]

theorem chooseRcv_some {s : State} {k : RcvNo} (h : chooseRcv s = some k) : s.calls.duty k = .free :=
  isFree_iff.mp (List.find?_some h)

theorem chooseRcv_none {s : State} (h : chooseRcv s = none) (k : RcvNo) : s.calls.duty k ≠ .free := fun e =>
  (List.find?_eq_none.mp h) k (mem_grantOrder s k) (isFree_iff.mpr e)

/-- A grant leaves fewer receivers FREE. -/
theorem freeRcvs_lt {s t : State} {k : RcvNo} {d : Duty} (hk : s.calls.duty k = .free) (hd : d ≠ .free)
    (ht : t.calls.duty = Function.update s.calls.duty k d) : (freeRcvs t).length < (freeRcvs s).length := by
  have hsub : (freeRcvs t).Sublist (freeRcvs s) := by
    refine List.monotone_filter_right allRcvs fun j hj => ?_
    rw [isFree_iff, ht, Function.update_apply] at hj
    split at hj
    · exact absurd hj hd
    · exact isFree_iff.mpr hj
  refine lt_of_le_of_ne hsub.length_le fun e => ?_
  have hm : k ∈ freeRcvs t := by
    rw [hsub.eq_of_length e]
    exact mem_freeRcvs.mpr hk
  rw [mem_freeRcvs, ht, Function.update_self] at hm
  exact hd hm

/-- One round of the grant test. -/
theorem grantRound_calls {s : State} {e : WaitEntry} {rest : List WaitEntry} (k : RcvNo) :
    (grant { s with waiting := rest } e k).calls
      = ({ s.calls with waiting := rest.map WaitEntry.place }.setDuty k (.serving e.line)).setReceiver e.line
          (some k) :=
  grant_calls _ e k

/-- The grant test keeps the pool in order, and ends with the list empty or no receiver FREE; a line that neither
waits nor holds a receiver is granted none (R73). -/
theorem grantLoop_pool (fuel : Nat) {s : State} (h : s.calls.PoolBut x) (hf : (freeRcvs s).length ≤ fuel) :
    (grantLoop fuel s).calls.PoolBut x ∧ (grantLoop fuel s).calls.NoneFree
      ∧ ∀ n, s.calls.Apart n → (grantLoop fuel s).calls.Apart n := by
  induction fuel generalizing s with
  | zero =>
    refine ⟨h, fun _ k hk => ?_, fun _ hn => hn⟩
    have := List.length_pos_of_mem (mem_freeRcvs (s := s).mpr hk)
    omega
  | succ fuel ih =>
    unfold grantLoop
    split
    · next e rest k hw hk =>
      have hfree := chooseRcv_some hk
      have hcw : s.calls.waiting = e.place :: rest.map WaitEntry.place := by simp [State.calls, hw]
      have hcalls := grantRound_calls (s := s) (e := e) (rest := rest) k
      have hlt := freeRcvs_lt (t := grant { s with waiting := rest } e k) (d := .serving e.line) hfree (by simp)
        (by rw [hcalls]; rfl)
      obtain ⟨h1, h2, h3⟩ := ih (hcalls ▸ h.grant hcw hfree) (by omega)
      refine ⟨h1, h2, fun n hn => h3 n ?_⟩
      have hne : n ≠ e.line := fun he => hn.2 (by
        rw [Calls.waiters, hcw, he]; exact List.mem_cons_self)
      rw [hcalls]
      refine ⟨?_, fun hm => hn.2 ?_⟩
      · rw [Calls.setReceiver_receiver, if_neg hne]
        exact hn.1
      · rw [Calls.waiters, hcw]
        exact List.mem_cons_of_mem _ hm
    · next hno =>
      refine ⟨h, fun hw k => ?_, fun _ hn => hn⟩
      have hw' : s.waiting ≠ [] := fun e => hw (by simp [State.calls, e])
      obtain ⟨e, rest, hcons⟩ := List.exists_cons_of_ne_nil hw'
      cases hc : chooseRcv s with
      | none => exact chooseRcv_none hc k
      | some j => exact absurd hc (hno e rest j hcons)

theorem grantTest_pool (h : s.calls.PoolBut x) :
    (grantTest s).calls.PoolBut x ∧ (grantTest s).calls.NoneFree
      ∧ ∀ n, s.calls.Apart n → (grantTest s).calls.Apart n :=
  grantLoop_pool 8 h (List.length_filter_le _ _)

theorem grantTest_ok (h : s.calls.PoolBut none) : (grantTest s).calls.PoolOk :=
  ⟨(grantTest_pool h).1, (grantTest_pool h).2.1⟩

/-! ### Joining and releasing -/

theorem entryOf_eq_none_iff {s : State} {n : LineNo} : entryOf s n = none ↔ n ∉ s.calls.waiters := by
  rw [calls_waiters, entryOf, List.find?_eq_none]
  simp [eq_comm]

/-- A line in a call that is to wait is placed on the list, and grants follow (R71, R73). -/
theorem enlist_ok {e : WaitEntry} {l : List WaitEntry} (h : s.calls.PoolBut none) (hl : l.Perm (e :: s.waiting))
    (hs : l.Pairwise fun a b => b.cls ≤ a.cls) (ha : s.calls.Apart e.line) (hc : (s.calls.line e.line).inCall) :
    (grantTest { s with waiting := l }).calls.PoolOk := by
  refine grantTest_ok (h.enlist (w := e.place) (hl.map WaitEntry.place) ?_ ha fun _ => hc)
  exact List.pairwise_map.mpr hs

theorem sorted_waiting (h : s.calls.PoolBut x) : s.waiting.Pairwise fun a b => b.cls ≤ a.cls :=
  List.pairwise_map.mp h.sorted

theorem join_pool (h : s.calls.PoolOk) (hc : (s.calls.line n).inCall) : (join s n).calls.PoolOk := by
  unfold join
  split
  · next hj =>
    exact enlist_ok h.1 (insertTail_perm _ _) (insertTail_ordered _ _ (sorted_waiting h.1))
      ⟨hj.1, entryOf_eq_none_iff.mp hj.2⟩ hc
  · exact h

/-- What the release of a receiver comes to: it lets its line go and is no longer FREE where it is to go out of
service; a receiver without a line is left as it is (R78). -/
theorem releaseRcv_calls (s : State) (k : RcvNo) (out : Bool) :
    (∃ n d, s.calls.duty k = .serving n ∧ (∀ m, d ≠ .serving m) ∧ (out = true → d ≠ .free)
      ∧ (releaseRcv s k out).calls = (s.calls.setReceiver n none).setDuty k d)
    ∨ (∀ n, s.calls.duty k ≠ .serving n) ∧ releaseRcv s k out = s := by
  have hduty : s.calls.duty k = (s.rcv k).duty := rfl
  have hfreed : ∀ m, (freedState out).duty ≠ .serving m := fun m => by cases out <;> simp [freedState, RcvState.duty]
  have hout : out = true → (freedState out).duty ≠ .free := fun h => by simp [h, freedState, RcvState.duty]
  unfold releaseRcv
  split
  · next e tap ph hr =>
    rw [hr] at hduty
    refine .inl ⟨e.line, ?_⟩
    dsimp only
    split
    · split
      · exact ⟨_, hduty, hfreed, hout, by rw [setRcv_calls, withdrawFrame_calls, setReceiver_calls]⟩
      · exact ⟨.away, hduty, by simp, by simp, by rw [setRcv_calls, setReceiver_calls]; rfl⟩
      · exact ⟨.away, hduty, by simp, by simp, by rw [placeFrame_calls, setRcv_calls, setReceiver_calls]; rfl⟩
    · exact ⟨.away, hduty, by simp, by simp, by rw [setRcv_calls, setReceiver_calls]; rfl⟩
  · next e tap hr =>
    rw [hr] at hduty
    refine .inl ⟨e.line, ?_⟩
    dsimp only
    split
    · exact ⟨.away, hduty, by simp, by simp, by rw [placeFrame_calls, setRcv_calls, setReceiver_calls]; rfl⟩
    · exact ⟨.away, hduty, by simp, by simp, by rw [setRcv_calls, setReceiver_calls]; rfl⟩
  · next h1 h2 =>
    refine .inr ⟨fun n hn => ?_, rfl⟩
    rw [hduty] at hn
    obtain ⟨e, he, -⟩ := duty_serving_iff.mp hn
    cases hr : s.rcv k with
    | connecting e tap ph => exact h1 e tap ph hr
    | listening e tap => exact h2 e tap hr
    | _ => rw [hr] at he; cases he

theorem releaseRcv_pool (h : s.calls.PoolBut x) (k : RcvNo) (out : Bool) :
    (releaseRcv s k out).calls.PoolBut x ∧ ∀ n, s.calls.duty k = .serving n → (releaseRcv s k out).calls.Apart n := by
  rcases releaseRcv_calls s k out with ⟨n, d, hk, hd, -, hc⟩ | ⟨hno, he⟩
  · rw [hc]
    refine ⟨h.detach hk hd, fun m hm => ?_⟩
    obtain rfl : n = m := Duty.serving.inj (hk.symm.trans hm)
    exact h.detach_apart hk
  · rw [he]
    exact ⟨h, fun n hn => absurd hn (hno n)⟩

theorem release_pool (h : s.calls.PoolBut none) (k : RcvNo) : (release s k).calls.PoolOk :=
  grantTest_ok (releaseRcv_pool h k false).1

@[simp] theorem endOrder_calls (s : State) (k : SlotNo) (c : Completion) : (endOrder s k c).calls = s.calls := by
  unfold endOrder
  split <;> rfl

@[simp] theorem finish_calls (s : State) (k : SlotNo) (o : OrderOutcome) (r : Reason) (d : List Nat) :
    (finish s k o r d).calls = s.calls := endOrder_calls s k _

@[simp] theorem refuse_calls (s : State) (k : SlotNo) (r : Reason) (d : List Nat) :
    (refuse s k r d).calls = s.calls := finish_calls s k _ r d

@[simp] theorem complete_calls (s : State) (k : SlotNo) (d : List Nat) : (complete s k d).calls = s.calls :=
  finish_calls s k _ _ d

@[simp] theorem takeFlight_calls (s : State) (k : SlotNo) (f : Flight) : (takeFlight s k f).calls = s.calls := rfl

@[simp] theorem finishListen_calls (s : State) (t : SlotNo) (o : OrderOutcome) (r : Reason) :
    (finishListen s t o r).calls = s.calls := by
  unfold finishListen
  split
  · exact finish_calls s t o r _
  · rfl

theorem removeWaiting_calls (s : State) (n : LineNo) :
    ∃ l, l.Sublist s.calls.waiting ∧ n ∉ l.map Prod.fst
      ∧ (removeWaiting s n).calls = { s.calls with waiting := l } := by
  refine ⟨(s.waiting.filter fun e => decide (e.line ≠ n)).map WaitEntry.place,
    List.filter_sublist.map WaitEntry.place, fun hm => ?_, rfl⟩
  simp only [List.map_map, List.mem_map, List.mem_filter, decide_eq_true_eq] at hm
  obtain ⟨e, ⟨-, hne⟩, he⟩ := hm
  exact hne he

theorem removeWaiting_pool (h : s.calls.PoolBut x) (hf : s.calls.NoneFree) (n : LineNo) :
    (removeWaiting s n).calls.PoolBut x ∧ (removeWaiting s n).calls.NoneFree
      ∧ ((s.calls.line n).receiver = none → (removeWaiting s n).calls.Apart n) := by
  obtain ⟨l, hl, hn, hc⟩ := removeWaiting_calls s n
  rw [hc]
  exact ⟨h.delist hl, hf.delist hl, fun hr => ⟨hr, hn⟩⟩

/-- A surrender ends what a line has of the pool, so that it need not be in a call (R49). -/
theorem surrender_pool (h : s.calls.PoolBut (some n)) (hf : s.calls.NoneFree) : (surrender s n).calls.PoolOk := by
  unfold surrender
  extract_lets tag s1 s2
  have h1 : s1.calls.PoolBut (some n) ∧ s1.calls.NoneFree ∧ (s1.calls.line n).receiver = none := by
    subst s1
    split
    · next k hk =>
      obtain ⟨hr, ha⟩ := releaseRcv_pool h k false
      obtain ⟨hg, hg', hga⟩ := grantTest_pool hr
      exact ⟨hg, hg', (hga n (ha n ((h.serves k n).mpr hk))).1⟩
    · next hk => exact ⟨h, hf, hk⟩
  clear_value s1
  obtain ⟨hb, hf', ha⟩ := removeWaiting_pool h1.1 h1.2.1 n
  have h2 : s2.calls.PoolOk := ⟨hb.close (.inl (ha h1.2.2)), hf'⟩
  cases tag with
  | some t => exact (finishListen_calls s2 t _ _).symm ▸ h2
  | none => exact h2

theorem policyRelease_pool (h : s.calls.PoolOk) (n : LineNo) : (policyRelease s n).calls.PoolOk := by
  unfold policyRelease
  split
  · exact h
  split
  · exact release_pool h.1 _
  · obtain ⟨hb, hf, -⟩ := removeWaiting_pool h.1 h.2 n
    exact ⟨hb, hf⟩

end Sys2Proof.Machine
end

section
/-! SUPPORT. Services in agreement, and with them the pool in order if it was: kept by the replies to TAP frames, by
the loss of a link, by LISTEN, RECEIVER SERVICE and RECEIVER CHECK. -/

namespace Sys2Proof.Machine

variable {x : Option LineNo} {c : Calls} {s t : State} {n : LineNo} {k : RcvNo} {P : Prop}

/-! ### The invariant -/

/-- Services agree, and the pool is in order if it was to begin with: P says whether it was. With False for P this is
the invariant of the services alone, with True that of both. -/
structure CallsSound (P : Prop) (s : State) : Prop where
  services : s.calls.ServicesOk
  pool : P → s.calls.PoolOk

theorem CallsSound.of_calls (h : CallsSound P s) (e : t.calls = s.calls) : CallsSound P t :=
  ⟨e ▸ h.services, e ▸ h.pool⟩

theorem CallsSound.foldl {α : Type} {f : State → α → State} (hf : ∀ s y, CallsSound P s → CallsSound P (f s y))
    (l : List α) (h : CallsSound P s) : CallsSound P (l.foldl f s) := by
  induction l generalizing s with
  | nil => exact h
  | cons y l ih => exact ih (hf s y h)

theorem CallsSound.eachLine {f : State → LineNo → State} (hf : ∀ s n, CallsSound P s → CallsSound P (f s n))
    (l : List LineNo) (h : CallsSound P s) : CallsSound P (eachLine f l s) := by
  refine CallsSound.foldl (fun s n hs => ?_) l h
  split
  · exact (hf s n hs).of_calls (markImage_calls _ n)
  · exact hf s n hs

/-- An operation that moves no line but in its receiver, and no test, leaves the services as they are. -/
theorem servicesOk_of_noRcv (h : s.calls.ServicesOk) (hl : ∀ m, (t.line m).noRcv = (s.line m).noRcv)
    (hu : t.unsupervised = s.unsupervised) : t.calls.ServicesOk := by
  refine h.of_receivers (fun m => ?_) (funext fun l => ?_)
  · exact (congrArg LineRec.call (hl m) :)
  · exact (congrArg LinkRec.tested (link_standing (congrArg Prod.snd hu) l) :)

/-- An operation of the pool. -/
theorem CallsSound.pooled (h : CallsSound P s) (hl : ∀ m, (t.line m).noRcv = (s.line m).noRcv)
    (hu : t.unsupervised = s.unsupervised) (hp : s.calls.PoolOk → t.calls.PoolOk) : CallsSound P t :=
  ⟨servicesOk_of_noRcv h.services hl hu, fun hP => hp (h.pool hP)⟩

/-! ### Duties that serve no line -/

theorem freedState_duty (out : Bool) (n : LineNo) : (freedState out).duty ≠ .serving n := by
  cases out <;> simp [freedState, RcvState.duty]

theorem ofPrior_duty (p : Option OutReason) (n : LineNo) : (ofPrior p).duty ≠ .serving n := by
  cases p <;> simp [ofPrior, RcvState.duty]

theorem afterCheck_duty (c : CheckCtx) (p : Option OutReason) (n : LineNo) : (afterCheck c p).duty ≠ .serving n := by
  unfold afterCheck
  split
  · simp [RcvState.duty]
  · exact ofPrior_duty p n

/-- A receiver that is known to be in no service of a line moves to a duty that is none either. -/
theorem setRcv_poolBut {r : RcvState} (h : s.calls.PoolBut x) (hk : ∀ m, s.calls.duty k ≠ .serving m)
    (hc : s.calls.duty k ≠ .checking) (hr : ∀ m, r.duty ≠ .serving m) : (s.setRcv k r).calls.PoolBut x := by
  rw [setRcv_calls]
  exact h.setDuty hk hr fun e => absurd (h.checking k e) hc

theorem setRcv_poolOk {r : RcvState} (h : s.calls.PoolOk) (hk : ∀ m, s.calls.duty k ≠ .serving m)
    (hc : s.calls.duty k ≠ .checking) (hr : ∀ m, r.duty ≠ .serving m) (hf : r.duty ≠ .free) :
    (s.setRcv k r).calls.PoolOk := by
  refine ⟨setRcv_poolBut h.1 hk hc hr, ?_⟩
  rw [setRcv_calls]
  exact h.2.setDuty hf

theorem calls_duty {r : RcvState} (h : s.rcv k = r) : s.calls.duty k = r.duty := congrArg RcvState.duty h

/-! ### Replies to TAP frames -/

/-- A line whose receiver lets it go waits again at the head of its class, and grants follow (R79, R86). -/
theorem relist_ok {e : WaitEntry} {d : Duty} (h : s.calls.PoolOk) (hk : s.calls.duty k = .serving e.line)
    (hd : ∀ m, d ≠ .serving m) (ht : t.calls = (s.calls.setReceiver e.line none).setDuty k d) :
    (grantTest { t with waiting := insertHead e t.waiting }).calls.PoolOk := by
  have hb : t.calls.PoolBut none := ht ▸ h.1.detach hk hd
  refine enlist_ok hb (insertHead_perm _ _) (insertHead_ordered _ _ (sorted_waiting hb)) (ht ▸ h.1.detach_apart hk) ?_
  rw [ht]
  refine (Calls.setReceiver_inCall s.calls e.line e.line none).mpr (h.1.inCall e.line (by simp) (.inl ?_))
  rw [(h.1.serves k e.line).mp hk]
  simp

@[simp] theorem tapTaken_calls (s : State) (k : RcvNo) : (tapTaken s k).calls = s.calls := by
  unfold tapTaken
  split
  · next e tap hr => rw [setRcv_calls]; exact Calls.setDuty_self ((calls_duty hr).trans rfl)
  · rfl

@[simp] theorem guardEnds_calls (s : State) (k : RcvNo) : (guardEnds s k).calls = s.calls := by
  unfold guardEnds
  split
  · next e tap since hr =>
    split
    · rw [startListening_calls]; exact Calls.setDuty_self ((calls_duty hr).trans rfl)
    · rfl
  · rfl

@[simp] theorem tapConnectAnswered_unsupervised (s : State) (k : RcvNo) (ack : Bool) :
    (tapConnectAnswered s k ack).unsupervised = s.unsupervised := by
  unfold tapConnectAnswered
  split
  · split
    · rfl
    · exact (grantTest_unsupervised _).trans (setReceiver_unsupervised _ _ _)
  · split
    · exact placeFrame_unsupervised _ _ _
    · rfl
  · rfl

theorem tapConnectAnswered_pool (h : s.calls.PoolOk) (k : RcvNo) (ack : Bool) :
    (tapConnectAnswered s k ack).calls.PoolOk := by
  unfold tapConnectAnswered
  split
  · next e tap hr =>
    split
    · rw [setRcv_calls, Calls.setDuty_self]
      · exact h
      · exact (calls_duty hr).trans rfl
    · exact relist_ok (d := .away) h (calls_duty hr) (by simp) (by rw [setReceiver_calls, setRcv_calls]; rfl)
  · next tap out hr =>
    have hd := calls_duty hr
    have hset : ∀ r : RcvState, r.duty = .away → (s.setRcv k r).calls.PoolOk := fun r e =>
      setRcv_poolOk h (by simp [hd, RcvState.duty]) (by simp [hd, RcvState.duty]) (by simp [e]) (by simp [e])
    split
    · rw [placeFrame_calls]; exact hset _ rfl
    · exact hset _ rfl
  · exact h

@[simp] theorem tapDisconnectAnswered_unsupervised (s : State) (k : RcvNo) (ack : Bool) :
    (tapDisconnectAnswered s k ack).unsupervised = s.unsupervised := by
  unfold tapDisconnectAnswered
  split
  · split
    · exact grantTest_unsupervised _
    · rfl
  · rfl

theorem tapDisconnectAnswered_pool (h : s.calls.PoolOk) (k : RcvNo) (ack : Bool) :
    (tapDisconnectAnswered s k ack).calls.PoolOk := by
  unfold tapDisconnectAnswered
  split
  · next tap out hr =>
    have hs : ∀ m, s.calls.duty k ≠ .serving m := by simp [calls_duty hr, RcvState.duty]
    have hc : s.calls.duty k ≠ .checking := by simp [calls_duty hr, RcvState.duty]
    split
    · exact grantTest_ok (setRcv_poolBut h.1 hs hc (freedState_duty out))
    · exact setRcv_poolOk h hs hc (by simp [RcvState.duty]) (by simp [RcvState.duty])
  · exact h

theorem strandedOn_duty {l : LinkNo} {r : RcvState} {out : Bool} (h : strandedOn l r = some out) :
    r.duty = .away := by
  cases r <;> simp [strandedOn, RcvState.duty] at h ⊢

@[simp] theorem tapClearAnswered_unsupervised (s : State) (l : LinkNo) (ack : Bool) :
    (tapClearAnswered s l ack).unsupervised = s.unsupervised := by
  refine (grantTest_unsupervised _).trans ?_
  refine List.foldlRecOn (motive := fun t : State => t.unsupervised = s.unsupervised) allRcvs _ rfl fun t ht k _ => ?_
  split
  · exact ht
  · exact ht

theorem tapClearAnswered_pool (h : s.calls.PoolOk) (l : LinkNo) (ack : Bool) :
    (tapClearAnswered s l ack).calls.PoolOk := by
  refine grantTest_ok ?_
  refine List.foldlRecOn (motive := fun t : State => t.calls.PoolBut none) allRcvs _ h.1 fun t ht k _ => ?_
  split
  · next out hr =>
    have hd : t.calls.duty k = .away := strandedOn_duty hr
    refine setRcv_poolBut ht (by simp [hd]) (by simp [hd]) fun m => ?_
    split
    · exact freedState_duty out m
    · simp [RcvState.duty]
  · exact ht

/-! ### The loss of a link -/

@[simp] theorem strandRcv_unsupervised (l : LinkNo) (s : State) (k : RcvNo) :
    (strandRcv l s k).unsupervised = s.unsupervised := by
  unfold strandRcv
  repeat' first
    | simp only [setRcv_unsupervised, setReceiver_unsupervised]
    | split

theorem strandRcv_pool (h : s.calls.PoolOk) (l : LinkNo) (k : RcvNo) : (strandRcv l s k).calls.PoolOk := by
  have hlet : ∀ (e : WaitEntry) (tap : Tap), s.calls.duty k = .serving e.line →
      ((setReceiver s e.line none).setRcv k (.stranded tap false)).calls.PoolOk := fun e tap hd => by
    rw [setRcv_calls, setReceiver_calls]
    exact ⟨h.1.detach hd (by simp [RcvState.duty]),
      h.2.setDuty (c := s.calls.setReceiver e.line none) (by simp [RcvState.duty])⟩
  unfold strandRcv
  split
  · next e tap ph hr =>
    split
    · exact hlet e tap (calls_duty hr)
    · exact h
  · next e tap hr =>
    split
    · exact hlet e tap (calls_duty hr)
    · exact h
  · next tap ph out hr =>
    split
    · exact setRcv_poolOk h (by simp [calls_duty hr, RcvState.duty]) (by simp [calls_duty hr, RcvState.duty])
        (by simp [RcvState.duty]) (by simp [RcvState.duty])
    · exact h
  · exact h

theorem strandAll_sound (h : CallsSound P s) (l : LinkNo) : CallsSound P (strandAll s l) :=
  h.foldl (fun s k hs => hs.pooled (strandRcv_noRcv l s k) (strandRcv_unsupervised l s k) fun hp =>
    strandRcv_pool hp l k) allRcvs

/-! ### LISTEN -/

/-- A tag set on a waiting entry leaves the list's lines and classes. -/
theorem tagged_calls (s : State) (n : LineNo) (t : Option SlotNo) :
    State.calls { s with waiting := s.waiting.map fun e => if e.line = n then { e with tag := t } else e }
      = s.calls := by
  refine Calls.ext rfl rfl rfl ?_ rfl
  show (s.waiting.map _).map WaitEntry.place = s.waiting.map WaitEntry.place
  rw [List.map_map]
  refine List.map_congr_left fun e _ => ?_
  rw [Function.comp_apply]
  split <;> rfl

theorem orderListen_sound (h : CallsSound P s) (k : SlotNo) (o : OrderRead) : CallsSound P (orderListen s k o) := by
  unfold orderListen
  split
  · exact h.of_calls (refuse_calls s k _ _)
  split
  · exact h.of_calls (refuse_calls s k _ _)
  split
  · exact h.of_calls (refuse_calls s k _ _)
  split
  · exact h.of_calls (refuse_calls s k _ _)
  next n _ hv hr _ =>
  extract_lets seconds c s1 e s2
  have h1 : CallsSound P s1 := ⟨h.services, h.pool⟩
  have hin : (s1.calls.line n).inCall := by
    obtain ⟨hact, hheld⟩ := not_not.mp hv
    exact ⟨hact, congrArg isCall hheld⟩
  have hnone : (s1.calls.line n).receiver = none := not_not.mp hr
  clear_value s1
  subst s2
  split
  · refine h1.pooled (fun m => by rw [grantTest_noRcv]; rfl) (by rw [grantTest_unsupervised]; rfl) fun hp => ?_
    exact grantTest_ok ((tagged_calls s1 n (some k)).symm ▸ hp.1)
  · next he =>
    refine h1.pooled (fun m => by rw [grantTest_noRcv]; rfl) (by rw [grantTest_unsupervised]; rfl) fun hp => ?_
    exact enlist_ok hp.1 (insertTail_perm _ _) (insertTail_ordered _ _ (sorted_waiting hp.1))
      ⟨hnone, entryOf_eq_none_iff.mp (by simpa using he)⟩ hin

/-- The lines left on the list by the end of a LISTEN. -/
theorem untag_sublist {t : SlotNo} (l : List WaitEntry) :
    ((l.filterMap fun e =>
        if e.tag = some t then
          (match e.origin with
            | .listen => none
            | .supervision => some { e with tag := none })
        else some e).map WaitEntry.place).Sublist (l.map WaitEntry.place) := by
  induction l with
  | nil => exact List.Sublist.slnil
  | cons e l ih =>
    rw [List.filterMap_cons]
    split
    · exact ih.cons e.place
    · next e' he =>
      have hp : e'.place = e.place := by
        split at he
        · split at he
          · cases he
          · rw [← Option.some.inj he]; rfl
        · rw [Option.some.inj he]
      rw [List.map_cons, hp]
      exact ih.cons_cons e.place

theorem dropListen_pool (h : s.calls.PoolOk) (t : SlotNo) : (dropListen s t).calls.PoolOk := by
  unfold dropListen
  split
  · exact release_pool h.1 _
  · exact ⟨h.1.delist (untag_sublist s.waiting), h.2.delist (untag_sublist s.waiting)⟩

@[simp] theorem dropListen_unsupervised (s : State) (t : SlotNo) :
    (dropListen s t).unsupervised = s.unsupervised := by
  unfold dropListen
  split
  · exact release_unsupervised s _
  · rfl

theorem dropListen_sound (h : CallsSound P s) (t : SlotNo) : CallsSound P (dropListen s t) :=
  h.pooled (dropListen_noRcv s t) (dropListen_unsupervised s t) fun hp => dropListen_pool hp t

theorem expireListen_sound (h : CallsSound P s) (t : SlotNo) : CallsSound P (expireListen s t) := by
  unfold expireListen
  split
  · exact (dropListen_sound h t).of_calls (finishListen_calls _ t _ _)
  · exact (dropListen_sound h t).of_calls (finishListen_calls _ t _ _)

theorem abortListen_sound (h : CallsSound P s) (t : SlotNo) (r : Reason) : CallsSound P (abortListen s t r) :=
  (dropListen_sound h t).of_calls (finishListen_calls _ t _ r)

@[simp] theorem countDigit_calls (s : State) (k : RcvNo) : (countDigit s k).calls = s.calls := by
  unfold countDigit
  split <;> rfl

/-! ### RECEIVER SERVICE -/

theorem serviceOutBusy_pool {e : WaitEntry} (h : s.calls.PoolOk) (hk : s.calls.duty k = .serving e.line) :
    (serviceOutBusy s k e).calls.PoolOk := by
  rcases releaseRcv_calls s k true with ⟨n, d, hn, hd, -, hc⟩ | ⟨hno, -⟩
  · obtain rfl : n = e.line := Duty.serving.inj (hn.symm.trans hk)
    exact relist_ok h hk hd hc
  · exact absurd hk (hno e.line)

theorem serviceOut_pool (h : s.calls.PoolOk) (k : RcvNo) : (serviceOut s k).calls.PoolOk := by
  have haway : ∀ r : RcvState, s.calls.duty k = .free ∨ s.calls.duty k = .away → r.duty = .away →
      (s.setRcv k r).calls.PoolOk := fun r hd hr => by
    refine setRcv_poolOk h (fun m hm => ?_) (fun hm => ?_) (by simp [hr]) (by simp [hr])
    · rcases hd with hd | hd <;> rw [hd] at hm <;> cases hm
    · rcases hd with hd | hd <;> rw [hd] at hm <;> cases hm
  unfold serviceOut
  split
  · next hr => exact haway _ (.inl (calls_duty hr)) rfl
  · next hr => exact serviceOutBusy_pool h (calls_duty hr)
  · next hr => exact serviceOutBusy_pool h (calls_duty hr)
  · next hr => exact haway _ (.inr (calls_duty hr)) rfl
  · next hr => exact haway _ (.inr (calls_duty hr)) rfl
  · exact h
  · exact h

@[simp] theorem serviceOut_unsupervised (s : State) (k : RcvNo) : (serviceOut s k).unsupervised = s.unsupervised := by
  unfold serviceOut serviceOutBusy
  split
  · rfl
  · exact (grantTest_unsupervised _).trans (releaseRcv_unsupervised s k true)
  · exact (grantTest_unsupervised _).trans (releaseRcv_unsupervised s k true)
  all_goals rfl

theorem serviceIn_pool (h : s.calls.PoolOk) (k : RcvNo) : (serviceIn s k).calls.PoolOk := by
  unfold serviceIn
  split
  · next hr =>
    exact grantTest_ok (setRcv_poolBut h.1 (by simp [calls_duty hr, RcvState.duty])
      (by simp [calls_duty hr, RcvState.duty]) (by simp [RcvState.duty]))
  · exact h

@[simp] theorem serviceIn_unsupervised (s : State) (k : RcvNo) : (serviceIn s k).unsupervised = s.unsupervised := by
  unfold serviceIn
  split
  · exact grantTest_unsupervised _
  · rfl

theorem orderReceiverService_sound (h : CallsSound P s) (k : SlotNo) (o : OrderRead) :
    CallsSound P (orderReceiverService s k o) := by
  unfold orderReceiverService
  split
  · dsimp only
    split
    · split
      · exact h.of_calls (refuse_calls s k _ _)
      · exact (h.pooled (serviceOut_noRcv s _) (serviceOut_unsupervised s _) fun hp => serviceOut_pool hp _).of_calls
          (complete_calls _ k _)
    split
    · exact (h.pooled (serviceIn_noRcv s _) (serviceIn_unsupervised s _) fun hp => serviceIn_pool hp _).of_calls
        (complete_calls _ k _)
    · exact h.of_calls (refuse_calls s k _ _)
  · exact h.of_calls (refuse_calls s k _ _)

/-! ### RECEIVER CHECK -/

theorem Calls.PoolBut.check (h : c.PoolBut x) {o : Option RcvNo} (ho : ∀ k, o = some k → c.duty k = .checking) :
    { c with checked := o }.PoolBut x := { h with checking := ho }

@[simp] theorem setCheckChannels_calls (s : State) (c : CheckCtx) : (setCheckChannels s c).calls = s.calls := by
  unfold setCheckChannels
  dsimp only
  split <;> rfl

/-- A check that passes its checks takes a receiver that serves no line (R155, R87). -/
theorem takeCheck_sound (h : CallsSound P s) (k : SlotNo) (o : OrderRead) {j : RcvNo} (digits : List Symbol)
    {prior : Option OutReason} (hj : priorOf (s.rcv j) = some prior) :
    CallsSound P (takeCheck s k o j digits prior) := by
  have hd : s.calls.duty j = .free ∨ s.calls.duty j = .away := by
    show (s.rcv j).duty = _ ∨ (s.rcv j).duty = _
    cases hr : s.rcv j <;> simp [hr, priorOf, RcvState.duty] at hj ⊢
  have hcalls : (takeCheck s k o j digits prior).calls = { s.calls.setDuty j .checking with checked := some j } := by
    refine (setCheckChannels_calls _ _).trans ?_
    exact congrArg (fun c : Calls => { c with checked := some j })
      (startListening_calls (takeFlight s k .check) j (.checking prior))
  refine ⟨?_, fun hP => ?_⟩
  · rw [hcalls]
    exact h.services.of_receivers (fun _ => rfl) rfl
  · obtain ⟨hb, hf⟩ := h.pool hP
    rw [hcalls]
    refine ⟨(hb.setDuty (fun m e => ?_) (by simp) fun _ => rfl).check fun i hi => ?_, hf.setDuty (by simp)⟩
    · rcases hd with hd | hd <;> rw [hd] at e <;> cases e
    · obtain rfl := Option.some.inj hi
      rw [Calls.setDuty_duty, if_pos rfl]

theorem orderReceiverCheck_sound (h : CallsSound P s) (k : SlotNo) (o : OrderRead) :
    CallsSound P (orderReceiverCheck s k o) := by
  unfold orderReceiverCheck
  split
  · dsimp only
    split
    · exact h.of_calls (refuse_calls s k _ _)
    split
    · exact h.of_calls (refuse_calls s k _ _)
    split
    · exact h.of_calls (refuse_calls s k _ _)
    next prior hp =>
    split
    · exact h.of_calls (refuse_calls s k _ _)
    · exact takeCheck_sound h k o _ hp
  · exact h.of_calls (refuse_calls s k _ _)

/-- The end of a check frees its receiver from it, and grants follow (R157). -/
theorem closeCheck_sound (h : CallsSound P s) {c : CheckCtx} (hc : s.calls.checked = some c.rcv) {r : RcvState}
    (hr : ∀ m, r.duty ≠ .serving m) : CallsSound P (closeCheck s c r) := by
  have hgrant : closeCheck s c r
      = grantTest { (silence s).setRcv c.rcv r with gen := { (silence s).gen with ctx := .none } } := rfl
  refine h.pooled (fun m => ?_) ?_ fun hp => ?_
  · rw [hgrant, grantTest_noRcv]; rfl
  · rw [hgrant, grantTest_unsupervised]; rfl
  · rw [hgrant]
    refine grantTest_ok ?_
    have hb : { s.calls with checked := none }.PoolBut none := hp.1.check fun _ e => nomatch e
    have hcalls : State.calls { (silence s).setRcv c.rcv r with gen := { (silence s).gen with ctx := .none } }
        = { s.calls with checked := none }.setDuty c.rcv r.duty :=
      congrArg (fun c : Calls => { c with checked := none }) (setRcv_calls (silence s) c.rcv r)
    rw [hcalls]
    refine hb.setDuty (fun m e => ?_) hr fun e => nomatch e
    have := hp.1.checking c.rcv hc
    rw [show s.calls.duty c.rcv = _ from e] at this
    cases this

theorem finishCheck_sound (h : CallsSound P s) {c : CheckCtx} (hc : s.calls.checked = some c.rcv) :
    CallsSound P (finishCheck s c) := by
  refine closeCheck_sound (h.of_calls (complete_calls s _ _)) ?_ (afterCheck_duty c _)
  rw [complete_calls]
  exact hc

theorem abortCheck_sound (h : CallsSound P s) (r : Reason) : CallsSound P (abortCheck s r) := by
  unfold abortCheck
  split
  · next c hg =>
    refine closeCheck_sound (h.of_calls (finish_calls s _ _ _ _)) ?_ (ofPrior_duty _)
    rw [finish_calls]
    exact checked_eq_some.mpr ⟨c, hg, rfl⟩
  · exact h

theorem checkBlock_sound (h : CallsSound P s) {c : CheckCtx} (hc : s.calls.checked = some c.rcv)
    (accepted : Option Symbol) : CallsSound P (checkBlock s c accepted) := by
  unfold checkBlock
  extract_lets c1 c2 g s1
  have hrcv : c2.rcv = c.rcv := by
    show c1.rcv = c.rcv
    subst c1
    cases accepted with
    | none => rfl
    | some y =>
      show (recordDigit c y).rcv = c.rcv
      unfold recordDigit
      dsimp only
      split <;> rfl
  split
  · exact finishCheck_sound h (hrcv ▸ hc)
  · have h1 : s1.calls = s.calls := calls_of_frame rfl rfl rfl rfl ((congrArg some hrcv).trans hc.symm)
    exact h.of_calls ((setCheckChannels_calls s1 c2).trans h1)

end Sys2Proof.Machine
end

section
/-! SUPPORT. Supervision keeps services and pool sound: a line that leaves a call surrenders what it has of the pool
(R49), and what else supervision does leaves a line of the pool in its call. -/

namespace Sys2Proof.Machine

variable {s t : State} {n : LineNo} {P : Prop}

/-! ### Updates outside the view -/

theorem call_of_calls (h : t.calls = s.calls) (n : LineNo) : (t.line n).call = (s.line n).call :=
  congrFun (congrArg Calls.line h) n

@[simp] theorem faultEvent_calls (s : State) (n : LineNo) (kind : Cls) : (faultEvent s n kind).calls = s.calls :=
  modLine_calls_same s n rfl

@[simp] theorem restoreFault_calls (s : State) (n : LineNo) : (restoreFault s n).calls = s.calls :=
  modLine_calls_same s n rfl

@[simp] theorem restoreMinor_calls (s : State) (n : LineNo) : (restoreMinor s n).calls = s.calls :=
  modLine_calls_same s n rfl

@[simp] theorem updatePeak_calls (s : State) (n : LineNo) : (updatePeak s n).calls = s.calls :=
  modLine_calls_same s n rfl

@[simp] theorem placeTrim_calls (s : State) (n : LineNo) (range : TrimRange) (code : TrimCode) (o : TrimOwner) :
    (placeTrim s n range code o).calls = s.calls := placeFrame_calls s _ _

@[simp] theorem placeRelay_calls (s : State) (n : LineNo) (cfg : RelayCfg) (o : RelayOwner) :
    (placeRelay s n cfg o).calls = s.calls := placeFrame_calls s _ _

@[simp] theorem unschedule_calls (s : State) (n : LineNo) : (unschedule s n).calls = s.calls :=
  modLink_calls_same s _ rfl

theorem pushEntry_call (r : LineRec) (sym : Symbol) (src : Source) (p : Nat) (t : Word) :
    (pushEntry r sym src p t).call = r.call := by
  unfold pushEntry
  split <;> rfl

@[simp] theorem queueEntry_calls (s : State) (n : LineNo) (sym : Symbol) (src : Source) (p : Nat) :
    (queueEntry s n sym src p).calls = s.calls :=
  modLine_calls_same s n (pushEntry_call _ sym src p s.time)

theorem setFull_calls (s : State) (n : LineNo) :
    (setFull s n).calls = s.calls.setLine n { (s.line n).call with rate := .full } :=
  modLine_calls s n _

@[simp] theorem silence_calls (s : State) : (silence s).calls = s.calls := rfl

@[simp] theorem endTrace_calls (s : State) (o : OrderOutcome) (r : Reason) (code : Nat) :
    (endTrace s o r code).calls = s.calls := by
  unfold endTrace
  split
  · next c hg =>
    split
    · rfl
    · extract_lets s1 s2 s3
      have h3 : s3.calls = s.calls := (placeRelay_calls s2 _ _ _).trans (finish_calls s1 _ _ _ _)
      rw [← h3]
      refine calls_of_frame rfl rfl rfl rfl ?_
      have : s3.gen.ctx.checked = s.gen.ctx.checked := congrArg Calls.checked h3
      rw [this, hg]
      rfl
  · rfl

@[simp] theorem abortTraceOn_calls (s : State) (n : LineNo) (r : Reason) : (abortTraceOn s n r).calls = s.calls := by
  unfold abortTraceOn
  split
  · exact endTrace_calls s _ _ _
  · rfl

/-! ### A line moves -/

/-- A line whose service and supervision go over to an ACTIVE state stays in agreement. -/
theorem LineCall.Ok.move {r : LineCall} (h : r.Ok) (hv : r.service = .active) {y : Sup} {v : Rate}
    (hy : y ≠ .none ∧ y ≠ .suspended) (hq : v = .quiet → y = .onHook) : { r with sup := y, rate := v }.Ok := by
  refine ⟨?_, fun e => ⟨hv, hq e⟩, fun e => h.calibrating e⟩
  show match r.service with | .parked => _ | .calibrating => _ | .testing => _ | .active => _
  rw [hv]
  exact hy

/-- A line that is not in a call has nothing of the pool. -/
theorem Calls.PoolOk.apart {c : Calls} (h : c.PoolOk) (hn : ¬(c.line n).inCall) : c.Apart n := by
  refine ⟨?_, fun hw => hn (h.1.inCall n (by simp) (.inr hw))⟩
  by_contra hr
  exact hn (h.1.inCall n (by simp) (.inl hr))

/-- No test holds a line of another service. -/
theorem CallsSound.not_tested (h : CallsSound P s) (hv : (s.line n).service ≠ .testing) (l : LinkNo) :
    s.calls.tested l ≠ some n := h.services.not_tested hv l

variable {r : LineCall}

/-- A line's record goes over to one that agrees and is in a call if the line was. -/
theorem CallsSound.steady (h : CallsSound P s) (hu : t.calls = s.calls.setLine n r) (hr : r.Ok)
    (hrc : r.receiver = (s.line n).receiver) (ht : ∀ l, s.calls.tested l = some n → r.service = .testing)
    (hin : (s.calls.line n).inCall → r.inCall) : CallsSound P t := by
  refine ⟨hu ▸ h.services.setLine hr ht, fun hP => ?_⟩
  have hp := h.pool hP
  rw [hu]
  refine ⟨(hp.1.setLine hrc).close ?_, hp.2⟩
  by_cases hc : (s.calls.line n).inCall
  · exact .inr (by rw [Calls.setLine_line]; exact hin hc)
  · obtain ⟨ha, hw⟩ := hp.apart hc
    exact .inl ⟨by rw [Calls.setLine_line, hrc]; exact ha, hw⟩

/-- A line's record goes over to one that agrees; if it was in a call it surrenders what it has of the pool (R49). -/
theorem CallsSound.leave (h : CallsSound P s) (hu : t.calls = s.calls.setLine n r) (hr : r.Ok)
    (hrc : r.receiver = (s.line n).receiver) (ht : ∀ l, s.calls.tested l = some n → r.service = .testing) :
    CallsSound P (leaveCall t n (s.line n).sup) := by
  refine ⟨servicesOk_of_noRcv (hu ▸ h.services.setLine hr ht) (leaveCall_noRcv t n _)
    (leaveCall_unsupervised t n _), fun hP => ?_⟩
  have hp := h.pool hP
  have hb : t.calls.PoolBut (some n) := hu ▸ hp.1.setLine hrc
  have hf : t.calls.NoneFree := hu ▸ hp.2
  unfold leaveCall
  split
  · exact surrender_pool hb hf
  · next hc =>
    obtain ⟨ha, hw⟩ := hp.apart fun hin => hc hin.2
    refine ⟨hb.close (.inl ?_), hf⟩
    rw [hu]
    exact ⟨by rw [Calls.setLine_line, hrc]; exact ha, hw⟩

/-- An ACTIVE line moves to another state, its rate full or the state ON_HOOK; if it was in a call it surrenders what
it has of the pool. -/
theorem CallsSound.leaveActive (h : CallsSound P s) (hv : (s.line n).service = .active) {y : Sup} {v : Rate}
    (hu : t.calls = s.calls.setLine n { (s.line n).call with sup := y, rate := v })
    (hy : y ≠ .none ∧ y ≠ .suspended) (hq : v = .quiet → y = .onHook) :
    CallsSound P (leaveCall t n (s.line n).sup) :=
  h.leave hu ((h.services.line n).move hv hy hq) rfl fun l hl => absurd hl (h.not_tested (by rw [hv]; decide) l)

theorem isCall_ne {y : Sup} (h : isCall y = true) : y ≠ .none ∧ y ≠ .suspended ∧ y ≠ .onHook := by
  cases y <;> simp [isCall] at h ⊢

/-- An ACTIVE line at full rate moves to a call state. -/
theorem CallsSound.enterCall (h : CallsSound P s) (hv : (s.line n).service = .active) {y : Sup}
    (hu : t.calls = s.calls.setLine n { (s.line n).call with sup := y, rate := .full }) (hy : isCall y = true) :
    CallsSound P t := by
  obtain ⟨h1, h2, -⟩ := isCall_ne hy
  exact h.steady hu ((h.services.line n).move hv ⟨h1, h2⟩ fun e => nomatch e) rfl
    (fun l hl => absurd hl (h.not_tested (by rw [hv]; decide) l))
    fun _ => ⟨hv, hy⟩

/-- An ACTIVE line that is not ON_HOOK is at full rate. -/
theorem CallsSound.full (h : CallsSound P s) (hs : (s.line n).sup ≠ .onHook) : (s.line n).rate = .full :=
  (h.services.line n).full hs

/-- An ACTIVE line that is not ON_HOOK moves to a call state. -/
theorem CallsSound.moveCall (h : CallsSound P s) (hv : (s.line n).service = .active) (hs : (s.line n).sup ≠ .onHook)
    {f : LineRec → LineRec} {y : Sup} (hf : (f (s.line n)).call = { (s.line n).call with sup := y })
    (hy : isCall y = true) : CallsSound P (s.modLine n f) := by
  refine h.enterCall hv ?_ hy
  rw [modLine_calls, hf, ← h.full hs]
  rfl

theorem setFull_sound (h : CallsSound P s) (n : LineNo) : CallsSound P (setFull s n) := by
  have ho := h.services.line n
  refine h.steady (setFull_calls s n) ⟨ho.agrees, fun e => (nomatch e), ho.calibrating⟩ rfl
    (fun l hl => (h.services.tested l n hl).2) fun hin => hin

theorem join_sound (h : CallsSound P s) (hin : (s.calls.line n).inCall) : CallsSound P (join s n) :=
  h.pooled (join_noRcv s n) (join_unsupervised s n) fun hp => join_pool hp hin

theorem policyRelease_sound (h : CallsSound P s) (n : LineNo) : CallsSound P (policyRelease s n) :=
  h.pooled (policyRelease_noRcv s n) (policyRelease_unsupervised s n) fun hp => policyRelease_pool hp n

/-! ### Digits -/

/-- A line's record after the completion of a pulse digit, its receiver apart (R37, R39). -/
def LineRec.digitDone (num : Numbering) (t : Word) (r : LineRec) : LineRec :=
  { pushEntry r (pulseSymbol num r.pulses) .pulse r.pulses t with pulses := 0, dialEnd := 0, pulseSeen := true }

theorem completeDigit_line (s : State) (n : LineNo) :
    ((completeDigit s n).line n).noRcv = ((s.line n).digitDone (s.conv n).numbering s.time).noRcv := by
  have hp : ∀ r : LineRec, ∀ y src p, (pushEntry r y src p s.time).pulseSeen = r.pulseSeen := fun r y src p => by
    unfold pushEntry; split <;> rfl
  unfold completeDigit queueEntry
  dsimp only
  split
  · next hs =>
    simp only [State.line_modLine_same] at hs ⊢
    unfold LineRec.digitDone
    rw [← hs, hp]
  · split
    · rw [policyRelease_noRcv]
      simp only [State.line_modLine_same]
      rfl
    · simp only [State.line_modLine_same]
      rfl

theorem completeDigit_sound (h : CallsSound P s) (n : LineNo) : CallsSound P (completeDigit s n) := by
  unfold completeDigit
  extract_lets r p s1 s2 s3
  have h2 : CallsSound P s2 := h.of_calls ((modLine_calls_same s1 n rfl).trans (queueEntry_calls s n _ _ _))
  have h3 : CallsSound P s3 := h2.of_calls (modLine_calls_same s2 n rfl)
  split
  · exact h2
  split
  · exact policyRelease_sound h3 n
  · exact h3

/-- The completion of a digit leaves the line's service and supervision. -/
theorem completeDigit_standing (s : State) (n : LineNo) :
    ((completeDigit s n).line n).service = (s.line n).service ∧ ((completeDigit s n).line n).sup = (s.line n).sup := by
  have h := completeDigit_line s n
  have hc := pushEntry_call (s.line n) (pulseSymbol (s.conv n).numbering (s.line n).pulses) .pulse (s.line n).pulses
    s.time
  exact ⟨(congrArg LineRec.service h).trans (congrArg LineCall.service hc),
    (congrArg LineRec.sup h).trans (congrArg LineCall.sup hc)⟩

/-! ### Entries to states -/

theorem enterOnHook_sound (h : CallsSound P s) (hv : (s.line n).service = .active) :
    CallsSound P (enterOnHook s n) := by
  unfold enterOnHook
  extract_lets was eco s1 s2
  have h1 : s1.calls = s.calls.setLine n { (s.line n).call with
      sup := .onHook, rate := if eco && !quietHeld (s.line n) then .quiet else .full } := modLine_calls s n _
  have h2 : s2.calls = s1.calls := by
    subst s2
    split
    · exact faultEvent_calls s1 n _
    · rfl
  exact h.leaveActive hv (h2.trans h1) (by decide) fun _ => rfl

theorem enterLockout_sound (h : CallsSound P s) (hv : (s.line n).service = .active)
    (hs : (s.line n).sup ≠ .onHook) : CallsSound P (enterLockout s n) := by
  refine h.leaveActive hv (v := .full) ?_ (y := .lockout) (by decide) fun e => nomatch e
  rw [modLine_calls, ← h.full hs]
  rfl

theorem enterFault_sound (h : CallsSound P s) (hv : (s.line n).service = .active) (kind : Cls) :
    CallsSound P (enterFault s n kind) := by
  refine h.leaveActive hv (v := .full) ?_ (y := .fault) (by decide) fun e => nomatch e
  rw [faultEvent_calls, setFull_calls, modLine_calls, Calls.setLine_setLine, State.line_modLine_same]
  rfl

/-- An entry to SETTLING, or to UNSENSED in its place: the line in that state at full rate, and out of its call. -/
theorem enterUnsensed_eq (s : State) (n : LineNo) :
    ∃ t : State, enterUnsensed s n = leaveCall t n (s.line n).sup
      ∧ t.calls = s.calls.setLine n { (s.line n).call with sup := .unsensed, rate := .full } := by
  refine ⟨_, rfl, ?_⟩
  rw [restoreFault_calls, setFull_calls, modLine_calls, Calls.setLine_setLine, State.line_modLine_same]
  rfl

theorem enterSettling_eq (s : State) (n : LineNo) :
    ∃ (t : State) (y : Sup), (y = .settling ∨ y = .unsensed) ∧ enterSettling s n = leaveCall t n (s.line n).sup
      ∧ t.calls = s.calls.setLine n { (s.line n).call with sup := y, rate := .full } := by
  unfold enterSettling
  split
  · refine ⟨_, .settling, .inl rfl, rfl, ?_⟩
    rw [restoreFault_calls, setFull_calls, modLine_calls, Calls.setLine_setLine, State.line_modLine_same]
    rfl
  · obtain ⟨t, he, hc⟩ := enterUnsensed_eq s n
    exact ⟨t, .unsensed, .inr rfl, he, hc⟩

theorem enterUnsensed_sound (h : CallsSound P s) (hv : (s.line n).service = .active) :
    CallsSound P (enterUnsensed s n) := by
  obtain ⟨t, he, hc⟩ := enterUnsensed_eq s n
  rw [he]
  exact h.leaveActive hv hc (by decide) fun e => nomatch e

theorem enterSettling_sound (h : CallsSound P s) (hv : (s.line n).service = .active) :
    CallsSound P (enterSettling s n) := by
  obtain ⟨t, y, hy, he, hc⟩ := enterSettling_eq s n
  rw [he]
  refine h.leaveActive hv hc ?_ fun e => nomatch e
  rcases hy with rfl | rfl <;> decide

/-- A line that no test holds is made ACTIVE and enters SETTLING: from PARKED, or from work that has ended. -/
theorem activate_sound (h : CallsSound P s) (ht : ∀ l, s.calls.tested l ≠ some n) {u : State}
    (hu : u.calls = s.calls.setLine n { (s.line n).call with service := .active })
    (hc : (s.line n).calCtx.isSome = false) : CallsSound P (enterSettling u n) := by
  obtain ⟨t, y, hy, he, hcalls⟩ := enterSettling_eq u n
  have hline : (u.line n).call = { (s.line n).call with service := .active } := by
    rw [← State.calls_line, hu, Calls.setLine_line]
  have hsup : (u.line n).sup = (s.line n).sup := congrArg LineCall.sup hline
  rw [he, hsup]
  refine h.leave (r := { (s.line n).call with service := .active, sup := y, rate := .full }) ?_ ⟨?_, ?_, ?_⟩ rfl
    fun l hl => absurd hl (ht l)
  · rw [hcalls, hu, Calls.setLine_setLine, hline]
  · show y ≠ .none ∧ y ≠ .suspended
    rcases hy with rfl | rfl <;> decide
  · exact fun e => nomatch e
  · intro e
    exact absurd (hc.symm.trans e) (by decide)

/-- A line is parked: NONE, at full rate, and out of its call. -/
theorem LineCall.parked_ok (r : LineCall) (h : r.calibrating = false) :
    { r with service := .parked, sup := .none, rate := .full }.Ok :=
  ⟨rfl, fun e => (nomatch e), fun e => absurd (h.symm.trans e) (by decide)⟩

theorem not_calibrating (h : CallsSound P s) (hv : (s.line n).service ≠ .calibrating) :
    (s.line n).calCtx.isSome = false := by
  by_contra hc
  exact hv ((h.services.line n).calibrating (Bool.eq_true_of_not_eq_false hc))

theorem parkLine_sound (h : CallsSound P s) (hv : (s.line n).service = .active) : CallsSound P (parkLine s n) := by
  refine h.leave (r := { (s.line n).call with service := .parked, sup := .none, rate := .full }) ?_
    (LineCall.parked_ok _ (not_calibrating h (by rw [hv]; decide))) rfl
    fun l hl => absurd hl (h.not_tested (by rw [hv]; decide) l)
  rw [unschedule_calls, restoreFault_calls, setFull_calls, modLine_calls, Calls.setLine_setLine,
    State.line_modLine_same]
  rfl

/-! ### Makes and breaks -/

theorem seize_sound (h : CallsSound P s) (hv : (s.line n).service = .active) (a : Nat) :
    CallsSound P (seize s n a) := by
  unfold seize
  extract_lets s1 s2
  have hc : s2.calls = s.calls.setLine n { (s.line n).call with sup := .seized, rate := .full } := by
    rw [setFull_calls, modLine_calls, Calls.setLine_setLine, State.line_modLine_same]
    rfl
  have h2 : CallsSound P s2 := h.enterCall hv hc rfl
  split
  · refine join_sound h2 ?_
    rw [hc, Calls.setLine_line]
    exact ⟨hv, rfl⟩
  · exact h2

theorem flash_sound (h : CallsSound P s) (hv : (s.line n).service = .active) (hs : (s.line n).sup ≠ .onHook) :
    CallsSound P (flash s n) := by
  unfold flash
  extract_lets s1 s2
  have hq : (s1.line n).call = (s.line n).call := call_of_calls (queueEntry_calls s n _ _ _) n
  have hc : s2.calls = s.calls.setLine n { (s.line n).call with sup := .seized, rate := .full } := by
    have : s2.calls = s1.calls.setLine n { (s1.line n).call with sup := .seized } := modLine_calls s1 n _
    rw [this, hq, queueEntry_calls, ← h.full hs]
    rfl
  have h2 : CallsSound P s2 := h.enterCall hv hc rfl
  split
  · refine join_sound h2 ?_
    rw [hc, Calls.setLine_line]
    exact ⟨hv, rfl⟩
  · exact h2

theorem isCall_returnState (r : LineRec) : isCall (returnState r) = true := by
  unfold returnState
  cases r.ret with
  | none => rfl
  | some y => cases y <;> rfl

theorem endBreak_sound (h : CallsSound P s) (hv : (s.line n).service = .active) (hs : (s.line n).sup ≠ .onHook) :
    CallsSound P (endBreak s n) :=
  h.moveCall hv hs (y := returnState (s.line n)) rfl (isCall_returnState _)

theorem judgeMake_sound (h : CallsSound P s) (hv : (s.line n).service = .active) (hs : (s.line n).sup ≠ .onHook)
    (m : Nat) : CallsSound P (judgeMake s n m) := by
  unfold judgeMake
  extract_lets p d s1 s2
  have hc1 : s1.calls = s.calls := modLine_calls_same s n rfl
  have h1 : CallsSound P s1 := h.of_calls hc1
  have hl1 := call_of_calls hc1 n
  have h2 : CallsSound P s2 ∧ (s2.line n).service = .active ∧ (s2.line n).sup ≠ .onHook := by
    have hv1 : (s1.line n).service = .active := (congrArg LineCall.service hl1).trans hv
    have hs1 : (s1.line n).sup ≠ .onHook := fun e => hs ((congrArg LineCall.sup hl1).symm.trans e)
    subst s2
    split
    · obtain ⟨ev, es⟩ := completeDigit_standing s1 n
      exact ⟨completeDigit_sound h1 n, ev.trans hv1, fun e => hs1 (es.symm.trans e)⟩
    · exact ⟨h1, hv1, hs1⟩
  clear_value s2
  obtain ⟨h2, hv2, hs2⟩ := h2
  split
  · exact endBreak_sound h2 hv2 hs2
  split
  · exact h2.moveCall hv2 hs2 (y := .dialling) rfl rfl
  split
  · exact flash_sound h2 hv2 hs2
  · have hq := call_of_calls (queueEntry_calls s2 n .invalid .hook 0) n
    exact endBreak_sound (h2.of_calls (queueEntry_calls s2 n _ _ _)) ((congrArg LineCall.service hq).trans hv2)
      fun e => hs2 ((congrArg LineCall.sup hq).symm.trans e)

theorem acceptInCall_sound (h : CallsSound P s) (hv : (s.line n).service = .active) (hs : (s.line n).sup ≠ .onHook)
    (from_ : Ret) (c : Cls) (a : Nat) : CallsSound P (acceptInCall s n from_ c a) := by
  unfold acceptInCall
  split
  · exact h.moveCall hv hs (y := .brk) rfl rfl
  split
  · exact enterFault_sound h hv c
  · exact h

/-! ### The three stages of a scan -/

theorem transition_sound (h : CallsSound P s) (hv : (s.line n).service = .active) (c : Cls) (a : Nat) :
    CallsSound P (transition s n c a) := by
  have hres : CallsSound P (restoreFault s n) := h.of_calls (restoreFault_calls s n)
  have hrv : ((restoreFault s n).line n).service = .active := by
    rw [restoreFault, State.line_modLine_same]; exact hv
  have hne : ∀ y, (s.line n).sup = y → y ≠ .onHook → (s.line n).sup ≠ .onHook := fun y e hy => e ▸ hy
  unfold transition
  split
  case h_1 hs =>
    split
    · exact enterOnHook_sound h hv
    split
    · exact h.moveCall hv (hne _ hs (by decide)) (y := .held) rfl rfl
    split
    · exact enterFault_sound h hv c
    · exact h
  case h_2 hs =>
    split
    · exact seize_sound h hv a
    split
    · exact h.of_calls (faultEvent_calls s n _)
    split
    · exact enterFault_sound h hv c
    · exact h
  case h_3 hs => exact acceptInCall_sound h hv (hne _ hs (by decide)) _ c a
  case h_4 hs => exact acceptInCall_sound h hv (hne _ hs (by decide)) _ c a
  case h_5 hs => exact acceptInCall_sound h hv (hne _ hs (by decide)) _ c a
  case h_6 hs =>
    split
    · exact judgeMake_sound h hv (hne _ hs (by decide)) a
    split
    · exact enterFault_sound h hv c
    · exact h
  case h_7 hs =>
    split
    · exact h.of_calls (modLine_calls_same s n rfl)
    split
    · exact enterFault_sound h hv c
    · exact h
  case h_8 hs =>
    split
    · exact enterFault_sound h hv c
    split
    · exact enterOnHook_sound hres hrv
    split
    · refine enterLockout_sound hres hrv ?_
      rw [restoreFault, State.line_modLine_same]
      exact hne _ hs (by decide)
    · exact h
  all_goals exact h

theorem takeAcceptance_sound (h : CallsSound P s) (hv : (s.line n).service = .active) (old c : Cls) (a : Nat) :
    CallsSound P (takeAcceptance s n old c a) := by
  unfold takeAcceptance
  extract_lets s1
  have hc1 : s1.calls = s.calls := by
    subst s1
    split
    · exact restoreMinor_calls s n
    · rfl
  have h1 : CallsSound P s1 := h.of_calls hc1
  have hv1 : (s1.line n).service = .active := (congrArg LineCall.service (call_of_calls hc1 n)).trans hv
  clear_value s1
  split
  · unfold lockoutOpen
    split
    · exact h1.of_calls (modLine_calls_same s1 n rfl)
    · exact h1
  · exact transition_sound h1 hv1 c a

theorem dialEndTimesOut_sound (h : CallsSound P s) (hv : (s.line n).service = .active)
    (hs : (s.line n).sup ≠ .onHook) : CallsSound P (dialEndTimesOut s n) := by
  unfold dialEndTimesOut
  extract_lets s1 s2
  have h1 : CallsSound P s1 ∧ (s1.line n).service = .active ∧ (s1.line n).sup ≠ .onHook := by
    subst s1
    split
    · obtain ⟨ev, es⟩ := completeDigit_standing s n
      exact ⟨completeDigit_sound h n, ev.trans hv, fun e => hs (es.symm.trans e)⟩
    · exact ⟨h, hv, hs⟩
  have h2 : CallsSound P s2 := h1.1.moveCall h1.2.1 h1.2.2 (y := .held) rfl rfl
  split
  · exact policyRelease_sound h2 n
  · exact h2

/-- A completion that may be due before a limit is tested leaves the line as it stands. -/
theorem digitFirst_sound (h : CallsSound P s) (n : LineNo) (due : Bool) :
    CallsSound P (if due then completeDigit s n else s)
      ∧ ((if due then completeDigit s n else s).line n).service = (s.line n).service
      ∧ ((if due then completeDigit s n else s).line n).sup = (s.line n).sup := by
  split
  · exact ⟨completeDigit_sound h n, completeDigit_standing s n⟩
  · exact ⟨h, rfl, rfl⟩

theorem testLimits_sound (h : CallsSound P s) (hv : (s.line n).service = .active) :
    CallsSound P (testLimits s n) := by
  unfold testLimits
  split
  case h_1 hs =>
    obtain ⟨h1, ev, es⟩ := digitFirst_sound h n (longBreakDue s n)
    unfold limitsInBreak
    extract_lets s1
    split
    · exact enterOnHook_sound h1 (ev.trans hv)
    split
    · exact enterLockout_sound h1 (ev.trans hv) (by rw [es, hs]; decide)
    · exact h1
  case h_2 hs =>
    obtain ⟨h1, ev, es⟩ := digitFirst_sound h n (interdigitDue s n)
    unfold limitsInDialling
    extract_lets s1
    split
    · exact dialEndTimesOut_sound h1 (ev.trans hv) (by rw [es, hs]; decide)
    · exact h1
  case h_3 hs =>
    split
    · exact enterLockout_sound h hv (by rw [hs]; decide)
    · exact h
  case h_4 hs =>
    split
    · exact enterOnHook_sound h hv
    · exact h
  all_goals exact h

theorem toneDigit_sound (h : CallsSound P s) (n : LineNo) (sym : Symbol) : CallsSound P (toneDigit s n sym) := by
  unfold toneDigit
  split
  · next hc =>
    have hq := call_of_calls (queueEntry_calls s n sym .tone 0) n
    have h1 : CallsSound P (queueEntry s n sym .tone 0) := h.of_calls (queueEntry_calls s n sym .tone 0)
    have hv : ((queueEntry s n sym .tone 0).line n).service = .active :=
      (congrArg LineCall.service hq).trans ((h.services.line n).inCall hc).1
    have hsup : ((queueEntry s n sym .tone 0).line n).sup = (s.line n).sup := congrArg LineCall.sup hq
    have hs : ((queueEntry s n sym .tone 0).line n).sup ≠ .onHook := hsup ▸ (isCall_ne hc).2.2
    refine h1.moveCall hv hs
      (y := if ((queueEntry s n sym .tone 0).line n).sup = .brk then .brk else .dialling) ?_ ?_
    · split
      · next e => rw [← e]; rfl
      · rfl
    · split <;> rfl
  · exact h

end Sys2Proof.Machine
end

section
/-! SUPPORT. Services and pool stay sound in scans, insulation tests, calibrations and traces. -/

namespace Sys2Proof.Machine

variable {s t : State} {n : LineNo} {P : Prop}

/-! ### Measurement -/

theorem updateCandidate_call (raw : Cls) (r : LineRec) : (updateCandidate raw r).call = r.call := by
  unfold updateCandidate
  split
  · rfl
  split
  · rfl
  split <;> rfl

theorem advanceCounters_call (acc : Cls) (r : LineRec) : (advanceCounters acc r).call = r.call := by
  unfold advanceCounters
  dsimp only
  split
  case h_5 => split <;> rfl
  all_goals rfl

/-- The quiet counter makes a line QUIET only in ON_HOOK (R144). -/
theorem quietScan_sound (h : CallsSound P s) (hv : (s.line n).service = .active) (raw : Cls) :
    CallsSound P (quietScan s n raw) := by
  unfold quietScan
  split
  · exact setFull_sound h n
  split
  · next hq =>
    have hs : (s.line n).sup = .onHook := by
      simp only [quietRaised, Bool.and_eq_true, decide_eq_true_eq] at hq
      exact hq.1.1.1
    have ho := h.services.line n
    refine h.steady (modLine_calls s n _) ?_ rfl (fun l hl => (h.services.tested l n hl).2) fun hin => hin
    exact ⟨ho.agrees, fun _ => ⟨hv, hs⟩, ho.calibrating⟩
  · exact h

@[simp] theorem surveyScan_calls (s : State) (n : LineNo) (out : ScanOutcome) :
    (surveyScan s n out).calls = s.calls := by
  unfold surveyScan completeSurvey
  split
  · dsimp only
    split
    · exact (modLine_calls_same _ n rfl).trans (endOrder_calls s _ _)
    · exact modLine_calls_same s n rfl
  · rfl

@[simp] theorem abortSurvey_calls (s : State) (n : LineNo) (r : Reason) : (abortSurvey s n r).calls = s.calls := by
  unfold abortSurvey
  split
  · exact (modLine_calls_same _ n rfl).trans (finish_calls s _ _ _ _)
  · rfl

theorem orderSurvey_sound (h : CallsSound P s) (k : SlotNo) (o : OrderRead) : CallsSound P (orderSurvey s k o) := by
  unfold orderSurvey
  split
  · exact h.of_calls (refuse_calls s k _ _)
  dsimp only
  split
  · exact h.of_calls (refuse_calls s k _ _)
  split
  · exact h.of_calls (refuse_calls s k _ _)
  split
  · exact h.of_calls (refuse_calls s k _ _)
  · refine setFull_sound (h.of_calls ?_) _
    exact modLine_calls_same (takeFlight s k _) _ rfl

theorem scanMeasure_sound (h : CallsSound P s) (hv : (s.line n).service = .active) (x : Sample) :
    CallsSound P (scanMeasure s n x) := by
  unfold scanMeasure
  extract_lets p s1 raw s2 s3
  have hc : s3.calls = s.calls :=
    (updatePeak_calls s2 n).trans ((modLine_calls_same s1 n (updateCandidate_call raw _)).trans
      (modLine_calls_same s n rfl))
  exact quietScan_sound (h.of_calls hc) ((congrArg LineCall.service (call_of_calls hc n)).trans hv) raw

/-- A scan leaves its line's service. -/
theorem scanMeasure_service (s : State) (n : LineNo) (x : Sample) :
    ((scanMeasure s n x).line n).service = (s.line n).service := by
  have h := congrArg LineRec.service (scanMeasure_line s n x)
  refine Eq.trans h ?_
  exact congrArg LineCall.service (updateCandidate_call _ (filterStep (s.conv n).shift s.time x (s.line n)))

theorem scanAccept_sound (h : CallsSound P s) (hv : (s.line n).service = .active) : CallsSound P (scanAccept s n) := by
  unfold scanAccept
  extract_lets old s1
  have hc1 : s1.calls = s.calls := modLine_calls_same s n (advanceCounters_call old _)
  split
  next c _ =>
    extract_lets s2 s3
    have hc2 : s2.calls = s.calls := (modLine_calls_same s1 n (f := acceptClass c) rfl).trans hc1
    have hc3 : s3.calls = s.calls := by
      subst s3
      split
      · exact (abortTraceOn_calls s2 n _).trans hc2
      · exact hc2
    exact takeAcceptance_sound (h.of_calls hc3) ((congrArg LineCall.service (call_of_calls hc3 n)).trans hv) old c _
  · exact h.of_calls hc1

theorem scanFront_service (s : State) (n : LineNo) (x : Sample) :
    ((scanFront s n x).line n).service = (s.line n).service := by
  have h := congrArg LineRec.service (scanAccept_line (scanMeasure s n x) n)
  have ha := congrArg LineRec.service (acceptDue_unclassified ((scanMeasure s n x).conv n) ((scanMeasure s n x).line n))
  exact Eq.trans (b := (acceptDue ((scanMeasure s n x).conv n) ((scanMeasure s n x).line n)).service) h
    (Eq.trans (b := ((scanMeasure s n x).line n).service) ha (scanMeasure_service s n x))

theorem activeScan_sound (h : CallsSound P s) (hv : (s.line n).service = .active) (x : Sample) :
    CallsSound P (activeScan s n x) := by
  have h1 := scanMeasure_sound h hv x
  have h2 : CallsSound P (scanFront s n x) := scanAccept_sound h1 ((scanMeasure_service s n x).trans hv)
  exact (testLimits_sound h2 ((scanFront_service s n x).trans hv)).of_calls (surveyScan_calls _ n _)

/-! ### Work that ends -/

/-- A line in a test or a calibration is SUSPENDED. -/
theorem CallsSound.suspended (h : CallsSound P s)
    (hv : (s.line n).service = .testing ∨ (s.line n).service = .calibrating) :
    (s.line n).sup = .suspended := by
  have ha : match (s.line n).service with
    | .parked => (s.line n).sup = .none
    | .calibrating => (s.line n).sup = .suspended
    | .testing => (s.line n).sup = .suspended
    | .active => (s.line n).sup ≠ .none ∧ (s.line n).sup ≠ .suspended := (h.services.line n).agrees
  rcases hv with hv | hv <;> rw [hv] at ha <;> exact ha

theorem suspendLine_calls (s : State) (n : LineNo) (sv : Service) :
    (suspendLine s n sv).calls
      = s.calls.setLine n { (s.line n).call with service := sv, sup := .suspended, rate := .full } := by
  unfold suspendLine
  rw [restoreFault_calls, setFull_calls, modLine_calls, Calls.setLine_setLine, State.line_modLine_same]
  rfl

/-- A SUSPENDED line whose work has ended goes to its return service (R102, R117). -/
theorem releaseLine_sound (h : CallsSound P s) (ht : ∀ l, s.calls.tested l ≠ some n) (hs : (s.line n).sup = .suspended)
    (hc : (s.line n).calCtx.isSome = false) (toActive : Bool) : CallsSound P (releaseLine s n toActive) := by
  unfold releaseLine
  split
  · exact activate_sound h ht (modLine_calls s n _) hc
  · refine h.steady (r := { (s.line n).call with service := .parked, sup := .none, rate := .full }) ?_
      (LineCall.parked_ok _ hc) rfl (fun l hl => absurd hl (ht l)) fun hin => ?_
    · rw [unschedule_calls, modLine_calls, ← h.full (by rw [hs]; decide)]
      rfl
    · have : isCall (s.line n).sup = true := hin.2
      rw [hs] at this
      cases this

/-! ### Insulation tests -/

theorem modLink_test_calls (s : State) (l : LinkNo) {f : LinkRec → LinkRec} (o : Option LineNo)
    (hf : (f (s.link l)).tested = o) :
    (s.modLink l f).calls = { s.calls with tested := Function.update s.calls.tested l o } := by
  refine Calls.ext rfl (funext fun m => ?_) rfl rfl rfl
  show ((s.modLink l f).link m).tested = Function.update s.calls.tested l o m
  rw [State.link_modLink_ite, Function.update_apply]
  split
  · exact hf
  · rfl

theorem modTest_calls (s : State) (l : LinkNo) {f : TestCtx → TestCtx} (hf : ∀ c, (f c).line = c.line) :
    (modTest s l f).calls = s.calls := by
  refine modLink_calls_same s l ?_
  show ((s.link l).test.map f).map TestCtx.line = (s.link l).test.map TestCtx.line
  rw [Option.map_map]
  exact congrArg (fun g => (s.link l).test.map g) (funext hf)

/-- A test's context is set on the link of a TESTING line. -/
theorem CallsSound.setTest (h : CallsSound P s) (hv : (s.line n).service = .testing) {f : LinkRec → LinkRec}
    (hf : (f (s.link (linkOf n))).tested = some n) : CallsSound P (s.modLink (linkOf n) f) := by
  have hc := modLink_test_calls s (linkOf n) (some n) hf
  refine ⟨?_, fun hP => ?_⟩
  · rw [hc]
    refine ⟨h.services.line, fun l m hm => ?_⟩
    dsimp only at hm
    rw [Function.update_apply] at hm
    split at hm
    · next e =>
      obtain rfl := Option.some.inj hm
      exact ⟨e.symm, hv⟩
    · exact h.services.tested l m hm
  · obtain ⟨hb, hfree⟩ := h.pool hP
    rw [hc]
    exact ⟨{ hb with }, hfree⟩

/-- A test's context is removed from its link; then no test holds its line. -/
theorem CallsSound.clearTest (h : CallsSound P s) {l : LinkNo} {c : TestCtx} (hc : (s.link l).test = some c)
    {f : LinkRec → LinkRec} (hf : (f (s.link l)).tested = none) :
    CallsSound P (s.modLink l f) ∧ ∀ m, (s.modLink l f).calls.tested m ≠ some c.line := by
  have hcalls := modLink_test_calls s l none hf
  have htest : s.calls.tested l = some c.line := Option.map_eq_some_iff.mpr ⟨c, hc, rfl⟩
  have hset : ∀ m i, Function.update s.calls.tested l none m = some i → m ≠ l ∧ s.calls.tested m = some i :=
    fun m i hm => by
      rw [Function.update_apply] at hm
      split at hm
      · cases hm
      · next e => exact ⟨e, hm⟩
  refine ⟨⟨?_, fun hP => ?_⟩, fun m hm => ?_⟩
  · rw [hcalls]
    exact ⟨h.services.line, fun m i hm => h.services.tested m i (hset m i hm).2⟩
  · obtain ⟨hb, hfree⟩ := h.pool hP
    rw [hcalls]
    exact ⟨{ hb with }, hfree⟩
  · rw [hcalls] at hm
    obtain ⟨hne, ht⟩ := hset m c.line hm
    exact hne ((h.services.tested m c.line ht).1.symm.trans (h.services.tested l c.line htest).1)

/-- The line of a test's context is TESTING, on the link of the context. -/
theorem CallsSound.testing (h : CallsSound P s) {l : LinkNo} {c : TestCtx} (hc : (s.link l).test = some c) :
    linkOf c.line = l ∧ (s.line c.line).service = .testing :=
  h.services.tested l c.line (Option.map_eq_some_iff.mpr ⟨c, hc, rfl⟩)

theorem startPhase_sound (h : CallsSound P s) {c : TestCtx} (hv : (s.line c.line).service = .testing) (phase : Nat) :
    CallsSound P (startPhase s c phase) := by
  have h1 := h.setTest hv (f := fun r =>
    { r with test := some { c with phase := phase, step := .relayWait, settleCount := 0, dwellCount := 0, sumA := 0,
                                   sumB := 0 } }) rfl
  exact h1.of_calls (placeRelay_calls _ _ _ _)

theorem takeTest_sound (h : CallsSound P s) (k : SlotNo) (o : OrderRead) (hq : quietEnough s n = true) :
    CallsSound P (takeTest s k o n) := by
  have hsv := ((quietEnough_iff s n).mp hq).2
  have hnt : (s.line n).service ≠ .testing ∧ (s.line n).service ≠ .calibrating := by
    rcases hsv with hv | ⟨hv, -⟩ <;> rw [hv] <;> decide
  have hnc : ¬(s.calls.line n).inCall := by
    rintro ⟨hv, hs⟩
    change (s.line n).service = .active at hv
    change isCall (s.line n).sup = true at hs
    rcases hsv with hp | ⟨-, hq | hq | hq⟩
    · rw [hv] at hp; cases hp
    all_goals rw [hq] at hs; cases hs
  have h1 : CallsSound P (suspendLine (takeFlight s k (.insulation (linkOf n))) n .testing) := by
    refine h.steady (suspendLine_calls (takeFlight s k _) n .testing) ⟨rfl, fun e => (nomatch e), fun e => ?_⟩ rfl
      (fun _ _ => rfl) fun hin => absurd hin hnc
    exact absurd ((not_calibrating h hnt.2).symm.trans e) (by decide)
  refine startPhase_sound h1 ?_ 1
  rw [suspendLine_eq, State.line_modLine_same]

theorem orderInsulationTest_sound (h : CallsSound P s) (k : SlotNo) (o : OrderRead) :
    CallsSound P (orderInsulationTest s k o) := by
  unfold orderInsulationTest
  split
  · exact h.of_calls (refuse_calls s k _ _)
  split
  · exact h.of_calls (refuse_calls s k _ _)
  split
  · exact h.of_calls (refuse_calls s k _ _)
  split
  · exact h.of_calls (refuse_calls s k _ _)
  next hq =>
  split
  · exact h.of_calls (refuse_calls s k _ _)
  split
  · exact h.of_calls (refuse_calls s k _ _)
  · exact takeTest_sound h k o (not_not.mp hq)

@[simp] theorem completeTest_calls (s : State) (c : TestCtx) (v : Verdict) (o : OrderOutcome) (r : Reason) :
    (completeTest s c v o r).calls = s.calls := endOrder_calls s _ _

theorem endTest_sound (h : CallsSound P s) {c : TestCtx} (hv : (s.line c.line).service = .testing) (v : Verdict)
    (o : OrderOutcome) (r : Reason) : CallsSound P (endTest s c v o r) := by
  unfold endTest
  extract_lets s1 s2
  have hc : s2.calls = s.calls := (placeRelay_calls s1 _ _ _).trans (completeTest_calls s c v o r)
  exact (h.of_calls hc).setTest ((congrArg LineCall.service (call_of_calls hc c.line)).trans hv) rfl

theorem abortTest_sound (h : CallsSound P s) (l : LinkNo) (r : Reason) : CallsSound P (abortTest s l r) := by
  unfold abortTest
  split
  · next c hc =>
    split
    · exact h
    · exact endTest_sound h (h.testing hc).2 _ _ _
  · exact h

theorem removeTest_sound (h : CallsSound P s) {l : LinkNo} {c : TestCtx} (hc : (s.link l).test = some c) :
    CallsSound P (removeTest s l c) := by
  obtain ⟨h1, ht⟩ := h.clearTest hc (f := fun x => { x with test := none }) rfl
  have hv := (h.testing hc).2
  have hcal := not_calibrating h (n := c.line) (by rw [hv]; decide)
  exact releaseLine_sound h1 ht (h.suspended (.inl hv)) hcal _

theorem testLinkLost_sound (h : CallsSound P s) (l : LinkNo) : CallsSound P (testLinkLost s l) := by
  unfold testLinkLost
  split
  · next c hc =>
    have h1 : (if c.step = .restoring then s else completeTest s c .none .aborted .linkLost).calls = s.calls := by
      split
      · rfl
      · exact completeTest_calls s _ _ _ _
    refine removeTest_sound (h.of_calls h1) ?_
    split
    · exact hc
    · unfold completeTest endOrder
      split <;> exact hc
  · exact h

theorem testRelayAnswered_sound (h : CallsSound P s) (n : LineNo) (cfg : RelayCfg) (ack : Bool) :
    CallsSound P (testRelayAnswered s n cfg ack) := by
  unfold testRelayAnswered
  split
  · next c hc =>
    split
    · exact h
    split
    · split
      · exact h
      split
      · exact h.of_calls (modTest_calls s _ fun _ => rfl)
      · exact endTest_sound h (h.testing hc).2 _ _ _
    · exact h
    · exact h
    · split
      · exact removeTest_sound h hc
      · exact h
  · exact h

theorem storePhase_line (c : TestCtx) : (storePhase c).line = c.line := by
  unfold storePhase
  dsimp only
  split
  · rfl
  split
  · rfl
  split <;> rfl

theorem phaseEnds_sound (h : CallsSound P s) {c : TestCtx} (hv : (s.line c.line).service = .testing) :
    CallsSound P (phaseEnds s c) := by
  unfold phaseEnds
  extract_lets d
  have hd : (s.line d.line).service = .testing := (storePhase_line c).symm ▸ hv
  split
  · exact startPhase_sound h hd 2
  split
  · split
    · exact endTest_sound h hd _ _ _
    · exact startPhase_sound h hd 3
  split
  · exact startPhase_sound h hd 4
  · exact endTest_sound h hd _ _ _

theorem testCounts_sound (h : CallsSound P s) {l : LinkNo} {c : TestCtx} (hc : (s.link l).test = some c) (x : Sample) :
    CallsSound P (testCounts s l c x) := by
  unfold testCounts
  split
  · dsimp only
    split
    · exact h.of_calls (modTest_calls s l fun _ => rfl)
    · exact h.of_calls (modTest_calls s l fun _ => rfl)
  · dsimp only
    split
    · exact phaseEnds_sound h (h.testing hc).2
    · refine h.of_calls (modLink_calls_same s l ?_)
      simp [LinkRec.tested, hc]
  · exact h
  · exact h

theorem testScan_sound (h : CallsSound P s) (n : LineNo) (out : ScanOutcome) : CallsSound P (testScan s n out) := by
  unfold testScan
  split
  · next c hc =>
    split
    · exact h
    split
    · exact h.of_calls (modTest_calls s _ fun _ => rfl)
    · exact h.of_calls (modTest_calls s _ fun _ => rfl)
    · split
      · exact testCounts_sound h hc _
      · exact h.of_calls (modTest_calls s _ fun _ => rfl)
  · exact h

theorem assignTesting_sound (h : CallsSound P s) (n : LineNo) (toActive : Bool) :
    CallsSound P (assignTesting s n toActive) := by
  unfold assignTesting
  extract_lets s1
  have h1 : CallsSound P s1 := h.of_calls (modTest_calls s _ fun c => by split <;> rfl)
  split
  · exact h1
  split
  · split
    · exact abortTest_sound h1 _ _
    · exact h1
  · exact h1

/-! ### Calibrations -/

@[simp] theorem modCal_calls (s : State) (n : LineNo) (f : CalCtx → CalCtx) : (modCal s n f).calls = s.calls :=
  modLine_calls_same s n (by simp [LineRec.call])

@[simp] theorem lineFinished_calls (s : State) (k : SlotNo) (f : Tally → Tally) (o : OrderOutcome) (r : Reason) :
    (lineFinished s k f o r).calls = s.calls := by
  unfold lineFinished
  split
  · dsimp only
    split
    · exact finish_calls s k _ _ _
    · rfl
  · rfl

@[simp] theorem markRecord_calls (s : State) (n : LineNo) (c : CalCtx) (st : CalStatus) :
    (markRecord s n c st).calls = s.calls := modLine_calls_same s n rfl

@[simp] theorem restoreTrim_calls (s : State) (n : LineNo) : (restoreTrim s n).calls = s.calls :=
  placeTrim_calls s n _ _ _

@[simp] theorem toRestoring_calls (s : State) (n : LineNo) : (toRestoring s n).calls = s.calls := modCal_calls s n _

@[simp] theorem failLine_calls (s : State) (n : LineNo) (c : CalCtx) (cause : FailCause) :
    (failLine s n c cause).calls = s.calls := by
  unfold failLine
  simp only [lineFinished_calls, toRestoring_calls, placeRelay_calls, restoreTrim_calls, markRecord_calls]

@[simp] theorem abortLine_calls (s : State) (n : LineNo) (cause : IntCause) (o : OrderOutcome) (r : Reason) :
    (abortLine s n cause o r).calls = s.calls := by
  unfold abortLine
  split
  · split
    · rfl
    · simp only [lineFinished_calls, toRestoring_calls, placeRelay_calls, restoreTrim_calls, markRecord_calls]
  · rfl

theorem abortCalibrate_sound (h : CallsSound P s) (k : SlotNo) (cause : IntCause) (r : Reason) :
    CallsSound P (abortCalibrate s k cause r) := by
  refine CallsSound.foldl (fun s n hs => ?_) allLines h
  split
  · exact hs.of_calls (abortLine_calls s n _ _ _)
  · exact hs

/-- The context of a calibrating line is set anew. -/
theorem setCal_calls (hc : (s.line n).calCtx.isSome = true) (c : CalCtx) :
    (s.modLine n fun r => { r with calCtx := some c }).calls = s.calls :=
  modLine_calls_same s n (by simp [LineRec.call, hc])

theorem startDecision_calls (hc : (s.line n).calCtx.isSome = true) (c : CalCtx) :
    (startDecision s n c).calls = s.calls :=
  (placeTrim_calls _ n _ _ _).trans (setCal_calls hc _)

theorem decisionEnds_calls (hc : (s.line n).calCtx.isSome = true) (c : CalCtx) :
    (decisionEnds s n c).calls = s.calls := by
  unfold decisionEnds rangeDecision bitDecision
  split
  · dsimp only
    split
    · exact (failLine_calls _ n _ _).trans (setCal_calls hc _)
    · exact startDecision_calls hc _
  · dsimp only
    split
    · exact startDecision_calls hc _
    · exact (placeRelay_calls _ n _ _).trans ((placeTrim_calls _ n _ _ _).trans (setCal_calls hc _))

theorem calScan_calls (s : State) (n : LineNo) (out : ScanOutcome) : (calScan s n out).calls = s.calls := by
  unfold calScan calCounts
  split
  · next c x hc =>
    have hsome : (s.line n).calCtx.isSome = true := by rw [hc]; rfl
    split
    · rfl
    split
    · dsimp only
      split
      · exact modCal_calls s n _
      · exact modCal_calls s n _
    · dsimp only
      split
      · exact decisionEnds_calls hsome _
      · exact modCal_calls s n _
    all_goals rfl
  · rfl

/-- The context of a calibration is removed, and its line released (R117). -/
theorem removeCal_sound (h : CallsSound P s) (hc : (s.line n).calCtx.isSome = true) (d : CalCtx) :
    CallsSound P (removeCal s n d) := by
  have hv : (s.line n).service = .calibrating := (h.services.line n).calibrating hc
  have ho := h.services.line n
  have hnt := h.not_tested (n := n) (by rw [hv]; decide)
  have h1 : CallsSound P (s.modLine n fun r => { r with calCtx := none }) :=
    h.steady (modLine_calls s n _) ⟨ho.agrees, ho.quiet, fun e => (nomatch e)⟩ rfl
      (fun l hl => absurd hl (hnt l)) fun hin => hin
  refine releaseLine_sound h1 hnt ?_ ?_ _
  · rw [State.line_modLine_same]
    exact h.suspended (.inr hv)
  · rw [State.line_modLine_same]
    rfl

theorem calLinkLost_sound (h : CallsSound P s) (n : LineNo) : CallsSound P (calLinkLost s n) := by
  unfold calLinkLost
  split
  · next c hc =>
    extract_lets s0 s1
    have hcalls : s1.calls = s.calls := by
      subst s1
      split
      · rfl
      · exact (lineFinished_calls s0 _ _ _ _).trans (markRecord_calls s n c _)
    refine removeCal_sound (h.of_calls hcalls) ?_ c
    have := congrArg LineCall.calibrating (call_of_calls hcalls n)
    exact this.trans (by rw [LineRec.call, hc]; rfl)
  · exact h

theorem calRelayAnswered_sound (h : CallsSound P s) (n : LineNo) (cfg : RelayCfg) (ack : Bool) :
    CallsSound P (calRelayAnswered s n cfg ack) := by
  unfold calRelayAnswered
  split
  · next c hc =>
    split
    · split
      · exact h
      split
      · exact h.of_calls (modCal_calls s n _)
      · exact h.of_calls (failLine_calls s n _ _)
    · exact h
    · exact h
    · exact h
    · exact h
    · split
      · exact removeCal_sound h (by rw [hc]; rfl) c
      · exact h
  · exact h

@[simp] theorem commitAnswered_calls (s : State) (n : LineNo) (c : CalCtx) (ack : Bool) :
    (commitAnswered s n c ack).calls = s.calls := by
  unfold commitAnswered
  split
  · exact (lineFinished_calls _ _ _ _ _).trans ((toRestoring_calls _ n).trans (modLine_calls_same s n rfl))
  · simp only [lineFinished_calls, toRestoring_calls, restoreTrim_calls, markRecord_calls]

@[simp] theorem calTrimAnswered_calls (s : State) (n : LineNo) (ack : Bool) :
    (calTrimAnswered s n ack).calls = s.calls := by
  unfold calTrimAnswered
  split
  · split
    · split
      · exact modCal_calls s n _
      · exact failLine_calls s n _ _
    · exact commitAnswered_calls s n _ ack
    all_goals rfl
  · rfl

@[simp] theorem recordTrimAnswered_calls (s : State) (n : LineNo) (ack : Bool) :
    (recordTrimAnswered s n ack).calls = s.calls := by
  unfold recordTrimAnswered
  split
  · rfl
  · exact modLine_calls_same s n rfl

@[simp] theorem orderSetTrim_calls (s : State) (k : SlotNo) (o : OrderRead) : (orderSetTrim s k o).calls = s.calls := by
  unfold orderSetTrim
  split
  · exact refuse_calls s k _ _
  split
  · exact refuse_calls s k _ _
  split
  · exact refuse_calls s k _ _
  split
  · exact refuse_calls s k _ _
  · exact (complete_calls _ k _).trans ((placeTrim_calls _ _ _ _ _).trans (modLine_calls_same s _ rfl))

theorem assignCalibrating_calls (s : State) (n : LineNo) (toActive : Bool) :
    (assignCalibrating s n toActive).calls = s.calls := by
  unfold assignCalibrating
  dsimp only
  split
  · exact modCal_calls s n _
  · exact (abortLine_calls _ n _ _ _).trans (modCal_calls s n _)

/-- What a line taken by a CALIBRATE goes over to (R111). -/
def LineCall.takenForCal (r : LineCall) : LineCall :=
  { r with service := .calibrating, sup := .suspended, rate := .full, calibrating := true }

theorem takeLine_calls (k : SlotNo) (o : OrderRead) (s : State) (n : LineNo) :
    (takeLine k o s n).calls = s.calls.setLine n (s.line n).call.takenForCal := by
  unfold takeLine
  dsimp only
  rw [placeTrim_calls, placeRelay_calls, suspendLine_calls, modLine_calls, Calls.setLine_setLine,
    State.line_modLine_same]
  rfl

/-- A line may be taken for calibration: it is in no call and under no test. -/
def calibratable (s : State) (n : LineNo) : Prop := (s.line n).service ≠ .testing ∧ isCall (s.line n).sup = false

theorem takeLine_sound (h : CallsSound P s) (hn : calibratable s n) (k : SlotNo) (o : OrderRead) :
    CallsSound P (takeLine k o s n) ∧ ∀ m, calibratable s m → calibratable (takeLine k o s n) m := by
  refine ⟨h.steady (takeLine_calls k o s n) ⟨rfl, fun e => (nomatch e), fun _ => rfl⟩ rfl
    (fun l hl => absurd hl (h.not_tested hn.1 l)) fun hin => ?_, fun m hm => ?_⟩
  · exact absurd (hn.2.symm.trans hin.2) (by decide)
  · have hcall : ((takeLine k o s n).line m).call = if m = n then (s.line n).call.takenForCal else (s.line m).call := by
      rw [← State.calls_line, takeLine_calls, Calls.setLine_line_ite]
      rfl
    by_cases e : m = n
    · rw [if_pos e] at hcall
      have hv : ((takeLine k o s n).line m).service = .calibrating := congrArg LineCall.service hcall
      have hs : ((takeLine k o s n).line m).sup = .suspended := congrArg LineCall.sup hcall
      exact ⟨by rw [hv]; decide, by rw [hs]; rfl⟩
    · rw [if_neg e] at hcall
      have hv : ((takeLine k o s n).line m).service = (s.line m).service := congrArg LineCall.service hcall
      have hs : ((takeLine k o s n).line m).sup = (s.line m).sup := congrArg LineCall.sup hcall
      exact ⟨by rw [hv]; exact hm.1, by rw [hs]; exact hm.2⟩

/-- A line that a CALIBRATE does not skip is PARKED or ON_HOOK (R110). -/
theorem calibratable_of_taken (hs : CallsSound P s) (h : skipReason s n = none) : calibratable s n := by
  unfold skipReason at h
  dsimp only at h
  split at h
  · cases h
  split at h
  · cases h
  split at h
  · cases h
  split at h
  · cases h
  next hv =>
  rcases not_not.mp hv with hp | ⟨ha, ho⟩
  · refine ⟨by rw [hp]; decide, ?_⟩
    by_contra hc
    have := ((hs.services.line n).inCall (Bool.eq_true_of_not_eq_false hc)).1
    exact absurd (hp.symm.trans this) (by decide)
  · exact ⟨by rw [ha]; decide, by rw [ho]; rfl⟩

theorem orderCalibrate_sound (h : CallsSound P s) (k : SlotNo) (o : OrderRead) :
    CallsSound P (orderCalibrate s k o) := by
  unfold orderCalibrate
  dsimp only
  split
  · exact h.of_calls (refuse_calls s k _ _)
  split
  · exact h.of_calls (refuse_calls s k _ _)
  split
  · exact h.of_calls (refuse_calls s k _ _)
  have hall : ∀ n ∈ takenLines s (maskOf o), calibratable s n := fun n hn =>
    calibratable_of_taken h (of_decide_eq_true (List.mem_filter.mp hn).2)
  refine (List.foldlRecOn
    (motive := fun t : State => CallsSound P t ∧ ∀ n ∈ takenLines s (maskOf o), calibratable t n)
    (takenLines s (maskOf o)) (takeLine k o) ⟨h.of_calls (takeFlight_calls s k _), hall⟩
    fun t ht n hn => ?_).1
  obtain ⟨h1, h2⟩ := takeLine_sound ht.1 (ht.2 n hn) k o
  exact ⟨h1, fun m hm => h2 m (ht.2 m hm)⟩

/-! ### Traces and the end of a block -/

@[simp] theorem finishTrace_calls (s : State) (c : TraceCtx) (o : OrderOutcome) (r : Reason) (code : Nat) :
    (finishTrace s c o r code).calls = s.calls := finish_calls s _ _ _ _

/-- A trace's context comes, goes or moves on while no check is in progress. -/
theorem setTrace_calls {g : GenRec} (hs : s.gen.ctx.checked = none) (hg : g.ctx.checked = none) :
    State.calls { s with gen := g } = s.calls :=
  calls_of_frame rfl rfl rfl rfl (hg.trans hs.symm)

theorem removeTrace_calls {c : TraceCtx} (hs : s.gen.ctx.checked = none) : (removeTrace s c).calls = s.calls :=
  (modLine_calls_same _ c.line rfl).trans
    (setTrace_calls (s := silence s) (g := { (silence s).gen with ctx := .none }) hs rfl)

theorem trace_checked {c : TraceCtx} (hg : s.gen.ctx = .trace c) : s.gen.ctx.checked = none := by rw [hg]; rfl

theorem traceLinkLost_calls (s : State) (l : LinkNo) : (traceLinkLost s l).calls = s.calls := by
  unfold traceLinkLost
  split
  · next c hg =>
    split
    · extract_lets s1
      have h1 : s1.calls = s.calls := by
        subst s1
        split
        · rfl
        · exact finishTrace_calls s c _ _ _
      refine (removeTrace_calls ?_).trans h1
      exact (congrArg Calls.checked h1).trans (trace_checked hg)
    · rfl
  · rfl

theorem traceRelayAnswered_calls (s : State) (n : LineNo) (cfg : RelayCfg) (ack : Bool) :
    (traceRelayAnswered s n cfg ack).calls = s.calls := by
  unfold traceRelayAnswered
  split
  · next c hg =>
    split
    · rfl
    split
    · split
      · rfl
      split
      · exact setTrace_calls (trace_checked hg) rfl
      · exact endTrace_calls s _ _ _
    · rfl
    · split
      · exact removeTrace_calls (trace_checked hg)
      · rfl
  · rfl

theorem traceExpires_calls (s : State) : (traceExpires s).calls = s.calls := by
  unfold traceExpires
  split
  · split
    · exact endTrace_calls s _ _ _
    · rfl
  · rfl

theorem warble_calls (s : State) : (warble s).calls = s.calls := by
  unfold warble
  split
  · next c hg =>
    split
    · split
      · exact setTrace_calls (trace_checked hg) rfl
      · rfl
    · rfl
    · rfl
  · rfl

theorem orderTrace_calls (s : State) (k : SlotNo) (o : OrderRead) : (orderTrace s k o).calls = s.calls := by
  unfold orderTrace
  split
  · exact refuse_calls s k _ _
  split
  · exact refuse_calls s k _ _
  split
  · exact refuse_calls s k _ _
  split
  · exact refuse_calls s k _ _
  split
  · exact refuse_calls s k _ _
  next hg =>
  unfold takeTrace
  extract_lets seconds c s1 g s2 s3
  have hnone : s1.gen.ctx.checked = none := by
    show s.gen.ctx.checked = none
    rw [not_not.mp hg]
    rfl
  have h2 : s2.calls = s.calls := setTrace_calls (s := s1) hnone rfl
  exact (placeRelay_calls s3 _ _ _).trans ((modLine_calls_same s2 _ rfl).trans h2)

theorem blockEnds_sound (h : CallsSound P s) (k : RcvNo) (v : BlockLevels) : CallsSound P (blockEnds s k v) := by
  unfold blockEnds
  split
  · extract_lets a next
    have h1 : CallsSound P next := h.of_calls (setDet_calls s k _)
    split
    · split
      · exact (toneDigit_sound h1 _ _).of_calls (countDigit_calls _ k)
      · exact h1
    · split
      · next c hg =>
        split
        · exact checkBlock_sound h1 (checked_eq_some.mpr ⟨c, hg, rfl⟩) _
        · exact h1
      · exact h1
    · exact h
  · exact h

theorem routeScan_sound (h : CallsSound P s) (n : LineNo) (out : ScanOutcome) : CallsSound P (routeScan s n out) := by
  unfold routeScan
  split
  · exact h
  · next hv =>
    split
    · exact activeScan_sound h hv _
    · exact h.of_calls (surveyScan_calls s n _)
    · exact h.of_calls (surveyScan_calls s n _)
  · exact h.of_calls (calScan_calls s n out)
  · exact testScan_sound h n out

end Sys2Proof.Machine
end

section
/-! SUPPORT. Services and pool stay sound on the links, in the orders, and through master accesses and sweeps. -/

namespace Sys2Proof.Machine

variable {s t : State} {n : LineNo} {P : Prop}

/-! ### Sending -/

@[simp] theorem frameTaken_calls (s : State) (f : Frame) : (frameTaken s f).calls = s.calls := by
  unfold frameTaken
  split
  · exact tapTaken_calls s _
  all_goals rfl

@[simp] theorem advanceLink_calls (s : State) (l : LinkNo) : (advanceLink s l).calls = s.calls := by
  have hend : (endControl s l).calls = s.calls := by
    rw [endControl_eq]
    exact modLink_calls_same s l rfl
  unfold advanceLink
  dsimp only
  split
  · split
    · exact hend
    split
    · rw [sendControl_modLink]
      exact modLink_calls_same s l rfl
    · rw [frameTaken_calls, sendControl_modLink]
      exact modLink_calls_same s l rfl
    · exact hend
  · rfl

theorem missScan_sound (h : CallsSound P s) (n : LineNo) : CallsSound P (missScan s n) := routeScan_sound h n _

theorem startPeriod_sound (h : CallsSound P s) : CallsSound P (startPeriod s) := by
  unfold startPeriod
  split
  · refine CallsSound.foldl (s := { s with periodCount := _, periodEnd := _ }) (fun s l hs => ?_) allLinks
      (h.of_calls rfl)
    unfold startLinkPeriod
    split
    · have h1 : CallsSound P (missUnsent s l) := hs.foldl (fun s p hs => missScan_sound hs (lineAt l p)) _
      exact h1.of_calls ((advanceLink_calls _ l).trans (modLink_calls_same _ l rfl))
    · exact hs
  · exact h

/-! ### Loss and timeouts -/

theorem unsenseLine_sound (h : CallsSound P s) (n : LineNo) : CallsSound P (unsenseLine s n) := by
  unfold unsenseLine
  split
  · next hv => exact enterUnsensed_sound h hv
  · exact h

theorem linkLost_sound (h : CallsSound P s) (l : LinkNo) : CallsSound P (linkLost s l) := by
  unfold linkLost
  extract_lets s1 s2 s3 s4 s5 s6 s7
  have h1 : CallsSound P s1 := h.of_calls (modLink_calls_same s l rfl)
  have h2 : CallsSound P s2 := h1.eachLine (fun s n hs => unsenseLine_sound hs n) (linesOf l)
  have h3 : CallsSound P s3 := strandAll_sound h2 l
  have h4 : CallsSound P s4 := h3.eachLine (fun s n hs => calLinkLost_sound hs n) (linesOf l)
  have h5 : CallsSound P s5 := (testLinkLost_sound h4 l).of_calls (markChanges_calls s4 _)
  have h6 : CallsSound P s6 := h5.of_calls ((markChanges_calls s5 _).trans (traceLinkLost_calls s5 l))
  have h7 : CallsSound P s7 := h6.foldl (fun s n hs => hs.of_calls (abortSurvey_calls s n .linkLost)) (linesOf l)
  exact h7.foldl (fun s n hs => setFull_sound hs n) (linesOf l)

theorem timeOut_sound (h : CallsSound P s) (l : LinkNo) : CallsSound P (timeOut s l) := by
  have hend : CallsSound P (endExchange s l) := h.of_calls (modLink_calls_same s l rfl)
  unfold timeOut
  split
  · next f _ =>
    dsimp only
    split
    · have h1 : CallsSound P (frameTimedOut (endExchange s l) l f) := by
        cases f with
        | sample p => exact missScan_sound hend (lineAt l p)
        | probe => exact hend
        | _ => exact hend.of_calls (modLink_calls_same _ l rfl)
      have h2 := h1.of_calls (modLink_calls_same _ l (f := fun r => { r with failRun := r.failRun + 1 }) rfl)
      unfold raiseFailRun
      dsimp only
      split
      · exact linkLost_sound h2 l
      · exact h2.of_calls (advanceLink_calls _ l)
    · exact hend
  · exact h

/-! ### Replies -/

@[simp] theorem replyTaken_calls (s : State) (l : LinkNo) : (replyTaken s l).calls = s.calls :=
  (modLink_calls_same _ l rfl).trans (modLink_calls_same s l rfl)

theorem sampleAnswered_sound (h : CallsSound P s) (l : LinkNo) (p : PairNo) (x : Sample) :
    CallsSound P (sampleAnswered s l p x) := by
  unfold sampleAnswered
  split
  · rw [takeSample_eq]
    have h1 : CallsSound P (atReply s l x) := by
      unfold atReply surgeStep
      split
      · exact h.of_calls ((modLink_calls_same _ l rfl).trans (replyTaken_calls s l))
      · exact h.of_calls (replyTaken_calls s l)
    exact (routeScan_sound h1 _ _).of_calls (advanceLink_calls _ l)
  · exact h

theorem trimAnswered_sound (h : CallsSound P s) (l : LinkNo) (ack : Bool) : CallsSound P (trimAnswered s l ack) := by
  unfold trimAnswered trimOwner
  split
  · refine (h.of_calls (replyTaken_calls s l)).of_calls ((advanceLink_calls _ l).trans ?_)
    split
    · exact calTrimAnswered_calls _ _ ack
    · exact recordTrimAnswered_calls _ _ ack
  · exact h

theorem relayAnswered_sound (h : CallsSound P s) (l : LinkNo) (ack : Bool) : CallsSound P (relayAnswered s l ack) := by
  unfold relayAnswered relayOwner
  split
  · next p _ _ _ =>
    have h1 : CallsSound P (setRestored (replyTaken s l) l p) :=
      h.of_calls ((modLink_calls_same _ l rfl).trans (replyTaken_calls s l))
    refine CallsSound.of_calls ?_ (advanceLink_calls _ l)
    split
    · exact h1
    · exact calRelayAnswered_sound h1 _ _ ack
    · exact testRelayAnswered_sound h1 _ _ ack
    · exact h1.of_calls (traceRelayAnswered_calls _ _ _ ack)
  · exact h

theorem connectAnswered_sound (h : CallsSound P s) (l : LinkNo) (ack : Bool) :
    CallsSound P (connectAnswered s l ack) := by
  unfold connectAnswered
  split
  · next k _ =>
    refine CallsSound.of_calls ?_ (advanceLink_calls _ l)
    exact (h.of_calls (replyTaken_calls s l)).pooled (tapConnectAnswered_noRcv _ k ack)
      (tapConnectAnswered_unsupervised _ k ack) fun hp => tapConnectAnswered_pool hp k ack
  · exact h

theorem disconnectAnswered_sound (h : CallsSound P s) (l : LinkNo) (ack : Bool) :
    CallsSound P (disconnectAnswered s l ack) := by
  unfold disconnectAnswered
  split
  · next k _ =>
    refine CallsSound.of_calls ?_ (advanceLink_calls _ l)
    exact (h.of_calls (replyTaken_calls s l)).pooled (tapDisconnectAnswered_noRcv _ k ack)
      (tapDisconnectAnswered_unsupervised _ k ack) fun hp => tapDisconnectAnswered_pool hp k ack
  · exact h

theorem clearAllAnswered_sound (h : CallsSound P s) (l : LinkNo) (ack : Bool) :
    CallsSound P (clearAllAnswered s l ack) := by
  unfold clearAllAnswered
  split
  · refine CallsSound.of_calls ?_ (advanceLink_calls _ l)
    exact (h.of_calls (replyTaken_calls s l)).pooled (tapClearAnswered_noRcv _ l ack)
      (tapClearAnswered_unsupervised _ l ack) fun hp => tapClearAnswered_pool hp l ack
  · exact h

theorem parkAbsent_sound (h : CallsSound P s) (n : LineNo) : CallsSound P (parkAbsent s n) := by
  unfold parkAbsent
  split
  · next hv => exact parkLine_sound h hv.2
  · exact h

theorem settleUnsensed_sound (h : CallsSound P s) (n : LineNo) : CallsSound P (settleUnsensed s n) := by
  unfold settleUnsensed
  split
  · next hv => exact enterSettling_sound h hv.1
  · exact h

theorem recoverLink_sound (h : CallsSound P s) (l : LinkNo) (count : Nat) (rev : Byte) :
    CallsSound P (recoverLink s l count rev) := by
  unfold recoverLink
  extract_lets s1 s2 frames s3
  have h1 : CallsSound P s1 := h.of_calls (modLink_calls_same s l rfl)
  have h2 : CallsSound P s2 := h1.eachLine (fun s n hs => parkAbsent_sound hs n) (linesOf l)
  clear_value s2 frames
  have h3 : CallsSound P s3 := h2.of_calls (modLink_calls_same s2 l rfl)
  exact h3.eachLine (fun s n hs => settleUnsensed_sound hs n) (linesOf l)

theorem probeAnswered_sound (h : CallsSound P s) (l : LinkNo) (count : Nat) (rev : Byte) :
    CallsSound P (probeAnswered s l count rev) := by
  unfold probeAnswered
  split
  · have h1 : CallsSound P (replyTaken s l) := h.of_calls (replyTaken_calls s l)
    dsimp only
    split
    · unfold probeWhileUp
      split
      · exact h1.of_calls ((advanceLink_calls _ l).trans (modLink_calls_same _ l rfl))
      · exact linkLost_sound h1 l
    · exact recoverLink_sound h1 l count rev
  · exact h

theorem probeTimerEnds_calls (s : State) (l : LinkNo) : (probeTimerEnds s l).calls = s.calls := by
  unfold probeTimerEnds
  dsimp only
  split
  · exact modLink_calls_same s l rfl
  · rfl

theorem idleEnds_calls (s : State) (l : LinkNo) : (idleEnds s l).calls = s.calls := by
  unfold idleEnds
  dsimp only
  split
  · exact modLink_calls_same s l rfl
  · rfl

theorem surgeEnds_calls (s : State) (l : LinkNo) : (surgeEnds s l).calls = s.calls := by
  unfold surgeEnds
  dsimp only
  split
  · exact modLink_calls_same s l rfl
  · rfl

/-! ### Profiles and orders -/

theorem assignLine_sound (h : CallsSound P s) (n : LineNo) (p : ProfNo) (active : Bool) :
    CallsSound P (assignLine s n p active) := by
  unfold assignLine
  extract_lets s1 s2
  have h2 : CallsSound P s2 := h.of_calls ((abortTraceOn_calls s1 n _).trans (modLine_calls_same s n rfl))
  split
  · next hv =>
    unfold assignParked
    split
    · refine activate_sound h2 (h2.not_tested (by rw [hv]; decide)) ?_ (not_calibrating h2 (by rw [hv]; decide))
      rw [unschedule_calls, modLine_calls]
      rfl
    · exact h2
  · next hv =>
    unfold assignActive
    split
    · exact h2
    · have hc := abortSurvey_calls s2 n .lineChanged
      exact parkLine_sound (h2.of_calls hc) ((congrArg LineCall.service (call_of_calls hc n)).trans hv)
  · exact h2.of_calls (assignCalibrating_calls s2 n active)
  · exact assignTesting_sound h2 n active

theorem orderAssign_sound (h : CallsSound P s) (k : SlotNo) (o : OrderRead) : CallsSound P (orderAssign s k o) := by
  unfold orderAssign
  split
  · exact h.of_calls (refuse_calls s k _ _)
  split
  · dsimp only
    split
    · exact h.of_calls (refuse_calls s k _ _)
    split
    · exact h.of_calls (refuse_calls s k _ _)
    · exact (assignLine_sound h _ _ _).of_calls (complete_calls _ k _)
  · exact h.of_calls (refuse_calls s k _ _)

theorem loadProfile_calls (s : State) (k : SlotNo) (p : ProfNo) (bytes : List Byte) :
    (loadProfile s k p bytes).calls = s.calls := by
  unfold loadProfile
  dsimp only
  split
  · exact refuse_calls s k _ _
  · exact complete_calls (s.setProfile p _) k _

/-- ECONOMY makes QUIET only ACTIVE lines in ON_HOOK (R146). -/
theorem economyLine_sound (h : CallsSound P s) (n : LineNo) : CallsSound P (economyLine s n) := by
  unfold economyLine
  by_cases he : economyTakes (s.line n) = true
  · have hq := he
    simp only [economyTakes, Bool.and_eq_true, decide_eq_true_eq] at hq
    obtain ⟨⟨⟨hv, hs⟩, -⟩, -⟩ := hq
    have ho := h.services.line n
    refine h.steady (r := { (s.line n).call with rate := .quiet }) ?_ ⟨ho.agrees, fun _ => ⟨hv, hs⟩, ho.calibrating⟩ rfl
      (fun l hl => (h.services.tested l n hl).2) fun hin => hin
    rw [modLine_calls, if_pos he]
    rfl
  · exact h.of_calls (modLine_calls_same s n (by rw [if_neg he]))

theorem orderEconomy_sound (h : CallsSound P s) (k : SlotNo) (o : OrderRead) : CallsSound P (orderEconomy s k o) := by
  unfold orderEconomy
  split
  · exact h.of_calls (complete_calls { s with economy := false } k _)
  split
  · have h1 : CallsSound P { s with economy := true } := h.of_calls rfl
    exact (h1.foldl (fun s n hs => economyLine_sound hs n) allLines).of_calls (complete_calls _ k _)
  · exact h.of_calls (refuse_calls s k _ _)

theorem orderClearFault_calls (s : State) (k : SlotNo) (o : OrderRead) : (orderClearFault s k o).calls = s.calls := by
  unfold orderClearFault
  split
  · dsimp only
    split
    · exact complete_calls s k _
    split
    · exact refuse_calls s k _ _
    · exact (complete_calls _ k _).trans (modLine_calls_same s _ rfl)
  · exact refuse_calls s k _ _

theorem resettle_sound (h : CallsSound P s) (n : LineNo) : CallsSound P (resettle s n) := by
  unfold resettle
  split
  · next hv => exact enterSettling_sound h hv.1
  · exact h

theorem periodDecision_sound (h : CallsSound P s) : CallsSound P (periodDecision s) := by
  unfold periodDecision
  dsimp only
  split
  · exact h
  split
  · exact h.of_calls rfl
  · exact CallsSound.foldl (fun s n hs => resettle_sound hs n) allLines (h.of_calls rfl)

/-! ### Failed master accesses -/

theorem abortSlot_sound (h : CallsSound P s) (k : SlotNo) (r : Reason) (cause : IntCause) :
    CallsSound P (abortSlot s k r cause) := by
  unfold abortSlot
  split
  · exact h.of_calls (abortSurvey_calls s _ r)
  · exact abortCalibrate_sound h k cause r
  · exact abortTest_sound h _ r
  · exact abortListen_sound h k r
  · exact abortCheck_sound h r
  · exact h.of_calls (endTrace_calls s _ r 2)
  · exact h

theorem abortAll_sound (h : CallsSound P s) (r : Reason) (cause : IntCause) : CallsSound P (abortAll s r cause) :=
  h.foldl (fun _ k hs => abortSlot_sound hs k r cause) allSlots

theorem unmove_calls (s : State) : (unmove s).calls = s.calls := by
  unfold unmove
  split
  · exact modLine_calls_same s _ rfl
  · rfl

theorem halt_sound (h : CallsSound P s) (addr : Word) : CallsSound P (halt s addr) := by
  refine CallsSound.of_calls ?_ (markChanges_calls s _)
  unfold haltEffect
  extract_lets s1 s2 s3
  have h2 : CallsSound P s2 := h.of_calls (t := s2) (unmove_calls s)
  have h3 : CallsSound P s3 := abortAll_sound h2 .none .halted
  clear_value s3
  exact h3.of_calls rfl

/-! ### Series of master accesses -/

theorem busWrite_sound (h : CallsSound P s) (bad : Option Word) (off : Nat) (bytes : List Byte) :
    (busWrite bad s off bytes).Reaches (CallsSound P) := by
  unfold busWrite
  split
  · exact h
  · exact h.of_calls rfl

theorem busWriteField_sound (h : CallsSound P s) (bad : Option Word) (off n : Nat) (v : Int) :
    (busWriteField bad s off n v).Reaches (CallsSound P) :=
  busWrite_sound h bad off _

theorem busRead_sound (h : CallsSound P s) {bad : Option Word} {off n : Nat} {k : List Byte → BusRes}
    (hk : ∀ b, (k b).Reaches (CallsSound P)) : (busRead bad s off n k).Reaches (CallsSound P) := by
  unfold busRead
  split
  · exact h
  · exact hk _

theorem busReadField_sound (h : CallsSound P s) {bad : Option Word} {off n : Nat} {k : Nat → BusRes}
    (hk : ∀ v, (k v).Reaches (CallsSound P)) : (busReadField bad s off n k).Reaches (CallsSound P) :=
  busRead_sound h fun _ => hk _

theorem busWriteFields_sound (bad : Option Word) (l : List (Nat × Int)) (h : CallsSound P s) (off : Nat) :
    (busWriteFields bad off l s).Reaches (CallsSound P) := by
  induction l generalizing s off with
  | nil => exact h
  | cons x t ih => exact (busWriteField_sound h bad off _ _).andThen fun s hs => ih hs _

theorem settle_sound {r : BusRes} (h : r.Reaches (CallsSound P)) : CallsSound P r.settle := by
  cases r with
  | ok s => exact h
  | err s a => exact halt_sound h a

/-! ### Images and the header -/

theorem takeTaken_calls (s : State) (n : LineNo) (v : Count) : (takeTaken s n v).calls = s.calls := by
  unfold takeTaken
  split
  · exact modLine_calls_same s n rfl
  · rfl

theorem writeEntries_sound (bad : Option Word) (n : LineNo) (l : List DigitEntry) (h : CallsSound P s) (w : Count) :
    (writeEntries bad n w l s).Reaches (CallsSound P) := by
  induction l generalizing s w with
  | nil => exact h
  | cons e t ih => exact (busWriteFields_sound bad _ h _).andThen fun s hs => ih hs _

theorem writeMeasures_sound (h : CallsSound P s) (bad : Option Word) (n : LineNo) :
    (writeMeasures bad n s).Reaches (CallsSound P) := by
  refine (busWriteFields_sound bad _ h _).andThen fun s hs => ?_
  refine (busWriteField_sound hs bad _ _ _).andThen fun s hs => ?_
  exact hs.of_calls (modLine_calls_same s n rfl)

theorem writeWritten_sound (h : CallsSound P s) (bad : Option Word) (n : LineNo) (moved : Nat) :
    (writeWritten bad n moved s).Reaches (CallsSound P) := by
  unfold writeWritten
  split
  · exact h
  · exact busWriteField_sound h bad _ _ _

theorem rewriteBody_sound (h : CallsSound P s) (bad : Option Word) (n : LineNo) (pace : Bool) :
    (rewriteBody bad n pace s).Reaches (CallsSound P) := by
  refine (writeEntries_sound bad n _ h _).andThen fun s hs => ?_
  refine (writeWritten_sound hs bad n _).andThen fun s hs => ?_
  refine (BusRes.reaches_busEach (fun s _ hs => busWriteField_sound hs bad _ _ _) _ hs).andThen fun s hs => ?_
  have hp : (if pace then writeMeasures bad n s else .ok s).Reaches (CallsSound P) := by
    split
    · exact writeMeasures_sound hs bad n
    · exact hs
  refine hp.andThen fun s hs => ?_
  extract_lets s1
  have h1 : CallsSound P s1 := hs.of_calls (modLine_calls_same s n rfl)
  exact h1.of_calls rfl

theorem startRewrite_sound (h : CallsSound P s) (bad : Option Word) :
    (startRewrite bad s).Reaches (CallsSound P) := by
  unfold startRewrite
  split
  next n rest _ =>
    refine (busWriteField_sound (s := { s with rewriteList := rest }) (h.of_calls rfl) bad _ _ _).andThen fun s hs => ?_
    have h1 : CallsSound P (s.modLine n fun x => { x with changePending := false, pacePending := false }) :=
      hs.of_calls (modLine_calls_same s n rfl)
    refine BusRes.Reaches.andThen ?_ fun s hs => rewriteBody_sound hs bad n _
    unfold readIfFull
    dsimp only
    split
    · exact busReadField_sound h1 fun v => h1.of_calls (takeTaken_calls _ n _)
    · exact h1
  · exact h

theorem endRewrite_sound (h : CallsSound P s) (bad : Option Word) (w : Rewrite) :
    (endRewrite bad w s).Reaches (CallsSound P) := by
  refine (busWriteField_sound h bad _ _ _).andThen fun s hs => ?_
  have h1 := hs.of_calls (modLine_calls_same s w.line (f := endRewriteLine w.moved) rfl)
  show CallsSound P (if w.notable then _ else _)
  split
  · exact h1.of_calls rfl
  · exact h1.of_calls rfl

theorem writeHeader_sound (h : CallsSound P s) (bad : Option Word) (stopped : Bool) :
    (writeHeader bad stopped s).Reaches (CallsSound P) := by
  refine (busWriteField_sound h bad _ _ _).andThen fun s hs => ?_
  have h1 : CallsSound P { s with headerPending := false } := hs.of_calls rfl
  refine (BusRes.reaches_busEach (fun s _ hs => busWriteField_sound hs bad _ _ _) _ h1).andThen fun s hs => ?_
  refine (busWrite_sound hs bad _ _).andThen fun s hs => ?_
  exact (busWriteField_sound hs bad _ _ _).andThen fun s hs => hs.of_calls rfl

/-! ### STARTING -/

theorem adoptSlot_sound (h : CallsSound P s) (bad : Option Word) (k : SlotNo) :
    (adoptSlot bad s k).Reaches (CallsSound P) := by
  refine busReadField_sound h fun issue => busReadField_sound h fun comp => ?_
  dsimp only
  split
  · exact h.of_calls rfl
  refine (busWriteField_sound (s := s.modSlot k _) (h.of_calls rfl) bad _ _ _).andThen fun s hs => ?_
  refine (busWriteField_sound hs bad _ _ _).andThen fun s hs => ?_
  refine (busWrite_sound hs bad _ _).andThen fun s hs => ?_
  refine (busWriteField_sound hs bad _ _ _).andThen fun s hs => ?_
  exact (busWriteField_sound hs bad _ _ _).andThen fun s hs => hs.of_calls rfl

theorem fullBody_sound (h : CallsSound P s) (bad : Option Word) (n : LineNo) :
    (fullBody bad n s).Reaches (CallsSound P) := by
  refine (BusRes.reaches_busEach (fun s _ hs => busWrite_sound hs bad _ _) _ h).andThen fun s hs => ?_
  refine (writeEntries_sound bad n _ hs _).andThen fun s hs => ?_
  refine (busWriteField_sound hs bad _ _ _).andThen fun s hs => ?_
  refine (BusRes.reaches_busEach (fun s _ hs => busWriteField_sound hs bad _ _ _) _ hs).andThen fun s hs => ?_
  refine (writeMeasures_sound hs bad n).andThen fun s hs => ?_
  exact (busWriteField_sound hs bad _ _ _).andThen fun s hs => hs.of_calls (modLine_calls_same s n rfl)

theorem adoptLine_sound (h : CallsSound P s) (bad : Option Word) (n : LineNo) :
    (adoptLine bad s n).Reaches (CallsSound P) := by
  refine busReadField_sound h fun v => ?_
  have h1 : CallsSound P (adoptCounts s n (BitVec.ofNat 16 v)) := h.of_calls (modLine_calls_same s n rfl)
  exact (busWriteField_sound h1 bad _ _ _).andThen fun s hs => fullBody_sound hs bad n

theorem enterStarting_sound (h : CallsSound P s) (bad : Option Word) :
    (enterStarting bad s).Reaches (CallsSound P) := by
  have h1 : CallsSound P (latch s) := h.of_calls rfl
  refine (BusRes.reaches_busEach (fun s k hs => adoptSlot_sound hs bad k) allSlots h1).andThen fun s hs => ?_
  refine (BusRes.reaches_busEach (fun s n hs => adoptLine_sound hs bad n) allLines hs).andThen fun s hs => ?_
  exact writeHeader_sound (s := { s with changeCount := s.changeCount + 1 }) (hs.of_calls rfl) bad false

/-! ### Completions, orders and sweeps -/

theorem completeIfDue_sound (h : CallsSound P s) (bad : Option Word) (k : SlotNo) :
    (completeIfDue bad k s).Reaches (CallsSound P) := by
  unfold completeIfDue
  split
  next c _ =>
    have hr : (writeResult bad c s).Reaches (CallsSound P) := by
      unfold writeResult
      split
      · exact busWriteFields_sound bad _ h _
      · exact h
    refine hr.andThen fun s hs => ?_
    refine (busWriteField_sound hs bad _ _ _).andThen fun s hs => ?_
    refine (busWriteField_sound hs bad _ _ _).andThen fun s hs => ?_
    refine (busWrite_sound hs bad _ _).andThen fun s hs => ?_
    exact (busWriteField_sound hs bad _ _ _).andThen fun s hs => hs.of_calls rfl
  · exact h

theorem orderCancel_sound (h : CallsSound P s) (bad : Option Word) (k : SlotNo) (o : OrderRead) :
    (orderCancel bad s k o).Reaches (CallsSound P) := by
  unfold orderCancel
  split
  · dsimp only
    split
    · exact h.of_calls (refuse_calls s k _ _)
    split
    · exact h.of_calls (refuse_calls s k _ _)
    · exact (completeIfDue_sound (abortSlot_sound h _ _ _) bad _).andThen fun s hs =>
        hs.of_calls (complete_calls s k _)
  · exact h.of_calls (refuse_calls s k _ _)

theorem orderLoadProfile_sound (h : CallsSound P s) (bad : Option Word) (k : SlotNo) (o : OrderRead) :
    (orderLoadProfile bad s k o).Reaches (CallsSound P) := by
  unfold orderLoadProfile
  split
  · exact busRead_sound h fun b => h.of_calls (loadProfile_calls s k _ b)
  · exact h.of_calls (refuse_calls s k _ _)

theorem dispatch_sound (h : CallsSound P s) (bad : Option Word) (k : SlotNo) (o : OrderRead) :
    (dispatch bad s k o).Reaches (CallsSound P) := by
  unfold dispatch
  split
  · exact orderAssign_sound h k o
  · exact orderLoadProfile_sound h bad k o
  · exact orderEconomy_sound h k o
  · exact orderSurvey_sound h k o
  · exact orderCalibrate_sound h k o
  · exact h.of_calls (orderSetTrim_calls s k o)
  · exact orderInsulationTest_sound h k o
  · exact h.of_calls (orderClearFault_calls s k o)
  · exact orderListen_sound h k o
  · exact orderReceiverService_sound h k o
  · exact orderReceiverCheck_sound h k o
  · exact h.of_calls (orderTrace_calls s k o)
  · exact orderCancel_sound h bad k o
  · exact h.of_calls (refuse_calls s k _ _)

theorem takeSlot_sound (h : CallsSound P s) (bad : Option Word) (k : SlotNo) :
    (takeSlot bad s k).Reaches (CallsSound P) := by
  unfold takeSlot
  refine busRead_sound h fun b => ?_
  refine (busWriteField_sound h bad _ _ _).andThen fun s hs => ?_
  exact (dispatch_sound (s := s.modSlot k _) (hs.of_calls rfl) bad k _).andThen fun s hs => completeIfDue_sound hs bad k

theorem sweepSlot_sound (h : CallsSound P s) (bad : Option Word) (k : SlotNo) :
    (sweepSlot bad s k).Reaches (CallsSound P) := by
  refine busReadField_sound h fun issue => ?_
  split
  · exact (takeSlot_sound h bad k).andThen fun t ht => ht.of_calls (markChanges_calls s t)
  · exact h

theorem sweepLine_sound (h : CallsSound P s) (bad : Option Word) (n : LineNo) :
    (sweepLine bad s n).Reaches (CallsSound P) := by
  unfold sweepLine
  split
  · exact h
  refine busReadField_sound h fun v => h.of_calls ?_
  unfold markRoom
  split
  · exact (markImage_calls _ n).trans (takeTaken_calls s n _)
  · exact takeTaken_calls s n _

theorem sweepBody_sound (h : CallsSound P s) (bad : Option Word) : (sweepBody bad s).Reaches (CallsSound P) := by
  have h1 : CallsSound P { s with sweeping := true } := h.of_calls rfl
  exact (BusRes.reaches_busEach (fun s k hs => sweepSlot_sound hs bad k) allSlots h1).andThen fun s hs =>
    BusRes.reaches_busEach (fun s n hs => sweepLine_sound hs bad n) allLines hs

theorem callSweep_sound (h : CallsSound P s) (bad : Option Word) : (callSweep bad s).Reaches (CallsSound P) := by
  unfold callSweep
  split
  · split
    · exact h.of_calls rfl
    · exact sweepBody_sound h bad
  · exact h

theorem endSweep_sound (h : CallsSound P s) (bad : Option Word) : (endSweep bad s).Reaches (CallsSound P) := by
  unfold endSweep
  split
  · split
    · exact sweepBody_sound (s := { s with sweepAgain := false }) (h.of_calls rfl) bad
    · exact h.of_calls rfl
  · exact h

/-! ### Exchange states, register writes and resets -/

theorem beginStopping_sound (h : CallsSound P s) : CallsSound P (beginStopping s) := by
  refine abortAll_sound ?_ .stopped .stopped
  exact h.of_calls rfl

theorem endStarting_sound (h : CallsSound P s) (bad : Option Word) : (endStarting bad s).Reaches (CallsSound P) := by
  unfold endStarting
  split
  · dsimp only
    split
    · refine sweepBody_sound ?_ bad
      exact h.of_calls rfl
    · refine beginStopping_sound ?_
      exact h.of_calls rfl
  · exact h

theorem endStopping_sound (h : CallsSound P s) (bad : Option Word) : (endStopping bad s).Reaches (CallsSound P) := by
  unfold endStopping
  split
  · refine (writeHeader_sound h bad true).andThen fun s hs => ?_
    split
    · exact enterStarting_sound hs bad
    · exact hs.of_calls (markChanges_calls s { s with exch := .stopped })
  · exact h

/-- The view after a reset: every line PARKED, no test, every receiver FREE, nobody waiting, no check. -/
def Calls.reset : Calls :=
  { line := fun _ => { service := .parked, sup := .none, rate := .full, receiver := none, calibrating := false },
    tested := fun _ => none, duty := fun _ => .free, waiting := [], checked := none }

theorem CallsSound.of_reset (h : s.calls = Calls.reset) : CallsSound P s := by
  refine ⟨?_, fun _ => ?_⟩
  · rw [h]
    exact ⟨fun _ => ⟨rfl, fun e => (nomatch e), fun e => (nomatch e)⟩, fun _ _ e => nomatch e⟩
  · rw [h]
    refine ⟨⟨List.nodup_nil, List.Pairwise.nil, fun _ _ => ⟨fun e => (nomatch e), fun e => (nomatch e)⟩,
      fun _ hm => (nomatch hm), fun n _ hm => ?_, fun _ e => nomatch e⟩, fun e => absurd rfl e⟩
    rcases hm with hr | hw
    · exact absurd rfl hr
    · cases hw

theorem reset_calls : State.reset.calls = Calls.reset := by
  refine Calls.ext (funext fun n => ?_) (funext fun l => ?_) (funext fun k => ?_) rfl rfl
  · show (State.reset.line n).call = _
    simp [State.line, State.reset, LineRec.reset, LineRec.call, Calls.reset]
  · show (State.reset.link l).tested = _
    simp [State.link, State.reset, LinkRec.reset, LinkRec.tested, Calls.reset]
  · show (State.reset.rcv k).duty = _
    simp [State.rcv, State.reset, RcvState.duty, Calls.reset]

theorem pinReset_sound : CallsSound P (pinReset s) := CallsSound.of_reset reset_calls

theorem softReset_sound : CallsSound P (softReset s) := by
  refine CallsSound.of_reset (Eq.trans ?_ reset_calls)
  refine Calls.ext (funext fun n => ?_) rfl rfl rfl rfl
  show ((softReset s).line n).call = (State.reset.line n).call
  simp [State.line, softReset, State.reset, LineRec.reset, LineRec.call]

theorem writeCtrl_sound (h : CallsSound P s) (bad : Option Word) (v : Word) :
    (writeCtrl bad v s).Reaches (CallsSound P) := by
  unfold writeCtrl
  split
  · exact softReset_sound
  generalize run s = old
  have h1 : CallsSound P { s with ctrl := v &&& Config.ctrlMask } := h.of_calls rfl
  generalize ({ s with ctrl := v &&& Config.ctrlMask } : State) = s1 at h1
  have hmark : ∀ t, CallsSound P t → CallsSound P (markChanges s1 t) := fun t ht => ht.of_calls (markChanges_calls s1 t)
  unfold runChanged
  split
  · split
    · exact enterStarting_sound (hmark _ (periodDecision_sound h1)) bad
    · exact h1
  · show CallsSound P (if _ then _ else _)
    split
    · exact hmark _ (periodDecision_sound h1)
    · exact h1
  · show CallsSound P (if _ then _ else _)
    split
    · exact hmark _ (beginStopping_sound h1)
    · exact h1
  · show CallsSound P (if _ then _ else _)
    split
    · exact h1
    · exact hmark _ (h1.of_calls rfl)
  · exact h1

theorem writeReg_sound (h : CallsSound P s) (bad : Option Word) (r : Reg) (v : Word) :
    CallsSound P (writeReg bad r v s) := by
  unfold writeReg
  split
  · exact h
  · exact settle_sound (writeCtrl_sound h bad v)
  · exact h.of_calls rfl
  · split
    · exact h
    · exact h.of_calls rfl
  · split
    · exact h
    · exact h.of_calls rfl
  · exact (settle_sound (callSweep_sound h bad)).of_calls (markChanges_calls s _)
  · exact h

end Sys2Proof.Machine
end

section
/-! O56 and O58: every command keeps services and pool sound. -/

namespace Sys2Proof.Machine

variable {s t : State} {P : Prop}

/-! ### The shapes of the commands -/

theorem next_sound {u : State} (h : CallsSound P u)
    (e : (.next u : Host.Outcome State Fault Refusal) = .next t) : CallsSound P t :=
  Host.Outcome.next.inj e ▸ h

theorem marked_sound {u : State} (h : CallsSound P u)
    (e : (.next (markChanges s u) : Host.Outcome State Fault Refusal) = .next t) : CallsSound P t :=
  next_sound (h.of_calls (markChanges_calls s u)) e

/-- A step on the bus finds the controller's bytes in the memory, and keeps the calls sound if its effect does. -/
theorem onBus_sound {b : Bus} {f : State → State} (h : CallsSound P s)
    (hf : ∀ s, CallsSound P s → CallsSound P (f s)) (e : onBus b f s = .next t) : CallsSound P t := by
  unfold onBus at e
  split at e
  · exact next_sound (hf (withCtl b s) (h.of_calls rfl)) e
  · cases e

theorem onBusMarked_sound {b : Bus} {f : State → BusRes} (h : CallsSound P s)
    (hf : ∀ s, CallsSound P s → (f s).Reaches (CallsSound P)) (e : onBusMarked b f s = .next t) : CallsSound P t :=
  onBus_sound h (fun s hs => (settle_sound (hf s hs)).of_calls (markChanges_calls s _)) e

/-- What is done only where it is due. -/
theorem CallsSound.ite {u : State} {c : Prop} [Decidable c] (hu : CallsSound P u) (h : CallsSound P s) :
    CallsSound P (if c then u else s) := by
  split
  · exact hu
  · exact h

theorem reaches_ite {r : BusRes} {c : Prop} [Decidable c] (hr : r.Reaches (CallsSound P)) (h : CallsSound P s) :
    (if c then r else .ok s).Reaches (CallsSound P) := by
  split
  · exact hr
  · exact h

/-! ### Every command, every step -/

theorem execRewriteEnd_sound {b : Bus} (h : CallsSound P s) (e : execRewriteEnd b s = .next t) : CallsSound P t := by
  refine onBusMarked_sound h (fun s hs => ?_) e
  split
  · exact reaches_ite (endRewrite_sound hs b.bad _) hs
  · exact hs

theorem execPaceTick_sound {q : Pace} (h : CallsSound P s) (e : execPaceTick q s = .next t) : CallsSound P t :=
  next_sound
    (CallsSound.ite (h.foldl (fun s n hs => CallsSound.ite (hs.of_calls (markPace_calls s n)) hs) allLines) h) e

theorem exec_sound {c : Instr} (h : CallsSound P s) (e : exec c s = .next t) : CallsSound P t := by
  have hcase : ∀ (due : Bool) l p x, CallsSound P (caseStep due s l p x) := fun due l p x =>
    CallsSound.ite (sampleAnswered_sound h l p x) h
  cases c with
  | pinReset => exact next_sound pinReset_sound e
  | softReset v => exact next_sound softReset_sound e
  | runSet v b => exact onBus_sound h (fun s hs => settle_sound (writeCtrl_sound hs b.bad _)) e
  | startingEnd b => exact onBusMarked_sound h (fun s hs => endStarting_sound hs b.bad) e
  | runClear v => exact next_sound (settle_sound (writeCtrl_sound h none _)) e
  | stoppingEnd b => exact onBus_sound h (fun s hs => settle_sound (endStopping_sound hs b.bad)) e
  | haltClear v => exact next_sound (settle_sound (writeCtrl_sound h none _)) e
  | statClear v => exact next_sound (h.of_calls (t := writeStat v s) rfl) e
  | registerWrite r v b => exact onBus_sound h (fun s hs => writeReg_sound hs b.bad r v) e
  | attnWrite b => exact onBusMarked_sound h (fun s hs => callSweep_sound hs b.bad) e
  | pollTick b =>
    exact onBusMarked_sound h
      (fun s hs => reaches_ite (callSweep_sound (s := pollTicked s) (hs.of_calls rfl) b.bad) hs) e
  | sweepEnd b => exact onBusMarked_sound h (fun s hs => endSweep_sound hs b.bad) e
  | completion k b => exact onBusMarked_sound h (fun s hs => reaches_ite (completeIfDue_sound hs b.bad k) hs) e
  | imageRewrite b => exact onBusMarked_sound h (fun s hs => reaches_ite (startRewrite_sound hs b.bad) hs) e
  | rewriteEnd b => exact execRewriteEnd_sound h e
  | headerRewrite b => exact onBusMarked_sound h (fun s hs => reaches_ite (writeHeader_sound hs b.bad false) hs) e
  | masterAccessFailure w => exact next_sound (CallsSound.ite (halt_sound h w) h) e
  | paceTick q => exact execPaceTick_sound h e
  | scanPeriodStart => exact marked_sound (startPeriod_sound h) e
  | sampleReply l p x => exact marked_sound (sampleAnswered_sound h l p x) e
  | interdigitCompletion l p x => exact marked_sound (hcase _ l p x) e
  | longBreakCompletion l p x => exact marked_sound (hcase _ l p x) e
  | clear l p x => exact marked_sound (hcase _ l p x) e
  | lockoutClear l p x => exact marked_sound (hcase _ l p x) e
  | firstDigitTimeout l p x => exact marked_sound (hcase _ l p x) e
  | dialEndTimeout l p x => exact marked_sound (hcase _ l p x) e
  | surveyCompletion l p x => exact marked_sound (hcase _ l p x) e
  | quietDelay l p x => exact marked_sound (hcase _ l p x) e
  | decisionEnd l p x => exact marked_sound (hcase _ l p x) e
  | phaseComplete l p x => exact marked_sound (hcase _ l p x) e
  | exchangeTimeout l => exact marked_sound (timeOut_sound h l) e
  | linkLoss l => exact marked_sound (CallsSound.ite (timeOut_sound h l) h) e
  | unmatchedReply l r => exact next_sound h e
  | probeTimer l => exact marked_sound (h.of_calls (probeTimerEnds_calls s l)) e
  | idleProbe l => exact marked_sound (h.of_calls (idleEnds_calls s l)) e
  | probeReply l c r => exact marked_sound (probeAnswered_sound h l c r) e
  | surgeHoldExpiry l => exact marked_sound (h.of_calls (surgeEnds_calls s l)) e
  | trimReply l a => exact marked_sound (trimAnswered_sound h l a) e
  | relayReply l a => exact marked_sound (relayAnswered_sound h l a) e
  | tapConnectReply l a => exact marked_sound (connectAnswered_sound h l a) e
  | tapDisconnectReply l a => exact marked_sound (disconnectAnswered_sound h l a) e
  | tapClearAllReply l a => exact marked_sound (clearAllAnswered_sound h l a) e
  | guardEnd k => exact marked_sound (h.of_calls (guardEnds_calls s k)) e
  | blockEnd k v => exact marked_sound (blockEnds_sound h k _) e
  | toneAcceptance k v => exact marked_sound (CallsSound.ite (blockEnds_sound h k _) h) e
  | gapEnd k v => exact marked_sound (CallsSound.ite (blockEnds_sound h k _) h) e
  | checkEnd k => exact marked_sound (CallsSound.ite (blockEnds_sound h k _) h) e
  | listenExpiry k => exact marked_sound (CallsSound.ite (expireListen_sound h k) h) e
  | traceExpiry => exact marked_sound (h.of_calls (traceExpires_calls s)) e
  | warbleHalf => exact marked_sound (h.of_calls (warble_calls s)) e

/-- Poll ticks and surge holds that end in a millisecond leave the calls. -/
theorem idle_sound (h : CallsSound P s) : CallsSound P (idle s) := by
  have h1 : ∀ s, CallsSound P s → CallsSound P (if pollDue s then pollTicked s else s) := fun s hs =>
    CallsSound.ite (hs.of_calls rfl) hs
  have h2 : CallsSound P (pollPast s) := h1 _ (h1 s h)
  unfold idle
  extract_lets s1
  have h3 : CallsSound P s1 := h2.foldl (fun s l hs => hs.of_calls (surgeEnds_calls s l)) allLinks
  clear_value s1
  exact h3.of_calls rfl

theorem step_sound (h : CallsSound P s) (e : step s = .next t) : CallsSound P t := by
  unfold step at e
  split at e
  · exact next_sound (idle_sound h) e
  · next c rest _ => exact exec_sound (s := { s with pending := rest }) (h.of_calls rfl) e

/-- Settles O56: services in agreement are an invariant of every step, whatever state the pool is in. -/
theorem stepsKeepTheServicesSound : Obligations.StepsKeepTheServicesSound := by
  intro s t h e
  have hs : CallsSound False s := ⟨servicesSound_iff.mp h, False.elim⟩
  exact servicesSound_iff.mpr (step_sound hs e).services

/-- Settles O58: with services in agreement, the pool in order is an invariant of every step. -/
theorem stepsKeepThePoolSound : Obligations.StepsKeepThePoolSound := by
  intro s t h hp e
  have hs : CallsSound True s := ⟨servicesSound_iff.mp h, fun _ => poolSound_iff.mp hp⟩
  exact poolSound_iff.mpr ((step_sound hs e).pool trivial)

end Sys2Proof.Machine
end

section
/-! SUPPORT. What stage 3 of supervision does to the record of its line (R23, R27, R30, R31, R33, R34, R37, R42), and
the step of a SAMPLE-REPLY whose scan brings a limit about. -/

namespace Sys2Proof.Machine

variable {s : State} {n : LineNo}

/-! ### The record of a line at the limits -/

/-- A line's record without its receiver, mark, fault record and survey: what a limit's transition decides of it. -/
def LineRec.plain (r : LineRec) : LineRec := { r.noRcv with fault := none, survey := none }

/-- Records with the same plain record differ in receiver, mark, fault record and survey alone. -/
theorem eq_of_plain {a b : LineRec} (h : a.plain = b.plain) :
    a = { b with receiver := a.receiver, changePending := a.changePending, fault := a.fault, survey := a.survey } := by
  cases a; cases b; simp_all [LineRec.plain, LineRec.noRcv]

theorem plain_of_noRcv {a b : LineRec} (h : a.noRcv = b.noRcv) : a.plain = b.plain :=
  congrArg (fun r : LineRec => { r with fault := none, survey := none }) h

/-- A line's record after entry to ON_HOOK (R27, R147). -/
def LineRec.hungUp (rate : Rate) (r : LineRec) : LineRec :=
  { clearCounters r with sup := .onHook, pulseSeen := false, quiet := 0, rate := rate }

/-- A line's record after entry to LOCKOUT (R42). -/
def LineRec.lockedOut (r : LineRec) : LineRec :=
  { r with sup := .lockout, make := 0, firstDigit := 0, dialEnd := 0, pulses := 0, ret := none,
           b := if r.accepted = .closed then 0 else r.b }

/-- A line's record in another supervision state. -/
def LineRec.movedTo (y : Sup) (r : LineRec) : LineRec := { r with sup := y }

theorem LineRec.movedTo_self {r : LineRec} {y : Sup} (h : r.sup = y) : r.movedTo y = r := by
  subst h
  rfl

/-- The rate at which a line enters ON_HOOK (R147). -/
def restRate (s : State) (n : LineNo) : Rate := if s.economy && !quietHeld (s.line n) then .quiet else .full

theorem enterOnHook_plain (s : State) (n : LineNo) :
    ((enterOnHook s n).line n).plain = ((s.line n).hungUp (restRate s n)).plain := by
  unfold enterOnHook
  extract_lets was eco s1 s2
  have h1 : s1.line n = (s.line n).hungUp (restRate s n) := State.line_modLine_same _ _ _
  have h2 : (s2.line n).plain = (s1.line n).plain := by
    subst s2
    split
    · rw [faultEvent, State.line_modLine_same]
      rfl
    · rfl
  exact (plain_of_noRcv (leaveCall_noRcv s2 n was n)).trans (h2.trans (congrArg LineRec.plain h1))

theorem enterLockout_plain (s : State) (n : LineNo) :
    ((enterLockout s n).line n).plain = (s.line n).lockedOut.plain := by
  unfold enterLockout
  extract_lets was s1
  have h1 : s1.line n = (s.line n).lockedOut := State.line_modLine_same _ _ _
  exact (plain_of_noRcv (leaveCall_noRcv s1 n was n)).trans (congrArg LineRec.plain h1)

/-! ### What the completion of a digit leaves -/

/-- A line's record without what the completion of a digit moves. -/
def LineRec.undialled (r : LineRec) : LineRec :=
  { r.noRcv with queue := [], lost := 0, lossPending := false, pulses := 0, dialEnd := 0, pulseSeen := false }

theorem LineRec.digitDone_undialled (num : Numbering) (time : Word) (r : LineRec) :
    (r.digitDone num time).undialled = r.undialled := by
  unfold LineRec.digitDone pushEntry
  split <;> rfl

theorem completeDigit_undialled (s : State) (n : LineNo) :
    ((completeDigit s n).line n).undialled = (s.line n).undialled :=
  (congrArg LineRec.undialled (completeDigit_line s n) :).trans (LineRec.digitDone_undialled _ _ _)

theorem completeDigit_conv (s : State) (n : LineNo) : (completeDigit s n).conv n = s.conv n :=
  conv_congr (completeDigit_engine s n) (congrArg LineRec.profile (completeDigit_undialled s n) :)

theorem clearDue_completeDigit (s : State) (n : LineNo) : clearDue (completeDigit s n) n = clearDue s n := by
  have hs : ((completeDigit s n).line n).sup = (s.line n).sup := (completeDigit_standing s n).2
  have ho : openLength ((completeDigit s n).line n) = openLength (s.line n) :=
    (congrArg openLength (completeDigit_undialled s n) :)
  simp only [clearDue, completeDigit_conv, hs, ho]

theorem firstDigitDue_completeDigit (s : State) (n : LineNo) :
    firstDigitDue (completeDigit s n) n = firstDigitDue s n := by
  have hs : ((completeDigit s n).line n).sup = (s.line n).sup := (completeDigit_standing s n).2
  have hr : ((completeDigit s n).line n).ret = (s.line n).ret :=
    (congrArg LineRec.ret (completeDigit_undialled s n) :)
  have hf : ((completeDigit s n).line n).firstDigit = (s.line n).firstDigit :=
    (congrArg LineRec.firstDigit (completeDigit_undialled s n) :)
  simp only [firstDigitDue, completeDigit_conv, hs, hr, hf]

theorem restRate_completeDigit (s : State) (n : LineNo) : restRate (completeDigit s n) n = restRate s n := by
  have he : (completeDigit s n).economy = s.economy := congrArg Engine.economy (completeDigit_engine s n)
  have hq : quietHeld ((completeDigit s n).line n) = quietHeld (s.line n) :=
    (congrArg quietHeld (completeDigit_undialled s n) :)
  simp only [restRate, he, hq]

/-! ### Stage 3 -/

/-- A line's record after a completion of its digit, if one is due. -/
def digitIf (due : Bool) (s : State) (n : LineNo) : LineRec :=
  if due then (s.line n).digitDone (s.conv n).numbering s.time else s.line n

theorem digitIf_noRcv (due : Bool) (s : State) (n : LineNo) :
    ((if due then completeDigit s n else s).line n).noRcv = (digitIf due s n).noRcv := by
  unfold digitIf
  split
  · exact completeDigit_line s n
  · rfl

theorem digitIf_undialled (due : Bool) (s : State) (n : LineNo) :
    (digitIf due s n).undialled = (s.line n).undialled := by
  unfold digitIf
  split
  · exact LineRec.digitDone_undialled _ _ _
  · rfl

/-- Once a digit in progress is completed, none is. -/
theorem digitIf_pulses (s : State) (n : LineNo) : (digitIf (decide (0 < (s.line n).pulses)) s n).pulses = 0 := by
  unfold digitIf
  split
  · rfl
  · next h => simpa using h

/-- A digit in progress that is completed joins the queue as its entry does (R41). -/
theorem digitIf_queue (s : State) (n : LineNo) :
    (digitIf (decide (0 < (s.line n).pulses)) s n).queue
      = if 0 < (s.line n).pulses then
          (pushEntry (s.line n) (pulseSymbol (s.conv n).numbering (s.line n).pulses) .pulse (s.line n).pulses
            s.time).queue
        else (s.line n).queue := by
  unfold digitIf
  simp only [decide_eq_true_eq]
  split <;> rfl

/-- Stage 3 in BREAK: a long break completes its digit; then the line clears, or its first digit times out, or it
stays (R23, R30, R33, R34). -/
theorem limitsInBreak_plain (s : State) (n : LineNo) :
    ((limitsInBreak s n).line n).plain
      = (if clearDue s n then (digitIf (longBreakDue s n) s n).hungUp (restRate s n)
         else if firstDigitDue s n then (digitIf (longBreakDue s n) s n).lockedOut
         else digitIf (longBreakDue s n) s n).plain := by
  have hline := plain_of_noRcv (digitIf_noRcv (longBreakDue s n) s n)
  unfold limitsInBreak
  extract_lets s1
  have hline1 : (s1.line n).plain = (digitIf (longBreakDue s n) s n).plain := hline
  have hsame : clearDue s1 n = clearDue s n ∧ firstDigitDue s1 n = firstDigitDue s n
      ∧ restRate s1 n = restRate s n := by
    subst s1
    split
    · exact ⟨clearDue_completeDigit s n, firstDigitDue_completeDigit s n, restRate_completeDigit s n⟩
    · exact ⟨rfl, rfl, rfl⟩
  obtain ⟨hclear, hfirst, hrate⟩ := hsame
  rw [hclear, hfirst]
  split
  · refine (enterOnHook_plain s1 n).trans ?_
    rw [hrate]
    exact (congrArg (LineRec.hungUp (restRate s n)) hline1 :)
  split
  · exact (enterLockout_plain s1 n).trans (congrArg LineRec.lockedOut hline1 :)
  · exact hline1

/-- The dial-end timeout completes a digit in progress, and the line is HELD (R31). -/
theorem dialEndTimesOut_plain (s : State) (n : LineNo) :
    ((dialEndTimesOut s n).line n).plain
      = ((digitIf (decide (0 < (s.line n).pulses)) s n).movedTo .held).plain := by
  have hline := plain_of_noRcv (digitIf_noRcv (decide (0 < (s.line n).pulses)) s n)
  simp only [decide_eq_true_eq] at hline
  unfold dialEndTimesOut
  extract_lets s1 s2
  have h2 : (s2.line n).plain = ((digitIf (decide (0 < (s.line n).pulses)) s n).movedTo .held).plain :=
    (congrArg LineRec.plain (State.line_modLine_same s1 n _)).trans (congrArg (LineRec.movedTo .held) hline :)
  split
  · exact (plain_of_noRcv (policyRelease_noRcv s2 n n)).trans h2
  · exact h2

theorem interdigitDue_iff : interdigitDue s n = true ↔
    (s.line n).sup = .dialling ∧ 0 < (s.line n).pulses ∧ (s.conv n).interdigit ≤ (s.line n).make := by
  simp only [interdigitDue, Bool.and_eq_true, decide_eq_true_eq, and_assoc]

/-- The completed digit of an interdigit pause: DIALLING with the dial-end counter at 0, which times out on this scan
only under a limit of 0 (R37; log 43). -/
theorem testLimits_interdigit (h : interdigitDue s n = true) :
    ((testLimits s n).line n).plain
      = (((s.line n).digitDone (s.conv n).numbering s.time).movedTo
          (if 0 < (s.conv n).dialEnd then .dialling else .held)).plain := by
  have hsup := (interdigitDue_iff.mp h).1
  have hline := completeDigit_line s n
  have hsup1 : ((completeDigit s n).line n).sup = .dialling := (completeDigit_standing s n).2.trans hsup
  have hend : ((completeDigit s n).line n).dialEnd = 0 := (congrArg LineRec.dialEnd hline :)
  have hpulses : ((completeDigit s n).line n).pulses = 0 := (congrArg LineRec.pulses hline :)
  have hdue : dialEndDue (completeDigit s n) n = decide ((s.conv n).dialEnd = 0) := by
    simp [dialEndDue, hsup1, hend, completeDigit_conv]
  rw [show testLimits s n = limitsInDialling s n by rw [testLimits, hsup], limitsInDialling, if_pos h, hdue]
  by_cases hlim : (s.conv n).dialEnd = 0
  · have hnone : digitIf (decide (0 < ((completeDigit s n).line n).pulses)) (completeDigit s n) n
        = (completeDigit s n).line n := by rw [hpulses]; rfl
    simp only [hlim, decide_true, if_true, Nat.lt_irrefl, if_false]
    refine (dialEndTimesOut_plain _ n).trans ?_
    rw [hnone]
    exact (congrArg (LineRec.movedTo .held) (plain_of_noRcv hline) :)
  · simp only [hlim, decide_false, Bool.false_eq_true, if_false, Nat.pos_of_ne_zero hlim, if_true]
    rw [← LineRec.movedTo_self hsup1]
    exact (congrArg (LineRec.movedTo .dialling) (plain_of_noRcv hline) :)

/-- A dial-end timeout, whether or not an interdigit completion comes first: the line is HELD, and a digit in progress
was completed (R23, R31, R37). -/
theorem testLimits_dialEnd (h : dialEndReached s n = true) :
    ((testLimits s n).line n).plain = ((digitIf (decide (0 < (s.line n).pulses)) s n).movedTo .held).plain := by
  have hdue := h
  unfold dialEndReached at hdue
  by_cases hi : interdigitDue s n = true
  · obtain ⟨hsup, hpulses, -⟩ := interdigitDue_iff.mp hi
    have hend : ((completeDigit s n).line n).dialEnd = 0 := (congrArg LineRec.dialEnd (completeDigit_line s n) :)
    rw [if_pos hi] at hdue
    simp only [dialEndDue, hend, completeDigit_conv, Bool.and_eq_true, decide_eq_true_eq, Nat.le_zero] at hdue
    rw [testLimits_interdigit hi, hdue.2, decide_eq_true hpulses]
    rfl
  · rw [if_neg hi] at hdue
    have hsup : (s.line n).sup = .dialling := by
      simp only [dialEndDue, Bool.and_eq_true, decide_eq_true_eq] at hdue
      exact hdue.1
    rw [show testLimits s n = limitsInDialling s n by rw [testLimits, hsup], limitsInDialling, if_neg hi, if_pos hdue]
    exact dialEndTimesOut_plain s n

theorem longBreakDue_sup (h : longBreakDue s n = true) : (s.line n).sup = .brk := by
  simp only [longBreakDue, Bool.and_eq_true, decide_eq_true_eq] at h
  exact h.1.1

/-- A long break completes its digit, whatever limit comes after it (R34). -/
theorem testLimits_longBreak (h : longBreakDue s n = true) :
    ((testLimits s n).line n).plain
      = (if clearDue s n then ((s.line n).digitDone (s.conv n).numbering s.time).hungUp (restRate s n)
         else if firstDigitDue s n then ((s.line n).digitDone (s.conv n).numbering s.time).lockedOut
         else (s.line n).digitDone (s.conv n).numbering s.time).plain := by
  have hsup := longBreakDue_sup h
  rw [show testLimits s n = limitsInBreak s n by rw [testLimits, hsup], limitsInBreak_plain, h]
  rfl

/-- A clear of a line in BREAK (R33). -/
theorem testLimits_clear (h : clearDue s n = true) :
    ((testLimits s n).line n).plain = ((digitIf (longBreakDue s n) s n).hungUp (restRate s n)).plain := by
  have hsup : (s.line n).sup = .brk := by
    simp only [clearDue, Bool.and_eq_true, decide_eq_true_eq] at h
    exact h.1
  rw [show testLimits s n = limitsInBreak s n by rw [testLimits, hsup], limitsInBreak_plain, if_pos h]

/-- A clear of a line in LOCKOUT (R42). -/
theorem testLimits_lockoutClear (h : lockoutClearDue s n = true) :
    ((testLimits s n).line n).plain = ((s.line n).hungUp (restRate s n)).plain := by
  have hsup : (s.line n).sup = .lockout := by
    simp only [lockoutClearDue, Bool.and_eq_true, decide_eq_true_eq] at h
    exact h.1
  rw [show testLimits s n = enterOnHook s n by rw [testLimits, hsup]; exact if_pos h, enterOnHook_plain]

/-- A first-digit timeout, in SEIZED or in a break of it that does not clear (R30). -/
theorem testLimits_firstDigit (h : firstDigitReached s n = true) :
    ((testLimits s n).line n).plain = (digitIf (longBreakDue s n) s n).lockedOut.plain := by
  simp only [firstDigitReached, Bool.and_eq_true, Bool.not_eq_true'] at h
  obtain ⟨hdue, hclear⟩ := h
  have hsup : (s.line n).sup = .seized ∨ (s.line n).sup = .brk := by
    simp only [firstDigitDue, Bool.and_eq_true, Bool.or_eq_true, decide_eq_true_eq] at hdue
    exact hdue.1.imp id And.left
  rcases hsup with hseized | hbrk
  · have hno : longBreakDue s n = false := by simp [longBreakDue, hseized]
    rw [show testLimits s n = enterLockout s n by rw [testLimits, hseized]; exact if_pos hdue, enterLockout_plain, hno]
    rfl
  · rw [show testLimits s n = limitsInBreak s n by rw [testLimits, hbrk], limitsInBreak_plain, hclear, if_pos hdue]
    rfl

/-! ### The step whose scan brings a limit about -/

/-- What the step of such a scan leaves: of its line what stage 3 of supervision does, of the others at most their
receivers. -/
structure LimitStep (s : State) (l : LinkNo) (p : PairNo) (x : Sample) (t : State) : Prop where
  line : (t.line (lineAt l p)).plain
    = ((testLimits (scanFront (atReply s l x) (lineAt l p) x) (lineAt l p)).line (lineAt l p)).plain
  service : (t.line (lineAt l p)).service = .active
  others : ∀ m, m ≠ lineAt l p → sameButReceiver (t.line m) (s.line m)
  engine : t.engine = s.engine

/-- A case of a scan is the step of its SAMPLE-REPLY. -/
theorem stepMarked_replyCase {due : State → LineNo → ScanOutcome → Bool} {v : Service} {l : LinkNo} {p : PairNo}
    {x : Sample} (h : replyCase due v s l p x = true) :
    stepMarked (fun s => caseStep (replyCase due v s l p x) s l p x) s = exec (.sampleReply l p x) s := by
  show _ = stepMarked (fun s => sampleAnswered s l p x) s
  simp only [stepMarked, caseStep, h, if_true]

theorem surveyScan_plain (s : State) (n : LineNo) (out : ScanOutcome) :
    ((surveyScan s n out).line n).plain = (s.line n).plain :=
  (congrArg LineRec.plain (surveyScan_line s n out) :)

/-- A limit that the scan of a SAMPLE-REPLY reaches: the reply matches, its line is ACTIVE, the scan is ACCEPTED, and
stage 3 finds the limit. -/
structure LimitCase (due : State → LineNo → Bool) (s : State) (l : LinkNo) (p : PairNo) (x : Sample) : Prop where
  exchange : (s.link l).exchange = some (.sample p)
  active : (s.line (lineAt l p)).service = .active
  surge : x.surge = false
  hold : surgeInForce s l = false
  testRange : x.testRange = false
  due : due (scanFront (atReply s l x) (lineAt l p) x) (lineAt l p) = true

theorem limitCase_spec {due : State → LineNo → Bool} {l : LinkNo} {p : PairNo} {x : Sample}
    (h : replyCase (atLimits due) .active s l p x = true) : LimitCase due s l p x := by
  simp only [replyCase, Bool.and_eq_true, decide_eq_true_eq, atReply_line] at h
  obtain ⟨⟨hex, hv⟩, hd⟩ := h
  unfold atLimits at hd
  split at hd
  · next y hout =>
    obtain ⟨hx, hh, ht⟩ := replyOutcome_accepted hout
    have hr : atReply s l x = replyTaken s l := by simp [atReply, surgeStep, hx]
    rw [linkOf_lineAt, hr, surgeInForce_replyTaken] at hh
    rw [atReply_line, hv] at ht
    have htr : x.testRange = false := Bool.eq_false_of_not_eq_true fun e => nomatch ht e
    have hxy : x = y := by
      simp only [replyOutcome, hx, hr, linkOf_lineAt, surgeInForce_replyTaken, hh, htr, Bool.false_eq_true, if_false,
        false_and] at hout
      exact ScanOutcome.accepted.inj hout
    exact ⟨hex, hv, hx, hh, htr, hxy ▸ hd⟩
  · cases hd
  · cases hd

theorem limitCase_step {due : State → LineNo → Bool} {l : LinkNo} {p : PairNo} {x : Sample}
    (h : replyCase (atLimits due) .active s l p x = true) :
    ∃ t, exec (.sampleReply l p x) s = .next t ∧ LimitStep s l p x t := by
  obtain ⟨hex, hv, hx, hh, ht, -⟩ := limitCase_spec h
  have hr : atReply s l x = replyTaken s l := by simp [atReply, surgeStep, hx]
  refine ⟨_, exec_sampleReply x hex, ?_, ?_, fun m hm => scanStep_others s l p x hm, scanStep_engine s l p x⟩
  · rw [plain_of_noRcv (markChanges_line_noRcv _ _ _), advanceLink_line, takeSample_accepted hv hx hh ht, hr]
    exact surveyScan_plain _ (lineAt l p) (.accepted x)
  · refine (congrArg LineRec.service (scanStep_measured hv hx hh ht) :).trans ?_
    exact (congrArg LineRec.service (scanned_unclassified _ _ x _) :).trans hv

/-! ### What the first two stages leave -/

theorem atReply_engine (s : State) (l : LinkNo) (x : Sample) : (atReply s l x).engine = s.engine :=
  (congrArg State.engine (atReply_frame s l x) :)

/-- Stages 1 and 2 of supervision leave the line's profile, service and survey. -/
theorem scanFront_line (s : State) (n : LineNo) (x : Sample) :
    ((scanFront s n x).line n).profile = (s.line n).profile ∧ ((scanFront s n x).line n).service = (s.line n).service
      ∧ ((scanFront s n x).line n).survey = (s.line n).survey := by
  have h := (line_unsupervised (testLimits_unsupervised (scanFront s n x) n) n).symm.trans
    (testLimits_scanFront_line s n x)
  have hm := scanned_unclassified (s.conv n) s.time x (s.line n)
  exact ⟨(congrArg LineRec.profile h :).trans (congrArg LineRec.profile hm :),
    (congrArg LineRec.service h :).trans (congrArg LineRec.service hm :),
    (congrArg LineRec.survey h :).trans (congrArg LineRec.survey hm :)⟩

theorem conv_atLimits (s : State) (l : LinkNo) (n : LineNo) (x : Sample) :
    (scanFront (atReply s l x) n x).conv n = s.conv n :=
  conv_congr ((scanFront_engine _ n x).trans (atReply_engine s l x))
    ((scanFront_line _ n x).1.trans (congrArg LineRec.profile (atReply_line s l x n)))

theorem time_atLimits (s : State) (l : LinkNo) (n : LineNo) (x : Sample) :
    (scanFront (atReply s l x) n x).time = s.time :=
  (congrArg Engine.time ((scanFront_engine _ n x).trans (atReply_engine s l x)) :)

/-- The rate of an ACTIVE line that goes ON_HOOK: QUIET under the economy flag, unless a survey holds it (R147). -/
theorem restRate_atLimits (hv : (s.line n).service = .active) (l : LinkNo) (x : Sample) :
    restRate (scanFront (atReply s l x) n x) n
      = if s.economy = true ∧ (s.line n).survey = none then .quiet else .full := by
  have he : (scanFront (atReply s l x) n x).economy = s.economy :=
    (congrArg Engine.economy ((scanFront_engine _ n x).trans (atReply_engine s l x)) :)
  obtain ⟨-, hserv, hsurv⟩ := scanFront_line (atReply s l x) n x
  rw [atReply_line] at hserv hsurv
  have hq : quietHeld ((scanFront (atReply s l x) n x).line n) = (s.line n).survey.isSome := by
    simp [quietHeld, hserv, hsurv, hv]
  rw [restRate, he, hq]
  simp only [Bool.and_eq_true, Bool.not_eq_true', Option.isSome_eq_false_iff, Option.isNone_iff_eq_none]

end Sys2Proof.Machine
end

section
/-! O32 and O33: the scans that bring the limits of a call about. -/

namespace Sys2Proof.Machine

variable {s t : State} {l : LinkNo} {p : PairNo} {x : Sample}

/-! ### O32: completed digits -/

/-- The first record holds the digits of the second, and none in progress. -/
structure LineRec.SameDigits (a b : LineRec) : Prop where
  pulses : a.pulses = 0
  queue : a.queue = b.queue
  lost : a.lost = b.lost
  lossPending : a.lossPending = b.lossPending

theorem LineRec.SameDigits.of_plain {a x b : LineRec} (hx : x.SameDigits b) (h : a.plain = x.plain) :
    a.SameDigits b :=
  ⟨(congrArg LineRec.pulses h :).trans hx.pulses, (congrArg LineRec.queue h :).trans hx.queue,
    (congrArg LineRec.lost h :).trans hx.lost, (congrArg LineRec.lossPending h :).trans hx.lossPending⟩

/-- A completed digit joins the queue with the LOSS that was pending, or is lost while the queue is full (R41,
R159). -/
theorem LineRec.SameDigits.joins {a r : LineRec} {num : Numbering} {time : Word}
    (h : a.SameDigits (r.digitDone num time)) :
    a.pulses = 0
    ∧ (r.queue.length < 16 → a.lost = r.lost ∧ a.lossPending = false
        ∧ a.queue = r.queue ++ [{ symbol := pulseSymbol num r.pulses, source := .pulse, pulses := r.pulses,
                                  loss := r.lossPending, time := time }])
    ∧ (16 ≤ r.queue.length → a.queue = r.queue ∧ a.lossPending = true ∧ a.lost = min (r.lost + 1) 65535) := by
  obtain ⟨hp, hq, hl, hlp⟩ := h
  rw [hq, hl, hlp]
  refine ⟨hp, fun hroom => ?_, fun hfull => ?_⟩
  · rw [LineRec.digitDone, pushEntry_room hroom]
    exact ⟨rfl, rfl, rfl⟩
  · rw [LineRec.digitDone, pushEntry_full hfull]
    exact ⟨rfl, rfl, rfl⟩

theorem testLimits_interdigit_digits {f : State} {n : LineNo} (h : interdigitDue f n = true) :
    ((testLimits f n).line n).SameDigits ((f.line n).digitDone (f.conv n).numbering f.time) := by
  refine LineRec.SameDigits.of_plain ?_ (testLimits_interdigit h)
  exact ⟨rfl, rfl, rfl, rfl⟩

/-- Neither a clear nor a first-digit timeout after a long break touches the digits. -/
theorem testLimits_longBreak_digits {f : State} {n : LineNo} (h : longBreakDue f n = true) :
    ((testLimits f n).line n).SameDigits ((f.line n).digitDone (f.conv n).numbering f.time) := by
  refine LineRec.SameDigits.of_plain ?_ (testLimits_longBreak h)
  split
  · exact ⟨rfl, rfl, rfl, rfl⟩
  split
  · exact ⟨rfl, rfl, rfl, rfl⟩
  · exact ⟨rfl, rfl, rfl, rfl⟩

/-- The step of a completion has the digits that stage 3 leaves, with the symbol and the time of the state before. -/
theorem LimitStep.sameDigits (h : LimitStep s l p x t)
    (hd : let n := lineAt l p
      let f := scanFront (atReply s l x) n x
      ((testLimits f n).line n).SameDigits ((f.line n).digitDone (f.conv n).numbering f.time)) :
    let n := lineAt l p
    (t.line n).SameDigits (((scanFront (atReply s l x) n x).line n).digitDone (s.conv n).numbering s.time) := by
  have ht := hd.of_plain h.line
  rwa [conv_atLimits, time_atLimits] at ht

/-- Settles O32: both completions leave the line with the digits of `digitDone`, and the states that follow touch no
digit. -/
theorem completedDigitsJoinTheQueue : Obligations.CompletedDigitsJoinTheQueue := by
  intro l p x s c n f r hcase
  have hconv : f.conv n = s.conv n := conv_atLimits s l n x
  rcases hcase with ⟨rfl, h⟩ | ⟨rfl, h⟩
  · obtain ⟨t, hexec, hstep⟩ := limitCase_step h
    have hdue : interdigitDue f n = true := (limitCase_spec h).due
    obtain ⟨hpulses, hroom, hfull⟩ := (hstep.sameDigits (testLimits_interdigit_digits hdue)).joins
    have hline : (t.line n).plain = ((testLimits f n).line n).plain := hstep.line
    refine ⟨t, (stepMarked_replyCase h).trans hexec, hpulses, hroom, hfull, fun _ hlim => ?_, fun e => (nomatch e),
      hstep.others, hstep.engine⟩
    clear_value f
    rw [testLimits_interdigit hdue, hconv, if_pos hlim] at hline
    exact ⟨(congrArg LineRec.sup hline :), (congrArg LineRec.dialEnd hline :), (congrArg LineRec.pulseSeen hline :)⟩
  · obtain ⟨t, hexec, hstep⟩ := limitCase_step h
    have hdue : longBreakDue f n = true := (limitCase_spec h).due
    obtain ⟨hpulses, hroom, hfull⟩ := (hstep.sameDigits (testLimits_longBreak_digits hdue)).joins
    have hline : (t.line n).plain = ((testLimits f n).line n).plain := hstep.line
    refine ⟨t, (stepMarked_replyCase h).trans hexec, hpulses, hroom, hfull, fun e => (nomatch e),
      fun _ hclear hfirst => ?_, hstep.others, hstep.engine⟩
    clear_value f
    rw [testLimits_longBreak hdue, if_neg (ne_true_of_eq_false hclear), if_neg (ne_true_of_eq_false hfirst)] at hline
    exact (congrArg LineRec.sup hline :).trans
      ((congrArg LineRec.sup (LineRec.digitDone_undialled _ _ (f.line n)) :).trans (longBreakDue_sup hdue))

/-! ### O33: clears and timeouts -/

/-- The record of a clear, of a line in BREAK or in LOCKOUT. -/
theorem hungUp_fields {a r : LineRec} {rate : Rate} (h : a.plain = (r.hungUp rate).plain) :
    a.sup = .onHook ∧ a.b = 0 ∧ a.make = 0 ∧ a.firstDigit = 0 ∧ a.dialEnd = 0 ∧ a.pulses = 0 ∧ a.pulseSeen = false
      ∧ a.ret = none ∧ a.quiet = 0 ∧ a.rate = rate := by
  rw [eq_of_plain h]
  exact ⟨rfl, rfl, rfl, rfl, rfl, rfl, rfl, rfl, rfl, rfl⟩

theorem movedTo_fields {a r : LineRec} {y : Sup} (h : a.plain = (r.movedTo y).plain) :
    a.sup = y ∧ a.pulses = r.pulses ∧ a.queue = r.queue := by
  rw [eq_of_plain h]
  exact ⟨rfl, rfl, rfl⟩

/-- A step whose scan takes its line ON_HOOK leaves what R33 and R42 say of a clear. -/
theorem LimitStep.clears (h : LimitStep s l p x t) (hv : (s.line (lineAt l p)).service = .active)
    {r : LineRec}
    (hline : ((testLimits (scanFront (atReply s l x) (lineAt l p) x) (lineAt l p)).line (lineAt l p)).plain
      = (r.hungUp (restRate (scanFront (atReply s l x) (lineAt l p) x) (lineAt l p))).plain) :
    let n := lineAt l p
    (t.line n).sup = .onHook ∧ (t.line n).service = .active
      ∧ (t.line n).b = 0 ∧ (t.line n).make = 0 ∧ (t.line n).firstDigit = 0 ∧ (t.line n).dialEnd = 0
      ∧ (t.line n).pulses = 0 ∧ (t.line n).pulseSeen = false ∧ (t.line n).ret = none
      ∧ (t.line n).quiet = 0
      ∧ (t.line n).rate = (if s.economy = true ∧ (s.line n).survey = none then .quiet else .full)
      ∧ (∀ m, m ≠ n → sameButReceiver (t.line m) (s.line m))
      ∧ t.engine = s.engine := by
  obtain ⟨hsup, hb, hm, hf, hd, hp, hps, hr, hq, hrate⟩ := hungUp_fields (h.line.trans hline)
  exact ⟨hsup, h.service, hb, hm, hf, hd, hp, hps, hr, hq, hrate.trans (restRate_atLimits hv l x), h.others, h.engine⟩

/-- Settles O33: each limit's step is the reply's, and stage 3 leaves the record that the limit's rule gives. -/
theorem clearsAndTimeoutsEndTheCall : Obligations.ClearsAndTimeoutsEndTheCall := by
  constructor
  · intro l p x s c n hcase
    rcases hcase with ⟨rfl, h⟩ | ⟨rfl, h⟩
    · obtain ⟨t, hexec, hstep⟩ := limitCase_step h
      have hcase := limitCase_spec h
      exact ⟨t, (stepMarked_replyCase h).trans hexec, hstep.clears hcase.active (testLimits_clear hcase.due)⟩
    · obtain ⟨t, hexec, hstep⟩ := limitCase_step h
      have hcase := limitCase_spec h
      exact ⟨t, (stepMarked_replyCase h).trans hexec, hstep.clears hcase.active (testLimits_lockoutClear hcase.due)⟩
  · intro l p x s n r
    have hconv := conv_atLimits s l n x
    have htime := time_atLimits s l n x
    refine ⟨fun h => ?_, fun h => ?_⟩
    · obtain ⟨t, hexec, hline, -, hothers, hengine⟩ := limitCase_step h
      have ht := hline.trans (testLimits_firstDigit (limitCase_spec h).due)
      refine ⟨t, (stepMarked_replyCase h).trans hexec, ?_⟩
      subst r
      change (t.line n).plain = _ at ht
      generalize scanFront (atReply s l x) n x = f at ht ⊢
      have hb := (congrArg LineRec.b ht :).trans
        (congrArg (fun r : LineRec => r.lockedOut.b) (digitIf_undialled (longBreakDue f n) f n) :)
      exact ⟨(congrArg LineRec.sup ht :), (congrArg LineRec.ret ht :), (congrArg LineRec.pulses ht :),
        (congrArg LineRec.make ht :), (congrArg LineRec.firstDigit ht :), (congrArg LineRec.dialEnd ht :), hb, hothers,
        hengine⟩
    · obtain ⟨t, hexec, hline, -, hothers, hengine⟩ := limitCase_step h
      have ht := hline.trans (testLimits_dialEnd (limitCase_spec h).due)
      refine ⟨t, (stepMarked_replyCase h).trans hexec, ?_⟩
      rw [← hconv, ← htime]
      subst r
      change (t.line n).plain = _ at ht
      generalize scanFront (atReply s l x) n x = f at ht ⊢
      obtain ⟨hsup, hpulses, hqueue⟩ := movedTo_fields ht
      exact ⟨hsup, hpulses.trans (digitIf_pulses f n), hqueue.trans (digitIf_queue f n), hothers, hengine⟩

end Sys2Proof.Machine
end

section
/-! SUPPORT. The detection of a receiver that does not hear stays reset (R50, R52, R67). Receiver and detection
records are all that it rests on, and of the operations on the records none but the three of the pool moves them:
a receiver that is moved is reset with the move, and only one that then hears is set to listen. Here the records,
the pool and supervision. -/

namespace Sys2Proof.Machine

variable {s t : State}

/-! ### Updates of the records -/

/-- Neither a receiver nor a detection record changes. -/
theorem detectionIdle.of_frame (h : detectionIdle s) (hr : t.rcvs = s.rcvs) (hd : t.dets = s.dets) :
    detectionIdle t := by
  have hrcv (k : RcvNo) : t.rcv k = s.rcv k := by simp only [State.rcv, hr]
  have hdet (k : RcvNo) : t.det k = s.det k := by simp only [State.det, hd]
  intro k hk
  rw [hdet]
  refine h k ?_
  simpa only [hears, hrcv] using hk

theorem detectionIdle_congr (hr : t.rcvs = s.rcvs) (hd : t.dets = s.dets) :
    detectionIdle t ↔ detectionIdle s :=
  ⟨fun h => h.of_frame hr.symm hd.symm, fun h => h.of_frame hr hd⟩

@[simp] theorem modLine_detIdle (n : LineNo) (f : LineRec → LineRec) :
    detectionIdle (s.modLine n f) ↔ detectionIdle s := Iff.rfl

@[simp] theorem modLink_detIdle (l : LinkNo) (f : LinkRec → LinkRec) :
    detectionIdle (s.modLink l f) ↔ detectionIdle s := Iff.rfl

@[simp] theorem modSlot_detIdle (k : SlotNo) (f : SlotRec → SlotRec) :
    detectionIdle (s.modSlot k f) ↔ detectionIdle s := Iff.rfl

@[simp] theorem setProfile_detIdle (p : ProfNo) (e : ProfEntry) :
    detectionIdle (s.setProfile p e) ↔ detectionIdle s := Iff.rfl

/-- A receiver moved to a state that it enters with reset detection. -/
theorem setRcv_detIdle (h : detectionIdle s) (k : RcvNo) (r : RcvState) : detectionIdle (s.setRcv k r) := by
  intro j hj
  rw [State.det_setRcv_ite]
  split
  · rfl
  · next hne =>
    refine h j ?_
    rwa [hears, State.rcv_setRcv_other s hne] at hj

/-- A receiver moved to LISTENING or CHECKING hears. -/
theorem startListening_detIdle (h : detectionIdle s) (k : RcvNo) {r : RcvState}
    (hr : hears (s.startListening k r) k = true) : detectionIdle (s.startListening k r) := by
  intro j hj
  have hne : j ≠ k := by
    rintro rfl
    simp [hr] at hj
  rw [State.det_startListening_other s hne]
  refine h j ?_
  rwa [hears, State.rcv_startListening_other s hne] at hj

/-- A block end of a receiver that hears. -/
theorem setDet_detIdle (h : detectionIdle s) {k : RcvNo} (hk : hears s k = true) (d : Det) :
    detectionIdle (s.setDet k d) := by
  intro j hj
  have hne : j ≠ k := by
    rintro rfl
    exact absurd (hk.symm.trans hj) (by decide)
  rw [State.det_setDet_other s hne]
  exact h j hj

theorem detectionIdle.foldl {α : Type} {f : State → α → State}
    (hf : ∀ s x, detectionIdle s → detectionIdle (f s x)) (l : List α) (h : detectionIdle s) :
    detectionIdle (l.foldl f s) :=
  List.foldlRecOn l f h fun s hs x _ => hf s x hs

/-! ### Marks -/

@[simp] theorem markImage_detIdle (n : LineNo) : detectionIdle (markImage s n) ↔ detectionIdle s := by
  rw [markImage_eq]; rfl

@[simp] theorem markPace_detIdle (n : LineNo) : detectionIdle (markPace s n) ↔ detectionIdle s := by
  rw [markPace_eq]; rfl

@[simp] theorem markChanges_detIdle (a : State) : detectionIdle (markChanges a s) ↔ detectionIdle s :=
  detectionIdle_congr (congrArg State.rcvs (markChanges_rest a s) :) (congrArg State.dets (markChanges_rest a s) :)

theorem detectionIdle.eachLine {f : State → LineNo → State}
    (hf : ∀ s n, detectionIdle s → detectionIdle (f s n)) (h : detectionIdle s) (l : List LineNo) :
    detectionIdle (eachLine f l s) := by
  refine h.foldl (fun s n hs => ?_) l
  split
  · simpa using hf s n hs
  · exact hf s n hs

@[simp] theorem setReceiver_detIdle (n : LineNo) (k : Option RcvNo) :
    detectionIdle (setReceiver s n k) ↔ detectionIdle s :=
  detectionIdle_congr (setReceiver_rcvs s n k) (setReceiver_dets s n k)

/-! ### Orders, frames and fault records -/

@[simp] theorem endOrder_detIdle (k : SlotNo) (c : Completion) :
    detectionIdle (endOrder s k c) ↔ detectionIdle s := by
  unfold endOrder; split <;> rfl

@[simp] theorem finish_detIdle (k : SlotNo) (o : OrderOutcome) (r : Reason) (d : List Nat) :
    detectionIdle (finish s k o r d) ↔ detectionIdle s := endOrder_detIdle k _

@[simp] theorem refuse_detIdle (k : SlotNo) (r : Reason) (d : List Nat) :
    detectionIdle (refuse s k r d) ↔ detectionIdle s := finish_detIdle k _ r d

@[simp] theorem complete_detIdle (k : SlotNo) (d : List Nat) :
    detectionIdle (complete s k d) ↔ detectionIdle s := finish_detIdle k _ _ d

@[simp] theorem takeFlight_detIdle (k : SlotNo) (f : Flight) :
    detectionIdle (takeFlight s k f) ↔ detectionIdle s := Iff.rfl

@[simp] theorem placeFrame_detIdle (l : LinkNo) (f : Frame) :
    detectionIdle (placeFrame s l f) ↔ detectionIdle s := by
  unfold placeFrame; split <;> rfl

@[simp] theorem withdrawFrame_detIdle (l : LinkNo) (f : Frame) :
    detectionIdle (withdrawFrame s l f) ↔ detectionIdle s := Iff.rfl

@[simp] theorem placeTrim_detIdle (n : LineNo) (r : TrimRange) (c : TrimCode) (o : TrimOwner) :
    detectionIdle (placeTrim s n r c o) ↔ detectionIdle s := placeFrame_detIdle _ _

@[simp] theorem placeRelay_detIdle (n : LineNo) (c : RelayCfg) (o : RelayOwner) :
    detectionIdle (placeRelay s n c o) ↔ detectionIdle s := placeFrame_detIdle _ _

@[simp] theorem faultEvent_detIdle (n : LineNo) (kind : Cls) :
    detectionIdle (faultEvent s n kind) ↔ detectionIdle s := Iff.rfl

@[simp] theorem restoreFault_detIdle (n : LineNo) :
    detectionIdle (restoreFault s n) ↔ detectionIdle s := Iff.rfl

@[simp] theorem restoreMinor_detIdle (n : LineNo) :
    detectionIdle (restoreMinor s n) ↔ detectionIdle s := Iff.rfl

/-! ### Grants and releases -/

@[simp] theorem modListen_detIdle (k : SlotNo) (f : ListenCtx → ListenCtx) :
    detectionIdle (modListen s k f) ↔ detectionIdle s := Iff.rfl

theorem grant_detIdle (h : detectionIdle s) (e : WaitEntry) (k : RcvNo) : detectionIdle (grant s e k) := by
  have hk := setRcv_detIdle h k (.connecting e (tapOf e.line) .queued)
  simp only [grant, placeFrame_detIdle, setReceiver_detIdle]
  split
  · exact hk
  · exact hk

theorem grantLoop_detIdle (fuel : Nat) (h : detectionIdle s) : detectionIdle (grantLoop fuel s) := by
  induction fuel generalizing s with
  | zero => exact h
  | succ fuel ih =>
    unfold grantLoop
    split
    · next e rest k _ _ => exact ih (grant_detIdle (s := { s with waiting := rest }) h e k)
    · exact h

theorem grantTest_detIdle (h : detectionIdle s) : detectionIdle (grantTest s) := grantLoop_detIdle 8 h

theorem join_detIdle (h : detectionIdle s) (n : LineNo) : detectionIdle (join s n) := by
  unfold join
  split
  · refine grantTest_detIdle ?_
    exact h
  · exact h

theorem releaseRcv_detIdle (h : detectionIdle s) (k : RcvNo) (out : Bool) : detectionIdle (releaseRcv s k out) := by
  have hmove (n : LineNo) (r : RcvState) : detectionIdle ((setReceiver s n none).setRcv k r) :=
    setRcv_detIdle ((setReceiver_detIdle n none).mpr h) k r
  unfold releaseRcv
  split
  · dsimp only
    split
    · split
      · exact hmove _ _
      · exact hmove _ _
      · exact (placeFrame_detIdle _ _).mpr (hmove _ _)
    · exact hmove _ _
  · dsimp only
    split
    · exact (placeFrame_detIdle _ _).mpr (hmove _ _)
    · exact hmove _ _
  · exact h

theorem release_detIdle (h : detectionIdle s) (k : RcvNo) : detectionIdle (release s k) :=
  grantTest_detIdle (releaseRcv_detIdle h k false)

@[simp] theorem removeWaiting_detIdle (n : LineNo) : detectionIdle (removeWaiting s n) ↔ detectionIdle s := Iff.rfl

@[simp] theorem finishListen_detIdle (k : SlotNo) (o : OrderOutcome) (r : Reason) :
    detectionIdle (finishListen s k o r) ↔ detectionIdle s := by
  unfold finishListen; split <;> simp

theorem surrender_detIdle (h : detectionIdle s) (n : LineNo) : detectionIdle (surrender s n) := by
  have hrel : detectionIdle (match (s.line n).receiver with | some k => release s k | none => s) := by
    split
    · exact release_detIdle h _
    · exact h
  unfold surrender
  dsimp only
  split
  · exact (finishListen_detIdle _ _ _).mpr hrel
  · exact hrel

theorem policyRelease_detIdle (h : detectionIdle s) (n : LineNo) : detectionIdle (policyRelease s n) := by
  unfold policyRelease
  split
  · exact h
  split
  · exact release_detIdle h _
  · exact h

/-! ### Replies to TAP frames, guards and lost links -/

theorem tapTaken_detIdle (h : detectionIdle s) (k : RcvNo) : detectionIdle (tapTaken s k) := by
  unfold tapTaken
  split
  · exact setRcv_detIdle h k _
  · exact h

theorem tapConnectAnswered_detIdle (h : detectionIdle s) (k : RcvNo) (ack : Bool) :
    detectionIdle (tapConnectAnswered s k ack) := by
  unfold tapConnectAnswered
  split
  · split
    · exact setRcv_detIdle h k _
    · refine grantTest_detIdle ?_
      exact (setReceiver_detIdle _ _).mpr (setRcv_detIdle h k _)
  · split
    · exact (placeFrame_detIdle _ _).mpr (setRcv_detIdle h k _)
    · exact setRcv_detIdle h k _
  · exact h

theorem tapDisconnectAnswered_detIdle (h : detectionIdle s) (k : RcvNo) (ack : Bool) :
    detectionIdle (tapDisconnectAnswered s k ack) := by
  unfold tapDisconnectAnswered
  split
  · split
    · exact grantTest_detIdle (setRcv_detIdle h k _)
    · exact setRcv_detIdle h k _
  · exact h

theorem tapClearAnswered_detIdle (h : detectionIdle s) (l : LinkNo) (ack : Bool) :
    detectionIdle (tapClearAnswered s l ack) := by
  refine grantTest_detIdle (h.foldl (fun s k hs => ?_) allRcvs)
  split
  · exact setRcv_detIdle hs k _
  · exact hs

theorem strandRcv_detIdle (h : detectionIdle s) (l : LinkNo) (k : RcvNo) : detectionIdle (strandRcv l s k) := by
  unfold strandRcv
  split
  · split
    · exact setRcv_detIdle ((setReceiver_detIdle _ _).mpr h) k _
    · exact h
  · split
    · exact setRcv_detIdle ((setReceiver_detIdle _ _).mpr h) k _
    · exact h
  · split
    · exact setRcv_detIdle h k _
    · exact h
  · exact h

theorem strandAll_detIdle (h : detectionIdle s) (l : LinkNo) : detectionIdle (strandAll s l) :=
  h.foldl (fun _ k hs => strandRcv_detIdle hs l k) allRcvs

/-- At the end of its guard a receiver begins to listen (R77, R51). -/
theorem guardEnds_detIdle (h : detectionIdle s) (k : RcvNo) : detectionIdle (guardEnds s k) := by
  unfold guardEnds
  split
  · split
    · exact startListening_detIdle h k (by rw [hears, State.rcv_startListening_same])
    · exact h
  · exact h

/-! ### LISTEN and RECEIVER SERVICE -/

theorem orderListen_detIdle (h : detectionIdle s) (k : SlotNo) (o : OrderRead) :
    detectionIdle (orderListen s k o) := by
  have hrefuse (r : Reason) : detectionIdle (refuse s k r []) := (refuse_detIdle k r []).mpr h
  unfold orderListen
  split
  · exact hrefuse _
  split
  · exact hrefuse _
  split
  · exact hrefuse _
  split
  · exact hrefuse _
  refine grantTest_detIdle ?_
  split
  · exact h
  · exact h

theorem dropListen_detIdle (h : detectionIdle s) (k : SlotNo) : detectionIdle (dropListen s k) := by
  unfold dropListen
  split
  · exact release_detIdle h _
  · exact h

theorem expireListen_detIdle (h : detectionIdle s) (k : SlotNo) : detectionIdle (expireListen s k) := by
  unfold expireListen
  split
  · exact (finishListen_detIdle _ _ _).mpr (dropListen_detIdle h k)
  · exact (finishListen_detIdle _ _ _).mpr (dropListen_detIdle h k)

theorem abortListen_detIdle (h : detectionIdle s) (k : SlotNo) (r : Reason) : detectionIdle (abortListen s k r) :=
  (finishListen_detIdle _ _ _).mpr (dropListen_detIdle h k)

@[simp] theorem countDigit_detIdle (k : RcvNo) : detectionIdle (countDigit s k) ↔ detectionIdle s := by
  unfold countDigit; split <;> rfl

theorem serviceOut_detIdle (h : detectionIdle s) (k : RcvNo) : detectionIdle (serviceOut s k) := by
  have hbusy (e : WaitEntry) : detectionIdle (serviceOutBusy s k e) := by
    refine grantTest_detIdle ?_
    exact releaseRcv_detIdle h k true
  unfold serviceOut
  split
  · exact setRcv_detIdle h k _
  · exact hbusy _
  · exact hbusy _
  · exact setRcv_detIdle h k _
  · exact setRcv_detIdle h k _
  · exact h
  · exact h

theorem serviceIn_detIdle (h : detectionIdle s) (k : RcvNo) : detectionIdle (serviceIn s k) := by
  unfold serviceIn
  split
  · exact grantTest_detIdle (setRcv_detIdle h k _)
  · exact h

theorem orderReceiverService_detIdle (h : detectionIdle s) (k : SlotNo) (o : OrderRead) :
    detectionIdle (orderReceiverService s k o) := by
  unfold orderReceiverService
  split
  · dsimp only
    split
    · split
      · simpa using h
      · simpa using serviceOut_detIdle h _
    split
    · simpa using serviceIn_detIdle h _
    · simpa using h
  · simpa using h

/-! ### Supervision: entries to states -/

@[simp] theorem setFull_detIdle (n : LineNo) : detectionIdle (setFull s n) ↔ detectionIdle s := Iff.rfl

@[simp] theorem unschedule_detIdle (n : LineNo) : detectionIdle (unschedule s n) ↔ detectionIdle s := Iff.rfl

@[simp] theorem queueEntry_detIdle (n : LineNo) (y : Symbol) (c : Source) (p : Nat) :
    detectionIdle (queueEntry s n y c p) ↔ detectionIdle s := Iff.rfl

@[simp] theorem endBreak_detIdle (n : LineNo) : detectionIdle (endBreak s n) ↔ detectionIdle s := Iff.rfl

theorem leaveCall_detIdle (h : detectionIdle s) (n : LineNo) (was : Sup) : detectionIdle (leaveCall s n was) := by
  unfold leaveCall
  split
  · exact surrender_detIdle h n
  · exact h

theorem completeDigit_detIdle (h : detectionIdle s) (n : LineNo) : detectionIdle (completeDigit s n) := by
  unfold completeDigit
  extract_lets r p s1 s2 s3
  have h2 : detectionIdle s2 := h
  have h3 : detectionIdle s3 := h
  clear_value s2 s3
  split
  · exact h2
  split
  · exact policyRelease_detIdle h3 n
  · exact h3

theorem enterOnHook_detIdle (h : detectionIdle s) (n : LineNo) : detectionIdle (enterOnHook s n) := by
  refine leaveCall_detIdle ?_ n _
  split
  · exact h
  · exact h

theorem enterLockout_detIdle (h : detectionIdle s) (n : LineNo) : detectionIdle (enterLockout s n) := by
  refine leaveCall_detIdle ?_ n _
  exact h

theorem enterFault_detIdle (h : detectionIdle s) (n : LineNo) (kind : Cls) :
    detectionIdle (enterFault s n kind) := by
  refine leaveCall_detIdle ?_ n _
  exact h

theorem enterUnsensed_detIdle (h : detectionIdle s) (n : LineNo) : detectionIdle (enterUnsensed s n) := by
  refine leaveCall_detIdle ?_ n _
  exact h

theorem enterSettling_detIdle (h : detectionIdle s) (n : LineNo) : detectionIdle (enterSettling s n) := by
  unfold enterSettling
  split
  · refine leaveCall_detIdle ?_ n _
    exact h
  · exact enterUnsensed_detIdle h n

theorem parkLine_detIdle (h : detectionIdle s) (n : LineNo) : detectionIdle (parkLine s n) := by
  unfold parkLine
  refine leaveCall_detIdle ?_ n _
  simpa using h

@[simp] theorem suspendLine_detIdle (n : LineNo) (v : Service) :
    detectionIdle (suspendLine s n v) ↔ detectionIdle s := Iff.rfl

theorem releaseLine_detIdle (h : detectionIdle s) (n : LineNo) (toActive : Bool) :
    detectionIdle (releaseLine s n toActive) := by
  unfold releaseLine
  split
  · refine enterSettling_detIdle ?_ n
    exact h
  · exact h

/-! ### Supervision: makes, breaks and digits -/

/-- The join of a line under tone dialling, after an update of its record (R28, R36, R48). -/
theorem joinIf_detIdle (h : detectionIdle s) (n : LineNo) (c : Bool) :
    detectionIdle (if c then join s n else s) := by
  split
  · exact join_detIdle h n
  · exact h

theorem seize_detIdle (h : detectionIdle s) (n : LineNo) (a : Nat) : detectionIdle (seize s n a) :=
  joinIf_detIdle (s := setFull (s.modLine n _) n) h n _

theorem flash_detIdle (h : detectionIdle s) (n : LineNo) : detectionIdle (flash s n) :=
  joinIf_detIdle (s := (queueEntry s n .flash .hook 0).modLine n _) h n _

/-- The completion of a digit where it is due. -/
theorem completeDigitIf_detIdle (h : detectionIdle s) (n : LineNo) (c : Prop) [Decidable c] :
    detectionIdle (if c then completeDigit s n else s) := by
  split
  · exact completeDigit_detIdle h n
  · exact h

theorem judgeMake_detIdle (h : detectionIdle s) (n : LineNo) (m : Nat) : detectionIdle (judgeMake s n m) := by
  unfold judgeMake
  extract_lets p d s1 s2
  have h2 : detectionIdle s2 := completeDigitIf_detIdle (s := s1) h n _
  clear_value s2
  split
  · exact h2
  split
  · exact h2
  split
  · exact flash_detIdle h2 n
  · exact h2

theorem acceptInCall_detIdle (h : detectionIdle s) (n : LineNo) (r : Ret) (c : Cls) (a : Nat) :
    detectionIdle (acceptInCall s n r c a) := by
  unfold acceptInCall
  split
  · exact h
  split
  · exact enterFault_detIdle h n c
  · exact h

theorem transition_detIdle (h : detectionIdle s) (n : LineNo) (c : Cls) (a : Nat) :
    detectionIdle (transition s n c a) := by
  have hfault : detectionIdle (if isFaultCls c then enterFault s n c else s) := by
    split
    · exact enterFault_detIdle h n c
    · exact h
  unfold transition
  split
  case h_1 =>
    split
    · exact enterOnHook_detIdle h n
    split
    · exact h
    · exact hfault
  case h_2 =>
    split
    · exact seize_detIdle h n a
    split
    · exact h
    · exact hfault
  case h_3 => exact acceptInCall_detIdle h n _ c a
  case h_4 => exact acceptInCall_detIdle h n _ c a
  case h_5 => exact acceptInCall_detIdle h n _ c a
  case h_6 =>
    split
    · exact judgeMake_detIdle h n a
    · exact hfault
  case h_7 =>
    split
    · exact h
    · exact hfault
  case h_8 =>
    split
    · exact enterFault_detIdle h n c
    split
    · exact enterOnHook_detIdle ((restoreFault_detIdle n).mpr h) n
    split
    · exact enterLockout_detIdle ((restoreFault_detIdle n).mpr h) n
    · exact h
  all_goals exact h

theorem takeAcceptance_detIdle (h : detectionIdle s) (n : LineNo) (old c : Cls) (a : Nat) :
    detectionIdle (takeAcceptance s n old c a) := by
  unfold takeAcceptance
  extract_lets s1
  have h1 : detectionIdle s1 := by
    show detectionIdle (if _ then _ else _)
    split
    · exact h
    · exact h
  clear_value s1
  split
  · unfold lockoutOpen
    split
    · exact h1
    · exact h1
  · exact transition_detIdle h1 n c a

theorem testLimits_detIdle (h : detectionIdle s) (n : LineNo) : detectionIdle (testLimits s n) := by
  unfold testLimits
  split
  · unfold limitsInBreak
    extract_lets s1
    have h1 : detectionIdle s1 := completeDigitIf_detIdle h n _
    clear_value s1
    split
    · exact enterOnHook_detIdle h1 n
    split
    · exact enterLockout_detIdle h1 n
    · exact h1
  · unfold limitsInDialling
    extract_lets s1
    have h1 : detectionIdle s1 := completeDigitIf_detIdle h n _
    clear_value s1
    split
    · unfold dialEndTimesOut
      extract_lets s2 s3
      have h3 : detectionIdle s3 := completeDigitIf_detIdle h1 n _
      clear_value s3
      split
      · exact policyRelease_detIdle h3 n
      · exact h3
    · exact h1
  · split
    · exact enterLockout_detIdle h n
    · exact h
  · split
    · exact enterOnHook_detIdle h n
    · exact h
  all_goals exact h

@[simp] theorem toneDigit_detIdle (n : LineNo) (y : Symbol) :
    detectionIdle (toneDigit s n y) ↔ detectionIdle s := by
  unfold toneDigit; split <;> rfl

@[simp] theorem deliver_detIdle (k : RcvNo) (n : LineNo) (y : Symbol) :
    detectionIdle (deliver s k n y) ↔ detectionIdle s :=
  (countDigit_detIdle k).trans (toneDigit_detIdle n y)

end Sys2Proof.Machine
end

section
/-! SUPPORT. The detection of a receiver that does not hear stays reset, continued: the tone generator, insulation
tests, calibrations, scans, links and profiles. -/

namespace Sys2Proof.Machine

variable {s t : State}

/-! ### TRACE -/

@[simp] theorem silence_detIdle : detectionIdle (silence s) ↔ detectionIdle s := Iff.rfl

@[simp] theorem finishTrace_detIdle (c : TraceCtx) (o : OrderOutcome) (r : Reason) (code : Nat) :
    detectionIdle (finishTrace s c o r code) ↔ detectionIdle s := finish_detIdle _ _ _ _

/-- The generator is no part of a receiver's detection. -/
@[simp] theorem setGen_detIdle (g : GenRec) : detectionIdle { s with gen := g } ↔ detectionIdle s := Iff.rfl

@[simp] theorem orderTrace_detIdle (k : SlotNo) (o : OrderRead) :
    detectionIdle (orderTrace s k o) ↔ detectionIdle s := by
  unfold orderTrace
  split
  · simp
  split
  · simp
  split
  · simp
  split
  · simp
  split
  · simp
  · simp [takeTrace]

@[simp] theorem endTrace_detIdle (o : OrderOutcome) (r : Reason) (code : Nat) :
    detectionIdle (endTrace s o r code) ↔ detectionIdle s := by
  unfold endTrace
  split
  · split
    · rfl
    · simp
  · rfl

@[simp] theorem abortTraceOn_detIdle (n : LineNo) (r : Reason) :
    detectionIdle (abortTraceOn s n r) ↔ detectionIdle s := by
  unfold abortTraceOn; split <;> simp

@[simp] theorem removeTrace_detIdle (c : TraceCtx) : detectionIdle (removeTrace s c) ↔ detectionIdle s := Iff.rfl

@[simp] theorem traceLinkLost_detIdle (l : LinkNo) : detectionIdle (traceLinkLost s l) ↔ detectionIdle s := by
  unfold traceLinkLost
  split
  · split
    · rw [removeTrace_detIdle]; split <;> simp
    · rfl
  · rfl

@[simp] theorem traceRelayAnswered_detIdle (n : LineNo) (cfg : RelayCfg) (ack : Bool) :
    detectionIdle (traceRelayAnswered s n cfg ack) ↔ detectionIdle s := by
  unfold traceRelayAnswered
  split
  · split
    · rfl
    split
    · split
      · rfl
      split
      · rfl
      · simp
    · rfl
    · split <;> simp
  · rfl

@[simp] theorem traceExpires_detIdle : detectionIdle (traceExpires s) ↔ detectionIdle s := by
  unfold traceExpires
  split
  · split <;> simp
  · rfl

@[simp] theorem warble_detIdle : detectionIdle (warble s) ↔ detectionIdle s := by
  unfold warble
  split
  · split
    · split <;> rfl
    · rfl
    · rfl
  · rfl

/-! ### RECEIVER CHECK and the end of a block -/

@[simp] theorem setCheckChannels_detIdle (c : CheckCtx) :
    detectionIdle (setCheckChannels s c) ↔ detectionIdle s := by
  unfold setCheckChannels
  dsimp only
  split <;> rfl

/-- The receiver of a check begins to hear (R87, R51). -/
theorem takeCheck_detIdle (h : detectionIdle s) (k : SlotNo) (o : OrderRead) (j : RcvNo) (digits : List Symbol)
    (prior : Option OutReason) : detectionIdle (takeCheck s k o j digits prior) := by
  have hj : detectionIdle ((takeFlight s k .check).startListening j (.checking prior)) :=
    startListening_detIdle h j (by rw [hears, State.rcv_startListening_same])
  exact (setCheckChannels_detIdle _).mpr hj

theorem orderReceiverCheck_detIdle (h : detectionIdle s) (k : SlotNo) (o : OrderRead) :
    detectionIdle (orderReceiverCheck s k o) := by
  have hrefuse (r : Reason) : detectionIdle (refuse s k r []) := (refuse_detIdle k r []).mpr h
  unfold orderReceiverCheck
  split
  · dsimp only
    split
    · exact hrefuse _
    split
    · exact hrefuse _
    split
    · exact hrefuse _
    split
    · exact hrefuse _
    · exact takeCheck_detIdle h k o _ _ _
  · exact hrefuse _

/-- The receiver of a check that ends is moved, its detection reset (R157, R52). -/
theorem closeCheck_detIdle (h : detectionIdle s) (c : CheckCtx) (r : RcvState) :
    detectionIdle (closeCheck s c r) := by
  refine grantTest_detIdle ?_
  exact setRcv_detIdle (s := silence s) h c.rcv r

theorem abortCheck_detIdle (h : detectionIdle s) (r : Reason) : detectionIdle (abortCheck s r) := by
  unfold abortCheck
  split
  · exact closeCheck_detIdle ((finish_detIdle _ _ _ _).mpr h) _ _
  · exact h

theorem checkBlock_detIdle (h : detectionIdle s) (c : CheckCtx) (accepted : Option Symbol) :
    detectionIdle (checkBlock s c accepted) := by
  unfold checkBlock
  extract_lets c1 c2
  split
  · exact closeCheck_detIdle ((complete_detIdle _ _).mpr h) _ _
  · exact (setCheckChannels_detIdle _).mpr h

/-- A block ends at a receiver that hears, LISTENING or CHECKING, or nothing is done (R51). -/
theorem blockEnds_detIdle (h : detectionIdle s) (k : RcvNo) (v : BlockLevels) :
    detectionIdle (blockEnds s k v) := by
  unfold blockEnds
  split
  · extract_lets a next
    have hnext (hk : hears s k = true) : detectionIdle next := setDet_detIdle h hk _
    clear_value next
    split
    · next hr =>
      have hn := hnext (by rw [hears, hr])
      split
      · exact (deliver_detIdle _ _ _).mpr hn
      · exact hn
    · next hr =>
      have hn := hnext (by rw [hears, hr])
      split
      · split
        · exact checkBlock_detIdle hn _ _
        · exact hn
      · exact hn
    · exact h
  · exact h

/-! ### Insulation tests -/

@[simp] theorem modTest_detIdle (l : LinkNo) (f : TestCtx → TestCtx) :
    detectionIdle (modTest s l f) ↔ detectionIdle s := Iff.rfl

@[simp] theorem startPhase_detIdle (c : TestCtx) (phase : Nat) :
    detectionIdle (startPhase s c phase) ↔ detectionIdle s := by
  simp [startPhase]

@[simp] theorem orderInsulationTest_detIdle (k : SlotNo) (o : OrderRead) :
    detectionIdle (orderInsulationTest s k o) ↔ detectionIdle s := by
  unfold orderInsulationTest
  split
  · simp
  split
  · simp
  split
  · simp
  split
  · simp
  split
  · simp
  split
  · simp
  · simp [takeTest]

@[simp] theorem completeTest_detIdle (c : TestCtx) (v : Verdict) (o : OrderOutcome) (r : Reason) :
    detectionIdle (completeTest s c v o r) ↔ detectionIdle s := endOrder_detIdle _ _

@[simp] theorem endTest_detIdle (c : TestCtx) (v : Verdict) (o : OrderOutcome) (r : Reason) :
    detectionIdle (endTest s c v o r) ↔ detectionIdle s := by
  simp [endTest]

@[simp] theorem abortTest_detIdle (l : LinkNo) (r : Reason) :
    detectionIdle (abortTest s l r) ↔ detectionIdle s := by
  unfold abortTest
  split
  · split <;> simp
  · rfl

theorem removeTest_detIdle (h : detectionIdle s) (l : LinkNo) (c : TestCtx) : detectionIdle (removeTest s l c) :=
  releaseLine_detIdle (s := s.modLink l _) h _ _

theorem testLinkLost_detIdle (h : detectionIdle s) (l : LinkNo) : detectionIdle (testLinkLost s l) := by
  unfold testLinkLost
  split
  · refine removeTest_detIdle ?_ _ _
    split
    · exact h
    · simpa using h
  · exact h

theorem testRelayAnswered_detIdle (h : detectionIdle s) (n : LineNo) (cfg : RelayCfg) (ack : Bool) :
    detectionIdle (testRelayAnswered s n cfg ack) := by
  unfold testRelayAnswered
  split
  · split
    · exact h
    split
    · split
      · exact h
      split
      · exact h
      · simpa using h
    · exact h
    · exact h
    · split
      · exact removeTest_detIdle h _ _
      · exact h
  · exact h

@[simp] theorem phaseEnds_detIdle (c : TestCtx) : detectionIdle (phaseEnds s c) ↔ detectionIdle s := by
  unfold phaseEnds
  dsimp only
  split
  · simp
  split
  · split <;> simp
  split
  · simp
  · simp

@[simp] theorem testCounts_detIdle (l : LinkNo) (c : TestCtx) (x : Sample) :
    detectionIdle (testCounts s l c x) ↔ detectionIdle s := by
  unfold testCounts
  split
  · dsimp only
    split <;> rfl
  · dsimp only
    split <;> simp
  · rfl
  · rfl

@[simp] theorem testScan_detIdle (n : LineNo) (out : ScanOutcome) :
    detectionIdle (testScan s n out) ↔ detectionIdle s := by
  unfold testScan
  split
  · split
    · rfl
    split
    · rfl
    · rfl
    · split <;> simp
  · rfl

@[simp] theorem assignTesting_detIdle (n : LineNo) (toActive : Bool) :
    detectionIdle (assignTesting s n toActive) ↔ detectionIdle s := by
  unfold assignTesting
  dsimp only
  split
  · rfl
  split
  · split <;> simp
  · rfl

/-! ### Calibrations -/

@[simp] theorem modCal_detIdle (n : LineNo) (f : CalCtx → CalCtx) :
    detectionIdle (modCal s n f) ↔ detectionIdle s := Iff.rfl

@[simp] theorem lineFinished_detIdle (k : SlotNo) (f : Tally → Tally) (o : OrderOutcome) (r : Reason) :
    detectionIdle (lineFinished s k f o r) ↔ detectionIdle s := by
  unfold lineFinished
  split
  · dsimp only
    split <;> simp
  · rfl

@[simp] theorem markRecord_detIdle (n : LineNo) (c : CalCtx) (st : CalStatus) :
    detectionIdle (markRecord s n c st) ↔ detectionIdle s := Iff.rfl

@[simp] theorem restoreTrim_detIdle (n : LineNo) : detectionIdle (restoreTrim s n) ↔ detectionIdle s :=
  placeTrim_detIdle _ _ _ _

@[simp] theorem failLine_detIdle (n : LineNo) (c : CalCtx) (cause : FailCause) :
    detectionIdle (failLine s n c cause) ↔ detectionIdle s := by
  simp [failLine, toRestoring]

@[simp] theorem abortLine_detIdle (n : LineNo) (cause : IntCause) (o : OrderOutcome) (r : Reason) :
    detectionIdle (abortLine s n cause o r) ↔ detectionIdle s := by
  unfold abortLine
  split
  · split
    · rfl
    · simp [toRestoring]
  · rfl

theorem abortCalibrate_detIdle (h : detectionIdle s) (k : SlotNo) (cause : IntCause) (r : Reason) :
    detectionIdle (abortCalibrate s k cause r) := by
  refine h.foldl (fun s n hs => ?_) allLines
  split
  · simpa using hs
  · exact hs

theorem removeCal_detIdle (h : detectionIdle s) (n : LineNo) (c : CalCtx) : detectionIdle (removeCal s n c) :=
  releaseLine_detIdle (s := s.modLine n _) h _ _

theorem calLinkLost_detIdle (h : detectionIdle s) (n : LineNo) : detectionIdle (calLinkLost s n) := by
  unfold calLinkLost
  split
  · refine removeCal_detIdle ?_ n _
    split
    · exact h
    · simpa using h
  · exact h

theorem orderCalibrate_detIdle (h : detectionIdle s) (k : SlotNo) (o : OrderRead) :
    detectionIdle (orderCalibrate s k o) := by
  unfold orderCalibrate
  dsimp only
  split
  · simpa using h
  split
  · simpa using h
  split
  · simpa using h
  · refine detectionIdle.foldl (fun s n hs => ?_) _ ((takeFlight_detIdle k _).mpr h)
    simpa [takeLine] using hs

@[simp] theorem startDecision_detIdle (n : LineNo) (c : CalCtx) :
    detectionIdle (startDecision s n c) ↔ detectionIdle s := placeTrim_detIdle _ _ _ _

@[simp] theorem decisionEnds_detIdle (n : LineNo) (c : CalCtx) :
    detectionIdle (decisionEnds s n c) ↔ detectionIdle s := by
  unfold decisionEnds
  split
  · unfold rangeDecision
    dsimp only
    split <;> simp
  · unfold bitDecision
    dsimp only
    split <;> simp

@[simp] theorem calScan_detIdle (n : LineNo) (out : ScanOutcome) :
    detectionIdle (calScan s n out) ↔ detectionIdle s := by
  unfold calScan
  split
  · split
    · rfl
    unfold calCounts
    split
    · dsimp only
      split <;> rfl
    · dsimp only
      split <;> simp
    all_goals rfl
  · rfl

theorem calRelayAnswered_detIdle (h : detectionIdle s) (n : LineNo) (cfg : RelayCfg) (ack : Bool) :
    detectionIdle (calRelayAnswered s n cfg ack) := by
  unfold calRelayAnswered
  split
  · split
    · split
      · exact h
      split
      · exact h
      · simpa using h
    · exact h
    · exact h
    · exact h
    · exact h
    · split
      · exact removeCal_detIdle h n _
      · exact h
  · exact h

@[simp] theorem commitAnswered_detIdle (n : LineNo) (c : CalCtx) (ack : Bool) :
    detectionIdle (commitAnswered s n c ack) ↔ detectionIdle s := by
  unfold commitAnswered
  split <;> simp [toRestoring]

@[simp] theorem calTrimAnswered_detIdle (n : LineNo) (ack : Bool) :
    detectionIdle (calTrimAnswered s n ack) ↔ detectionIdle s := by
  unfold calTrimAnswered
  split
  · split
    · split <;> simp
    · simp
    all_goals rfl
  · rfl

@[simp] theorem recordTrimAnswered_detIdle (n : LineNo) (ack : Bool) :
    detectionIdle (recordTrimAnswered s n ack) ↔ detectionIdle s := by
  unfold recordTrimAnswered; split <;> rfl

@[simp] theorem orderSetTrim_detIdle (k : SlotNo) (o : OrderRead) :
    detectionIdle (orderSetTrim s k o) ↔ detectionIdle s := by
  unfold orderSetTrim
  split
  · simp
  split
  · simp
  split
  · simp
  split
  · simp
  · simp

@[simp] theorem assignCalibrating_detIdle (n : LineNo) (toActive : Bool) :
    detectionIdle (assignCalibrating s n toActive) ↔ detectionIdle s := by
  unfold assignCalibrating
  dsimp only
  split <;> simp

/-! ### Scans -/

@[simp] theorem quietScan_detIdle (n : LineNo) (raw : Cls) :
    detectionIdle (quietScan s n raw) ↔ detectionIdle s := by
  unfold quietScan
  split
  · rfl
  split
  · rfl
  · rfl

@[simp] theorem orderSurvey_detIdle (k : SlotNo) (o : OrderRead) :
    detectionIdle (orderSurvey s k o) ↔ detectionIdle s := by
  unfold orderSurvey
  split
  · simp
  dsimp only
  split
  · simp
  split
  · simp
  split
  · simp
  · simp

@[simp] theorem surveyScan_detIdle (n : LineNo) (out : ScanOutcome) :
    detectionIdle (surveyScan s n out) ↔ detectionIdle s := by
  unfold surveyScan
  split
  · dsimp only
    split
    · simp [completeSurvey]
    · rfl
  · rfl

@[simp] theorem abortSurvey_detIdle (n : LineNo) (r : Reason) :
    detectionIdle (abortSurvey s n r) ↔ detectionIdle s := by
  unfold abortSurvey
  split
  · simp
  · rfl

@[simp] theorem scanMeasure_detIdle (n : LineNo) (x : Sample) :
    detectionIdle (scanMeasure s n x) ↔ detectionIdle s := quietScan_detIdle n _

theorem scanAccept_detIdle (h : detectionIdle s) (n : LineNo) : detectionIdle (scanAccept s n) := by
  unfold scanAccept
  dsimp only
  split
  · refine takeAcceptance_detIdle ?_ n _ _ _
    split
    · simpa using h
    · exact h
  · exact h

theorem routeScan_detIdle (h : detectionIdle s) (n : LineNo) (out : ScanOutcome) :
    detectionIdle (routeScan s n out) := by
  unfold routeScan
  split
  · exact h
  · split
    · next x =>
      have hfront : detectionIdle (scanFront s n x) := scanAccept_detIdle ((scanMeasure_detIdle n x).mpr h) n
      exact (surveyScan_detIdle n _).mpr (testLimits_detIdle hfront n)
    · simpa using h
    · simpa using h
  · simpa using h
  · simpa using h

theorem takeSample_detIdle (h : detectionIdle s) (n : LineNo) (x : Sample) : detectionIdle (takeSample s n x) := by
  refine routeScan_detIdle ?_ n _
  unfold surgeStep
  split
  · exact h
  · exact h

theorem missScan_detIdle (h : detectionIdle s) (n : LineNo) : detectionIdle (missScan s n) :=
  routeScan_detIdle h n .missing

/-! ### Links: sending -/

theorem frameTaken_detIdle (h : detectionIdle s) (f : Frame) : detectionIdle (frameTaken s f) := by
  unfold frameTaken
  split
  · exact tapTaken_detIdle h _
  all_goals exact h

theorem advanceLink_detIdle (h : detectionIdle s) (l : LinkNo) : detectionIdle (advanceLink s l) := by
  have hend : detectionIdle (endControl s l) := by
    rw [endControl_eq]
    exact h
  unfold advanceLink
  dsimp only
  split
  · split
    · exact hend
    split
    · exact h
    · refine frameTaken_detIdle ?_ _
      exact h
    · exact hend
  · exact h

theorem startPeriod_detIdle (h : detectionIdle s) : detectionIdle (startPeriod s) := by
  unfold startPeriod
  split
  · refine detectionIdle.foldl (s := { s with periodCount := _, periodEnd := _ }) (fun s l hs => ?_) allLinks h
    unfold startLinkPeriod
    split
    · refine advanceLink_detIdle ?_ l
      exact (modLink_detIdle l _).mpr (hs.foldl (fun s p hs => missScan_detIdle hs (lineAt l p)) _)
    · exact hs
  · exact h

/-! ### Links: loss, timeouts and replies -/

theorem linkLost_detIdle (h : detectionIdle s) (l : LinkNo) : detectionIdle (linkLost s l) := by
  have hunsense (s : State) (n : LineNo) (hs : detectionIdle s) : detectionIdle (unsenseLine s n) := by
    unfold unsenseLine
    split
    · exact enterUnsensed_detIdle hs n
    · exact hs
  unfold linkLost
  extract_lets s1 s2 s3 s4 s5 s6 s7
  have h1 : detectionIdle s1 := h
  have h2 : detectionIdle s2 := h1.eachLine hunsense (linesOf l)
  have h3 : detectionIdle s3 := strandAll_detIdle h2 l
  have h4 : detectionIdle s4 := h3.eachLine (fun s n hs => calLinkLost_detIdle hs n) (linesOf l)
  have h5 : detectionIdle s5 := (markChanges_detIdle s4).mpr (testLinkLost_detIdle h4 l)
  have h6 : detectionIdle s6 := (markChanges_detIdle s5).mpr ((traceLinkLost_detIdle l).mpr h5)
  have h7 : detectionIdle s7 := h6.foldl (fun s n hs => (abortSurvey_detIdle n _).mpr hs) (linesOf l)
  exact h7.foldl (fun s n hs => (setFull_detIdle n).mpr hs) (linesOf l)

theorem timeOut_detIdle (h : detectionIdle s) (l : LinkNo) : detectionIdle (timeOut s l) := by
  unfold timeOut
  split
  next f _ =>
    dsimp only
    split
    · have h1 : detectionIdle (frameTimedOut (endExchange s l) l f) := by
        cases f with
        | sample p => exact missScan_detIdle (s := endExchange s l) h (lineAt l p)
        | _ => exact h
      unfold raiseFailRun
      dsimp only
      split
      · exact linkLost_detIdle ((modLink_detIdle l _).mpr h1) l
      · exact advanceLink_detIdle ((modLink_detIdle l _).mpr h1) l
    · exact h
  · exact h

@[simp] theorem replyTaken_detIdle (l : LinkNo) : detectionIdle (replyTaken s l) ↔ detectionIdle s := Iff.rfl

theorem sampleAnswered_detIdle (h : detectionIdle s) (l : LinkNo) (p : PairNo) (x : Sample) :
    detectionIdle (sampleAnswered s l p x) := by
  unfold sampleAnswered
  split
  · exact advanceLink_detIdle (takeSample_detIdle ((replyTaken_detIdle l).mpr h) _ x) l
  · exact h

theorem trimAnswered_detIdle (h : detectionIdle s) (l : LinkNo) (ack : Bool) :
    detectionIdle (trimAnswered s l ack) := by
  unfold trimAnswered
  split
  · refine advanceLink_detIdle ?_ l
    unfold trimOwner
    split
    · simpa using h
    · simpa using h
  · exact h

theorem relayAnswered_detIdle (h : detectionIdle s) (l : LinkNo) (ack : Bool) :
    detectionIdle (relayAnswered s l ack) := by
  unfold relayAnswered
  split
  next p _ _ _ =>
    have h1 : detectionIdle (setRestored (replyTaken s l) l p) := h
    refine advanceLink_detIdle ?_ l
    unfold relayOwner
    split
    · exact h1
    · exact calRelayAnswered_detIdle h1 _ _ ack
    · exact testRelayAnswered_detIdle h1 _ _ ack
    · simpa using h1
  · exact h

theorem connectAnswered_detIdle (h : detectionIdle s) (l : LinkNo) (ack : Bool) :
    detectionIdle (connectAnswered s l ack) := by
  unfold connectAnswered
  split
  · exact advanceLink_detIdle (tapConnectAnswered_detIdle ((replyTaken_detIdle l).mpr h) _ ack) l
  · exact h

theorem disconnectAnswered_detIdle (h : detectionIdle s) (l : LinkNo) (ack : Bool) :
    detectionIdle (disconnectAnswered s l ack) := by
  unfold disconnectAnswered
  split
  · exact advanceLink_detIdle (tapDisconnectAnswered_detIdle ((replyTaken_detIdle l).mpr h) _ ack) l
  · exact h

theorem clearAllAnswered_detIdle (h : detectionIdle s) (l : LinkNo) (ack : Bool) :
    detectionIdle (clearAllAnswered s l ack) := by
  unfold clearAllAnswered
  split
  · exact advanceLink_detIdle (tapClearAnswered_detIdle ((replyTaken_detIdle l).mpr h) l ack) l
  · exact h

/-! ### Links: probes, recovery and timers -/

theorem recoverLink_detIdle (h : detectionIdle s) (l : LinkNo) (count : Nat) (rev : Byte) :
    detectionIdle (recoverLink s l count rev) := by
  have hpark (s : State) (n : LineNo) (hs : detectionIdle s) : detectionIdle (parkAbsent s n) := by
    unfold parkAbsent
    split
    · exact parkLine_detIdle hs n
    · exact hs
  have hsettle (s : State) (n : LineNo) (hs : detectionIdle s) : detectionIdle (settleUnsensed s n) := by
    unfold settleUnsensed
    split
    · exact enterSettling_detIdle hs n
    · exact hs
  have h0 : detectionIdle (recordProbe s l count rev) := h
  exact ((modLink_detIdle l _).mpr (h0.eachLine hpark (linesOf l))).eachLine hsettle (linesOf l)

theorem probeAnswered_detIdle (h : detectionIdle s) (l : LinkNo) (count : Nat) (rev : Byte) :
    detectionIdle (probeAnswered s l count rev) := by
  have h1 : detectionIdle (replyTaken s l) := h
  unfold probeAnswered
  split
  · dsimp only
    split
    · unfold probeWhileUp
      split
      · exact advanceLink_detIdle (s := recordProbe (replyTaken s l) l count rev) h1 l
      · exact linkLost_detIdle h1 l
    · exact recoverLink_detIdle h1 l count rev
  · exact h

@[simp] theorem probeTimerEnds_detIdle (l : LinkNo) : detectionIdle (probeTimerEnds s l) ↔ detectionIdle s := by
  unfold probeTimerEnds
  dsimp only
  split <;> rfl

@[simp] theorem idleEnds_detIdle (l : LinkNo) : detectionIdle (idleEnds s l) ↔ detectionIdle s := by
  unfold idleEnds
  dsimp only
  split <;> rfl

@[simp] theorem surgeEnds_detIdle (l : LinkNo) : detectionIdle (surgeEnds s l) ↔ detectionIdle s := by
  unfold surgeEnds
  dsimp only
  split <;> rfl

/-! ### Profiles, services and the scan period -/

theorem assignLine_detIdle (h : detectionIdle s) (n : LineNo) (p : ProfNo) (active : Bool) :
    detectionIdle (assignLine s n p active) := by
  unfold assignLine
  extract_lets s1 s2
  have h2 : detectionIdle s2 := (abortTraceOn_detIdle (s := s1) n .lineChanged).mpr h
  clear_value s2
  split
  · unfold assignParked
    split
    · refine enterSettling_detIdle ?_ n
      exact h2
    · exact h2
  · unfold assignActive
    split
    · exact h2
    · exact parkLine_detIdle ((abortSurvey_detIdle n _).mpr h2) n
  · simpa using h2
  · simpa using h2

theorem orderAssign_detIdle (h : detectionIdle s) (k : SlotNo) (o : OrderRead) :
    detectionIdle (orderAssign s k o) := by
  unfold orderAssign
  split
  · simpa using h
  split
  · dsimp only
    split
    · simpa using h
    split
    · simpa using h
    · exact (complete_detIdle k _).mpr (assignLine_detIdle h _ _ _)
  · simpa using h

@[simp] theorem loadProfile_detIdle (k : SlotNo) (p : ProfNo) (bytes : List Byte) :
    detectionIdle (loadProfile s k p bytes) ↔ detectionIdle s := by
  unfold loadProfile
  dsimp only
  split <;> simp

theorem orderEconomy_detIdle (h : detectionIdle s) (k : SlotNo) (o : OrderRead) :
    detectionIdle (orderEconomy s k o) := by
  unfold orderEconomy
  split
  · refine (complete_detIdle k _).mpr ?_
    exact h
  split
  · refine (complete_detIdle k _).mpr (detectionIdle.foldl (fun s n hs => ?_) allLines ?_)
    · exact hs
    · exact h
  · simpa using h

@[simp] theorem orderClearFault_detIdle (k : SlotNo) (o : OrderRead) :
    detectionIdle (orderClearFault s k o) ↔ detectionIdle s := by
  unfold orderClearFault
  split
  · dsimp only
    split
    · simp
    split <;> simp
  · simp

theorem periodDecision_detIdle (h : detectionIdle s) : detectionIdle (periodDecision s) := by
  unfold periodDecision
  dsimp only
  split
  · exact h
  split
  · exact h
  · refine detectionIdle.foldl (fun s n hs => ?_) allLines ?_
    · unfold resettle
      split
      · exact enterSettling_detIdle hs n
      · exact hs
    · exact h

end Sys2Proof.Machine
end

section
/-! SUPPORT. The detection of a receiver that does not hear stays reset, continued: orders that end, master accesses,
images, sweeps, exchange states and register writes. -/

namespace Sys2Proof.Machine

variable {s t : State}

/-! ### Failed master accesses -/

theorem abortSlot_detIdle (h : detectionIdle s) (k : SlotNo) (r : Reason) (cause : IntCause) :
    detectionIdle (abortSlot s k r cause) := by
  unfold abortSlot
  split
  · simpa using h
  · exact abortCalibrate_detIdle h k cause r
  · simpa using h
  · exact abortListen_detIdle h k r
  · exact abortCheck_detIdle h r
  · simpa using h
  · exact h

theorem abortAll_detIdle (h : detectionIdle s) (r : Reason) (cause : IntCause) :
    detectionIdle (abortAll s r cause) :=
  h.foldl (fun _ k hs => abortSlot_detIdle hs k r cause) allSlots

theorem halt_detIdle (h : detectionIdle s) (addr : Word) : detectionIdle (halt s addr) := by
  refine (markChanges_detIdle s).mpr ?_
  unfold haltEffect
  extract_lets s1 s2 s3
  have h1 : detectionIdle s1 := by
    show detectionIdle (unmove s)
    unfold unmove
    split
    · exact h
    · exact h
  have h2 : detectionIdle s2 := h1
  have h3 : detectionIdle s3 := abortAll_detIdle h2 .none .halted
  clear_value s3
  exact h3

/-! ### Series of master accesses -/

theorem busWrite_detIdle (h : detectionIdle s) (bad : Option Word) (off : Nat) (bytes : List Byte) :
    (busWrite bad s off bytes).Reaches detectionIdle := by
  unfold busWrite
  split
  · exact h
  · exact h

theorem busWriteField_detIdle (h : detectionIdle s) (bad : Option Word) (off n : Nat) (v : Int) :
    (busWriteField bad s off n v).Reaches detectionIdle :=
  busWrite_detIdle h bad off _

theorem busRead_detIdle (h : detectionIdle s) {bad : Option Word} {off n : Nat} {k : List Byte → BusRes}
    (hk : ∀ b, (k b).Reaches detectionIdle) : (busRead bad s off n k).Reaches detectionIdle := by
  unfold busRead
  split
  · exact h
  · exact hk _

theorem busReadField_detIdle (h : detectionIdle s) {bad : Option Word} {off n : Nat} {k : Nat → BusRes}
    (hk : ∀ v, (k v).Reaches detectionIdle) : (busReadField bad s off n k).Reaches detectionIdle :=
  busRead_detIdle h fun _ => hk _

theorem busWriteFields_detIdle (h : detectionIdle s) (bad : Option Word) (l : List (Nat × Int)) (off : Nat) :
    (busWriteFields bad off l s).Reaches detectionIdle := by
  induction l generalizing s off with
  | nil => exact h
  | cons x t ih => exact (busWriteField_detIdle h bad _ _ _).andThen fun s hs => ih hs _

theorem settle_detIdle {r : BusRes} (h : r.Reaches detectionIdle) : detectionIdle r.settle := by
  cases r with
  | ok s => exact h
  | err s a => exact halt_detIdle h a

/-- A series that is run only where it is due. -/
theorem reachesIf_detIdle {r : BusRes} (hr : r.Reaches detectionIdle) (h : detectionIdle s) (c : Prop)
    [Decidable c] : (if c then r else .ok s).Reaches detectionIdle := by
  split
  · exact hr
  · exact h

/-! ### Images and the header -/

@[simp] theorem takeTaken_detIdle (n : LineNo) (v : Count) :
    detectionIdle (takeTaken s n v) ↔ detectionIdle s := by
  unfold takeTaken; split <;> rfl

theorem writeEntries_detIdle (h : detectionIdle s) (bad : Option Word) (n : LineNo) (l : List DigitEntry)
    (w : Count) : (writeEntries bad n w l s).Reaches detectionIdle := by
  induction l generalizing s w with
  | nil => exact h
  | cons e t ih => exact (busWriteFields_detIdle h bad _ _).andThen fun s hs => ih hs _

theorem writeItems_detIdle (h : detectionIdle s) (bad : Option Word) (n : LineNo) (l : List ImageItem) :
    (busEach (writeItem bad n) l s).Reaches detectionIdle :=
  BusRes.reaches_busEach (fun _ _ hs => busWriteField_detIdle hs bad _ _ _) l h

theorem writeMeasures_detIdle (h : detectionIdle s) (bad : Option Word) (n : LineNo) :
    (writeMeasures bad n s).Reaches detectionIdle := by
  refine (busWriteFields_detIdle h bad _ _).andThen fun s hs => ?_
  exact (busWriteField_detIdle hs bad _ _ _).andThen fun s hs => hs

theorem rewriteBody_detIdle (h : detectionIdle s) (bad : Option Word) (n : LineNo) (pace : Bool) :
    (rewriteBody bad n pace s).Reaches detectionIdle := by
  refine (writeEntries_detIdle h bad n _ _).andThen fun s hs => ?_
  have hwritten (m : Nat) : (writeWritten bad n m s).Reaches detectionIdle := by
    unfold writeWritten
    split
    · exact hs
    · exact busWriteField_detIdle hs bad _ _ _
  refine (hwritten _).andThen fun s hs => ?_
  refine (writeItems_detIdle hs bad n _).andThen fun s hs => ?_
  exact (reachesIf_detIdle (writeMeasures_detIdle hs bad n) hs _).andThen fun s hs => hs

theorem startRewrite_detIdle (h : detectionIdle s) (bad : Option Word) :
    (startRewrite bad s).Reaches detectionIdle := by
  unfold startRewrite
  split
  next n rest _ =>
    refine (busWriteField_detIdle (s := { s with rewriteList := rest }) h bad _ _ _).andThen fun s hs => ?_
    have hread : (readIfFull bad (s.modLine n fun x => { x with changePending := false, pacePending := false })
        n).Reaches detectionIdle := by
      refine reachesIf_detIdle (busReadField_detIdle ?_ fun v => ?_) ?_ _
      · exact hs
      · exact (takeTaken_detIdle n _).mpr hs
      · exact hs
    exact hread.andThen fun s hs => rewriteBody_detIdle hs bad n _
  · exact h

theorem endRewrite_detIdle (h : detectionIdle s) (bad : Option Word) (w : Rewrite) :
    (endRewrite bad w s).Reaches detectionIdle := by
  refine (busWriteField_detIdle h bad _ _ _).andThen fun s hs => ?_
  show detectionIdle (if w.notable then _ else _)
  split
  · exact hs
  · exact hs

theorem writeHeader_detIdle (h : detectionIdle s) (bad : Option Word) (stopped : Bool) :
    (writeHeader bad stopped s).Reaches detectionIdle := by
  refine (busWriteField_detIdle h bad _ _ _).andThen fun s hs => ?_
  have hmark : detectionIdle { s with headerPending := false } := hs
  refine (BusRes.reaches_busEach (fun _ _ hs => busWriteField_detIdle hs bad _ _ _) _ hmark).andThen fun s hs => ?_
  refine (busWrite_detIdle hs bad _ _).andThen fun s hs => ?_
  exact (busWriteField_detIdle hs bad _ _ _).andThen fun s hs => hs

/-! ### STARTING -/

theorem adoptSlot_detIdle (h : detectionIdle s) (bad : Option Word) (k : SlotNo) :
    (adoptSlot bad s k).Reaches detectionIdle := by
  unfold adoptSlot
  refine busReadField_detIdle h fun issue => busReadField_detIdle h fun comp => ?_
  extract_lets s1
  have h1 : detectionIdle s1 := h
  clear_value s1
  split
  · exact h1
  refine (busWriteField_detIdle h1 bad _ _ _).andThen fun s hs => ?_
  refine (busWriteField_detIdle hs bad _ _ _).andThen fun s hs => ?_
  refine (busWrite_detIdle hs bad _ _).andThen fun s hs => ?_
  refine (busWriteField_detIdle hs bad _ _ _).andThen fun s hs => ?_
  exact (busWriteField_detIdle hs bad _ _ _).andThen fun s hs => hs

theorem adoptLine_detIdle (h : detectionIdle s) (bad : Option Word) (n : LineNo) :
    (adoptLine bad s n).Reaches detectionIdle := by
  refine busReadField_detIdle h fun v => ?_
  refine (busWriteField_detIdle (s := adoptCounts s n _) h bad _ _ _).andThen fun s hs => ?_
  have hgaps : (busEach (writeGap bad n) imageGaps s).Reaches detectionIdle :=
    BusRes.reaches_busEach (fun _ _ hs => busWrite_detIdle hs bad _ _) _ hs
  refine hgaps.andThen fun s hs => ?_
  refine (writeEntries_detIdle hs bad n _ _).andThen fun s hs => ?_
  refine (busWriteField_detIdle hs bad _ _ _).andThen fun s hs => ?_
  refine (writeItems_detIdle hs bad n _).andThen fun s hs => ?_
  refine (writeMeasures_detIdle hs bad n).andThen fun s hs => ?_
  exact (busWriteField_detIdle hs bad _ _ _).andThen fun s hs => hs

theorem enterStarting_detIdle (h : detectionIdle s) (bad : Option Word) :
    (enterStarting bad s).Reaches detectionIdle := by
  have hlatch : detectionIdle (latch s) := h
  refine (BusRes.reaches_busEach (fun s k hs => adoptSlot_detIdle hs bad k) allSlots hlatch).andThen fun s hs => ?_
  refine (BusRes.reaches_busEach (fun s n hs => adoptLine_detIdle hs bad n) allLines hs).andThen fun s hs => ?_
  exact writeHeader_detIdle (s := { s with changeCount := s.changeCount + 1 }) hs bad false

/-! ### Completions, orders and sweeps -/

theorem completeIfDue_detIdle (h : detectionIdle s) (bad : Option Word) (k : SlotNo) :
    (completeIfDue bad k s).Reaches detectionIdle := by
  unfold completeIfDue
  split
  next c _ =>
    have hresult : (writeResult bad c s).Reaches detectionIdle := by
      unfold writeResult
      split
      · exact busWriteFields_detIdle h bad _ _
      · exact h
    refine hresult.andThen fun s hs => ?_
    refine (busWriteField_detIdle hs bad _ _ _).andThen fun s hs => ?_
    refine (busWriteField_detIdle hs bad _ _ _).andThen fun s hs => ?_
    refine (busWrite_detIdle hs bad _ _).andThen fun s hs => ?_
    exact (busWriteField_detIdle hs bad _ _ _).andThen fun s hs => hs
  · exact h

theorem orderCancel_detIdle (h : detectionIdle s) (bad : Option Word) (k : SlotNo) (o : OrderRead) :
    (orderCancel bad s k o).Reaches detectionIdle := by
  have hrefuse (r : Reason) (d : List Nat) : detectionIdle (refuse s k r d) := (refuse_detIdle k r d).mpr h
  unfold orderCancel
  split
  · dsimp only
    split
    · exact hrefuse _ _
    split
    · exact hrefuse _ _
    · exact (completeIfDue_detIdle (abortSlot_detIdle h _ _ _) bad _).andThen fun s hs =>
        (complete_detIdle k _).mpr hs
  · exact hrefuse _ _

theorem orderLoadProfile_detIdle (h : detectionIdle s) (bad : Option Word) (k : SlotNo) (o : OrderRead) :
    (orderLoadProfile bad s k o).Reaches detectionIdle := by
  unfold orderLoadProfile
  split
  · exact busRead_detIdle h fun b => (loadProfile_detIdle k _ b).mpr h
  · exact (refuse_detIdle k _ _).mpr h

theorem dispatch_detIdle (h : detectionIdle s) (bad : Option Word) (k : SlotNo) (o : OrderRead) :
    (dispatch bad s k o).Reaches detectionIdle := by
  unfold dispatch
  split
  · exact orderAssign_detIdle h k o
  · exact orderLoadProfile_detIdle h bad k o
  · exact orderEconomy_detIdle h k o
  · exact (orderSurvey_detIdle k o).mpr h
  · exact orderCalibrate_detIdle h k o
  · exact (orderSetTrim_detIdle k o).mpr h
  · exact (orderInsulationTest_detIdle k o).mpr h
  · exact (orderClearFault_detIdle k o).mpr h
  · exact orderListen_detIdle h k o
  · exact orderReceiverService_detIdle h k o
  · exact orderReceiverCheck_detIdle h k o
  · exact (orderTrace_detIdle k o).mpr h
  · exact orderCancel_detIdle h bad k o
  · exact (refuse_detIdle k _ _).mpr h

theorem takeSlot_detIdle (h : detectionIdle s) (bad : Option Word) (k : SlotNo) :
    (takeSlot bad s k).Reaches detectionIdle := by
  unfold takeSlot
  refine busRead_detIdle h fun b => ?_
  refine (busWriteField_detIdle h bad _ _ _).andThen fun s hs => ?_
  exact (dispatch_detIdle (s := s.modSlot k _) hs bad k _).andThen fun s hs => completeIfDue_detIdle hs bad k

theorem sweepSlot_detIdle (h : detectionIdle s) (bad : Option Word) (k : SlotNo) :
    (sweepSlot bad s k).Reaches detectionIdle := by
  refine busReadField_detIdle h fun issue => reachesIf_detIdle ?_ h _
  exact (takeSlot_detIdle h bad k).andThen fun t ht => (markChanges_detIdle s).mpr ht

theorem sweepLine_detIdle (h : detectionIdle s) (bad : Option Word) (n : LineNo) :
    (sweepLine bad s n).Reaches detectionIdle := by
  unfold sweepLine
  split
  · exact h
  refine busReadField_detIdle h fun v => ?_
  show detectionIdle (markRoom s n _)
  unfold markRoom
  split
  · simpa using h
  · simpa using h

theorem sweepBody_detIdle (h : detectionIdle s) (bad : Option Word) : (sweepBody bad s).Reaches detectionIdle := by
  have h1 : detectionIdle { s with sweeping := true } := h
  exact (BusRes.reaches_busEach (fun s k hs => sweepSlot_detIdle hs bad k) allSlots h1).andThen fun s hs =>
    BusRes.reaches_busEach (fun s n hs => sweepLine_detIdle hs bad n) allLines hs

theorem callSweep_detIdle (h : detectionIdle s) (bad : Option Word) : (callSweep bad s).Reaches detectionIdle := by
  refine reachesIf_detIdle ?_ h _
  split
  · exact h
  · exact sweepBody_detIdle h bad

theorem endSweep_detIdle (h : detectionIdle s) (bad : Option Word) : (endSweep bad s).Reaches detectionIdle := by
  refine reachesIf_detIdle ?_ h _
  split
  · exact sweepBody_detIdle (s := { s with sweepAgain := false }) h bad
  · exact h

/-! ### Exchange states, register writes and resets -/

theorem beginStopping_detIdle (h : detectionIdle s) : detectionIdle (beginStopping s) := by
  refine abortAll_detIdle ?_ .stopped .stopped
  exact h

theorem endStarting_detIdle (h : detectionIdle s) (bad : Option Word) :
    (endStarting bad s).Reaches detectionIdle := by
  refine reachesIf_detIdle ?_ h _
  dsimp only
  split
  · refine sweepBody_detIdle ?_ bad
    exact h
  · refine beginStopping_detIdle ?_
    exact h

theorem endStopping_detIdle (h : detectionIdle s) (bad : Option Word) :
    (endStopping bad s).Reaches detectionIdle := by
  refine reachesIf_detIdle ((writeHeader_detIdle h bad true).andThen fun s hs => ?_) h _
  split
  · exact enterStarting_detIdle hs bad
  · exact (markChanges_detIdle s).mpr hs

/-- A reset leaves every receiver FREE with reset detection (R68, R50). -/
theorem detectionIdle_of_reset (h : s.dets = Vector.replicate 8 Det.reset) : detectionIdle s := by
  intro k _
  simp [State.det, h]

theorem runChanged_detIdle (h : detectionIdle s) (bad : Option Word) (old : Bool) :
    (runChanged bad old s).Reaches detectionIdle := by
  have hdecide : detectionIdle (markChanges s (periodDecision s)) :=
    (markChanges_detIdle s).mpr (periodDecision_detIdle h)
  unfold runChanged
  split
  · exact reachesIf_detIdle (enterStarting_detIdle hdecide bad) h _
  · show detectionIdle (if _ then _ else _)
    split
    · exact hdecide
    · exact h
  · show detectionIdle (if _ then _ else _)
    split
    · exact (markChanges_detIdle s).mpr (beginStopping_detIdle h)
    · exact h
  · show detectionIdle (if _ then _ else _)
    split
    · exact h
    · exact (markChanges_detIdle s).mpr h
  · exact h

theorem writeCtrl_detIdle (h : detectionIdle s) (bad : Option Word) (v : Word) :
    (writeCtrl bad v s).Reaches detectionIdle := by
  unfold writeCtrl
  split
  · exact detectionIdle_of_reset rfl
  · exact runChanged_detIdle (s := { s with ctrl := v &&& Config.ctrlMask }) h bad _

theorem writeReg_detIdle (h : detectionIdle s) (bad : Option Word) (r : Reg) (v : Word) :
    detectionIdle (writeReg bad r v s) := by
  cases r with
  | id => exact h
  | ctrl => exact settle_detIdle (writeCtrl_detIdle h bad v)
  | stat => exact h
  | abase =>
    show detectionIdle (if run s then s else _)
    split
    · exact h
    · exact h
  | awin =>
    show detectionIdle (if run s then s else _)
    split
    · exact h
    · exact h
  | attn => exact (markChanges_detIdle s).mpr (settle_detIdle (callSweep_detIdle h bad))
  | faddr => exact h

end Sys2Proof.Machine
end

section
/-! O60: every command keeps the detection of a receiver that does not hear reset. -/

namespace Sys2Proof.Machine

variable {s t : State}

/-! ### The shapes of the commands -/

theorem next_detIdle {u : State} (h : detectionIdle u)
    (e : (.next u : Host.Outcome State Fault Refusal) = .next t) : detectionIdle t :=
  Host.Outcome.next.inj e ▸ h

theorem marked_detIdle {u : State} (h : detectionIdle u)
    (e : (.next (markChanges s u) : Host.Outcome State Fault Refusal) = .next t) : detectionIdle t :=
  next_detIdle ((markChanges_detIdle s).mpr h) e

/-- A step on the bus finds the controller's bytes in the memory, which no receiver hears. -/
theorem onBus_detIdle {b : Bus} {f : State → State} (h : detectionIdle s)
    (hf : ∀ s, detectionIdle s → detectionIdle (f s)) (e : onBus b f s = .next t) : detectionIdle t := by
  unfold onBus at e
  split at e
  · exact next_detIdle (hf (withCtl b s) h) e
  · cases e

theorem onBusMarked_detIdle {b : Bus} {f : State → BusRes} (h : detectionIdle s)
    (hf : ∀ s, detectionIdle s → (f s).Reaches detectionIdle) (e : onBusMarked b f s = .next t) :
    detectionIdle t :=
  onBus_detIdle h (fun s hs => (markChanges_detIdle s).mpr (settle_detIdle (hf s hs))) e

/-- What is done only where it is due. -/
theorem detectionIdle.ite {u : State} (hu : detectionIdle u) (h : detectionIdle s) (c : Prop) [Decidable c] :
    detectionIdle (if c then u else s) := by
  split
  · exact hu
  · exact h

/-! ### Every command, every step -/

theorem execRewriteEnd_detIdle {b : Bus} (h : detectionIdle s) (e : execRewriteEnd b s = .next t) :
    detectionIdle t := by
  refine onBusMarked_detIdle h (fun s hs => ?_) e
  split
  · exact reachesIf_detIdle (endRewrite_detIdle hs b.bad _) hs _
  · exact hs

theorem execPaceTick_detIdle {q : Pace} (h : detectionIdle s) (e : execPaceTick q s = .next t) :
    detectionIdle t := by
  refine next_detIdle (detectionIdle.ite (h.foldl (fun s n hs => ?_) allLines) h _) e
  exact detectionIdle.ite ((markPace_detIdle n).mpr hs) hs _

theorem exec_detIdle {c : Instr} (h : detectionIdle s) (e : exec c s = .next t) : detectionIdle t := by
  have hcase (due : Bool) (l : LinkNo) (p : PairNo) (x : Sample) : detectionIdle (caseStep due s l p x) :=
    detectionIdle.ite (sampleAnswered_detIdle h l p x) h _
  cases c with
  | pinReset => exact next_detIdle (detectionIdle_of_reset rfl) e
  | softReset v => exact next_detIdle (detectionIdle_of_reset rfl) e
  | runSet v b => exact onBus_detIdle h (fun s hs => settle_detIdle (writeCtrl_detIdle hs b.bad _)) e
  | startingEnd b => exact onBusMarked_detIdle h (fun s hs => endStarting_detIdle hs b.bad) e
  | runClear v => exact next_detIdle (settle_detIdle (writeCtrl_detIdle h none _)) e
  | stoppingEnd b => exact onBus_detIdle h (fun s hs => settle_detIdle (endStopping_detIdle hs b.bad)) e
  | haltClear v => exact next_detIdle (settle_detIdle (writeCtrl_detIdle h none _)) e
  | statClear v => exact next_detIdle (u := writeStat v s) h e
  | registerWrite r v b => exact onBus_detIdle h (fun s hs => writeReg_detIdle hs b.bad r v) e
  | attnWrite b => exact onBusMarked_detIdle h (fun s hs => callSweep_detIdle hs b.bad) e
  | pollTick b =>
    exact onBusMarked_detIdle h
      (fun s hs => reachesIf_detIdle (callSweep_detIdle (s := pollTicked s) hs b.bad) hs _) e
  | sweepEnd b => exact onBusMarked_detIdle h (fun s hs => endSweep_detIdle hs b.bad) e
  | completion k b =>
    exact onBusMarked_detIdle h (fun s hs => reachesIf_detIdle (completeIfDue_detIdle hs b.bad k) hs _) e
  | imageRewrite b =>
    exact onBusMarked_detIdle h (fun s hs => reachesIf_detIdle (startRewrite_detIdle hs b.bad) hs _) e
  | rewriteEnd b => exact execRewriteEnd_detIdle h e
  | headerRewrite b =>
    exact onBusMarked_detIdle h (fun s hs => reachesIf_detIdle (writeHeader_detIdle hs b.bad false) hs _) e
  | masterAccessFailure w => exact next_detIdle (detectionIdle.ite (halt_detIdle h w) h _) e
  | paceTick q => exact execPaceTick_detIdle h e
  | scanPeriodStart => exact marked_detIdle (startPeriod_detIdle h) e
  | sampleReply l p x => exact marked_detIdle (sampleAnswered_detIdle h l p x) e
  | interdigitCompletion l p x => exact marked_detIdle (hcase _ l p x) e
  | longBreakCompletion l p x => exact marked_detIdle (hcase _ l p x) e
  | clear l p x => exact marked_detIdle (hcase _ l p x) e
  | lockoutClear l p x => exact marked_detIdle (hcase _ l p x) e
  | firstDigitTimeout l p x => exact marked_detIdle (hcase _ l p x) e
  | dialEndTimeout l p x => exact marked_detIdle (hcase _ l p x) e
  | surveyCompletion l p x => exact marked_detIdle (hcase _ l p x) e
  | quietDelay l p x => exact marked_detIdle (hcase _ l p x) e
  | decisionEnd l p x => exact marked_detIdle (hcase _ l p x) e
  | phaseComplete l p x => exact marked_detIdle (hcase _ l p x) e
  | exchangeTimeout l => exact marked_detIdle (timeOut_detIdle h l) e
  | linkLoss l => exact marked_detIdle (detectionIdle.ite (timeOut_detIdle h l) h _) e
  | unmatchedReply l r => exact next_detIdle h e
  | probeTimer l => exact marked_detIdle ((probeTimerEnds_detIdle l).mpr h) e
  | idleProbe l => exact marked_detIdle ((idleEnds_detIdle l).mpr h) e
  | probeReply l c r => exact marked_detIdle (probeAnswered_detIdle h l c r) e
  | surgeHoldExpiry l => exact marked_detIdle ((surgeEnds_detIdle l).mpr h) e
  | trimReply l a => exact marked_detIdle (trimAnswered_detIdle h l a) e
  | relayReply l a => exact marked_detIdle (relayAnswered_detIdle h l a) e
  | tapConnectReply l a => exact marked_detIdle (connectAnswered_detIdle h l a) e
  | tapDisconnectReply l a => exact marked_detIdle (disconnectAnswered_detIdle h l a) e
  | tapClearAllReply l a => exact marked_detIdle (clearAllAnswered_detIdle h l a) e
  | guardEnd k => exact marked_detIdle (guardEnds_detIdle h k) e
  | blockEnd k v => exact marked_detIdle (blockEnds_detIdle h k _) e
  | toneAcceptance k v => exact marked_detIdle (detectionIdle.ite (blockEnds_detIdle h k _) h _) e
  | gapEnd k v => exact marked_detIdle (detectionIdle.ite (blockEnds_detIdle h k _) h _) e
  | checkEnd k => exact marked_detIdle (detectionIdle.ite (blockEnds_detIdle h k _) h _) e
  | listenExpiry k => exact marked_detIdle (detectionIdle.ite (expireListen_detIdle h k) h _) e
  | traceExpiry => exact marked_detIdle (traceExpires_detIdle.mpr h) e
  | warbleHalf => exact marked_detIdle (warble_detIdle.mpr h) e

/-- Poll ticks and surge holds that end in a millisecond move no receiver. -/
theorem idle_detIdle (h : detectionIdle s) : detectionIdle (idle s) := by
  have hpoll : detectionIdle (pollPast s) := by
    rw [pollPast_eq]
    exact h
  have hsurge : detectionIdle (surgesPast (pollPast s)) :=
    hpoll.foldl (fun s l hs => (surgeEnds_detIdle l).mpr hs) allLinks
  unfold idle
  generalize surgesPast (pollPast s) = u at hsurge
  exact hsurge

/-- Settles O60: reset detection of the receivers that do not hear is an invariant of every command and of a
millisecond that passes. -/
theorem stepsKeepIdleDetectionReset : Obligations.StepsKeepIdleDetectionReset := by
  intro s t h e
  unfold step at e
  split at e
  · exact next_detIdle (idle_detIdle h) e
  · next c rest _ => exact exec_detIdle (s := { s with pending := rest }) h e

end Sys2Proof.Machine
end

section
/-! SUPPORT. The detection of a receiver: the digits of a held key (R59 to R62), the levels that powers and the
generator's channels read as (R53, R54), the verdict on eight levels (R56, R57), and the block end of a QUIET receiver
(R51, R59). -/

namespace Sys2Proof.Machine

/-! ### A held key -/

/-- Once ON, further blocks of the symbol held accept nothing (R61, R62). -/
theorem runDet_on_held (on off m : Nat) (e : Symbol) :
    (runDet on off (.on e false) (List.replicate m (some e))).2 = [] := by
  induction m with
  | zero => rfl
  | succ m ih => simp [List.replicate_succ, runDet, advanceDet, ih]

/-- From a pending run still short of tone_on, further blocks of the symbol held accept it once, where they complete
the run (R60, R61). -/
theorem runDet_pending_held {on n : Nat} (off m : Nat) (e : Symbol) (h : n < on) :
    (runDet on off (.pending e n) (List.replicate m (some e))).2 = if on ≤ n + m then [e] else [] := by
  induction m generalizing n with
  | zero => rw [if_neg (by omega)]; rfl
  | succ m ih =>
    by_cases hn : on ≤ n + 1
    · have hm : on ≤ n + (m + 1) := by omega
      simp [List.replicate_succ, runDet, advanceDet, hn, hm, runDet_on_held]
    · have hm : n + 1 + m = n + (m + 1) := by omega
      simp [List.replicate_succ, runDet, advanceDet, hn, ih (show n + 1 < on by omega), hm]

/-! ### The level that a power reads as -/

/-- The rounding of a rational lies within a half of it, and of two equally near it is the one away from zero. -/
theorem roundDiv_rat (p : Rat) :
    2 * |p - (roundDiv p.num p.den : Rat)| ≤ 1
    ∧ (2 * |p - (roundDiv p.num p.den : Rat)| = 1 → |p| ≤ |(roundDiv p.num p.den : Rat)|) := by
  obtain ⟨hnear, htie⟩ := nearest_roundDiv p.num p.den_pos
  generalize roundDiv p.num p.den = q at hnear htie ⊢
  have hd : (0 : Rat) < p.den := by exact_mod_cast p.den_pos
  have hnum : (p.num : Rat) = p * p.den := (Rat.mul_den_eq_num p).symm
  have hdist : ((|p.num - q * p.den| : Int) : Rat) = |p - q| * p.den := by
    rw [Int.cast_abs, Int.cast_sub, Int.cast_mul, Int.cast_natCast, hnum, ← sub_mul, abs_mul, abs_of_pos hd]
  have hnear' : 2 * (|p - q| * p.den) ≤ p.den := by rw [← hdist]; exact_mod_cast hnear
  refine ⟨by nlinarith, fun h => ?_⟩
  have heq : 2 * |p.num - q * p.den| = (p.den : Int) := by
    have : (2 : Rat) * (|p.num - q * p.den| : Int) = (p.den : Int) := by
      rw [hdist, Int.cast_natCast, ← mul_assoc, h, one_mul]
    exact_mod_cast this
  have habs : ((|p.num| : Int) : Rat) ≤ ((|q * p.den| : Int) : Rat) := by exact_mod_cast htie heq
  rw [Int.cast_abs, Int.cast_abs, Int.cast_mul, Int.cast_natCast, hnum, abs_mul, abs_mul, abs_of_pos hd] at habs
  exact le_of_mul_le_mul_right habs hd

theorem readLevel_reads (p : Rat) : readsAs p (readLevel p) := by
  obtain ⟨hnear, htie⟩ := roundDiv_rat p
  unfold readLevel
  generalize roundDiv p.num p.den = q at hnear htie ⊢
  have hlo : -1 ≤ 2 * (p - q) := by linarith [neg_abs_le (p - q)]
  have hhi : 2 * (p - q) ≤ 1 := by linarith [le_abs_self (p - q)]
  refine ⟨fun h => ?_, fun h => ?_, fun h1 h2 => ?_⟩
  · have : q < -63 := by exact_mod_cast (show (q : Rat) < -63 by linarith)
    omega
  · have : 5 < q := by exact_mod_cast (show (5 : Rat) < q by linarith)
    omega
  · have hq1 : -65 < q := by exact_mod_cast (show (-65 : Rat) < q by linarith)
    have hq2 : q < 7 := by exact_mod_cast (show (q : Rat) < 7 by linarith)
    rw [show max (-64) (min q 6) = q by omega]
    refine ⟨hlo, hhi, fun h => ?_, fun h => ?_⟩
    · by_contra hp
      have hq : -1 < q := by exact_mod_cast (show (-1 : Rat) < q by linarith)
      have hq' : (0 : Rat) ≤ q := by exact_mod_cast (show 0 ≤ q by omega)
      have hpq : |p - q| = p - q := abs_of_nonneg (by linarith)
      have := htie (by rw [hpq]; exact h)
      rw [abs_of_nonneg (not_lt.mp hp), abs_of_nonneg hq'] at this
      linarith
    · by_contra hp
      have hq : q < 1 := by exact_mod_cast (show (q : Rat) < 1 by linarith)
      have hq' : (q : Rat) ≤ 0 := by exact_mod_cast (show q ≤ 0 by omega)
      have hpq : |p - q| = -(p - q) := abs_of_nonpos (by linarith)
      have := htie (by rw [hpq]; linarith)
      rw [abs_of_nonpos (not_lt.mp hp), abs_of_nonpos hq'] at this
      linarith

/-! ### The levels that a checked receiver reads -/

/-- A level by loopback is that of the channel at its code, else the floor (R54, R148). -/
theorem loopLevel_eq (g : GenRec) (code : Nat) :
    loopLevel g code = if g.chA.n = code ∧ g.chA.level ≠ 0 then 2 * (g.chA.level : Int) - 31
      else if g.chB.n = code ∧ g.chB.level ≠ 0 then 2 * (g.chB.level : Int) - 31 else -64 := by
  unfold loopLevel levelDbm
  split
  · next h => rw [if_neg h.2]
  split
  · next h => rw [if_neg h.2]
  · rfl

theorem loopLevel_ge (g : GenRec) (code : Nat) : -64 ≤ loopLevel g code := by
  rw [loopLevel_eq]
  split
  · omega
  split
  · omega
  · omega

/-! ### The verdict on eight levels -/

/-- One level of a group is 6 dB or more above the others (R56). -/
def leads (x : Fin 4 → Int) (i : Fin 4) : Prop := ∀ m, m ≠ i → x m + 6 ≤ x i

/-- What the search for the strongest holds after the levels of a list, all above -1000: how many there were,
the index and the level of the strongest, and the least bound of the others. -/
structure Strongest (l : List Int) (a : Nat × Nat × Int × Int) : Prop where
  count : a.1 = l.length
  top : l[a.2.1]? = some a.2.2.1 ∨ l = [] ∧ a.2.2.1 = -1000
  ordered : a.2.2.2 ≤ a.2.2.1
  others : ∀ j x, l[j]? = some x → j ≠ a.2.1 → x ≤ a.2.2.2
  least : ∀ y, -1000 ≤ y → (∀ j x, l[j]? = some x → j ≠ a.2.1 → x ≤ y) → a.2.2.2 ≤ y

/-- One more level is the new strongest, or one of the others. -/
theorem Strongest.concat {l : List Int} {a : Nat × Nat × Int × Int} (h : Strongest l a) (x : Int) (hx : -1000 < x) :
    Strongest (l ++ [x])
      (if a.2.2.1 < x then (a.1 + 1, a.1, x, a.2.2.1) else (a.1 + 1, a.2.1, a.2.2.1, max a.2.2.2 x)) := by
  obtain ⟨n, i, top, second⟩ := a
  obtain ⟨hcount, htop, hord, hothers, hleast⟩ := h
  dsimp only at hcount htop hord hothers hleast ⊢
  subst hcount
  have hget (j : Nat) (y : Int) : (l ++ [x])[j]? = some y ↔ l[j]? = some y ∨ j = l.length ∧ y = x := by
    rcases lt_trichotomy j l.length with hj | rfl | hj
    · rw [List.getElem?_append_left hj]; simp [hj.ne]
    · simp [eq_comm]
    · have hend : (l ++ [x]).length ≤ j := by simpa using hj
      simp [hj.ne', List.getElem?_eq_none hj.le, List.getElem?_eq_none hend]
  have hle (j : Nat) (y : Int) (hj : l[j]? = some y) : y ≤ top := by
    by_cases hi : j = i
    · subst hi
      rcases htop with ht | ⟨rfl, -⟩
      · exact (Option.some.inj (hj.symm.trans ht)).le
      · simp at hj
    · exact (hothers j y hj hi).trans hord
  have hlt {j : Nat} {y : Int} (hj : l[j]? = some y) : j < l.length := (List.getElem?_eq_some_iff.mp hj).1
  split
  · next hgt =>
    refine ⟨by simp, .inl ((hget _ _).mpr (.inr ⟨rfl, rfl⟩)), hgt.le, fun j y hj hne => ?_, fun y hy hb => ?_⟩
    · rcases (hget j y).mp hj with hj | ⟨hj, -⟩
      · exact hle j y hj
      · exact absurd hj hne
    · rcases htop with ht | ⟨-, ht⟩
      · exact hb i top ((hget i top).mpr (.inl ht)) (hlt ht).ne
      · exact ht.trans_le hy
  · next hgt =>
    have hi : l[i]? = some top := htop.resolve_right fun h => hgt (h.2 ▸ hx)
    refine ⟨by simp, .inl ((hget _ _).mpr (.inl hi)), max_le hord (not_lt.mp hgt), fun j y hj hne => ?_,
      fun y hy hb => ?_⟩
    · rcases (hget j y).mp hj with hj | ⟨-, rfl⟩
      · exact (hothers j y hj hne).trans (le_max_left _ _)
      · exact le_max_right _ _
    · refine max_le (hleast y hy fun j z hj hne => hb j z ((hget j z).mpr (.inl hj)) hne) ?_
      exact hb _ x ((hget _ x).mpr (.inr ⟨rfl, rfl⟩)) (hlt hi).ne'

theorem strongest_spec (l : List Int) (hl : ∀ x ∈ l, -1000 < x) : ∃ n, Strongest l (n, strongest l) := by
  suffices h : Strongest l (l.foldl _ (0, 0, -1000, -1000)) from ⟨_, h⟩
  induction l using List.reverseRecOn with
  | nil => exact ⟨rfl, .inr ⟨rfl, rfl⟩, le_rfl, fun j x hj => by simp at hj, fun y hy _ => hy⟩
  | append_singleton l x ih =>
    rw [List.foldl_append]
    exact (ih fun y hy => hl y (List.mem_append_left _ hy)).concat x (hl x (by simp))

/-- Of four levels at or above the floor the search names one, and it is 6 dB or more above the second exactly when it
leads; no other then leads (R56). -/
theorem strongest_four (x : Fin 4 → Int) (hx : ∀ i, -64 ≤ x i) :
    ∃ (i : Fin 4) (second : Int), strongest [x 0, x 1, x 2, x 3] = (i.1, x i, second)
      ∧ (6 ≤ x i - second ↔ leads x i) ∧ ∀ j, leads x j → j = i := by
  have hget (j : Nat) (y : Int) : [x 0, x 1, x 2, x 3][j]? = some y ↔ ∃ m : Fin 4, m.1 = j ∧ x m = y := by
    have hlist : [x 0, x 1, x 2, x 3] = List.ofFn x := by simp [List.ofFn_succ]
    simp only [hlist, List.getElem?_ofFn, Fin.exists_iff]
    by_cases hj : j < 4 <;> simp [hj]
  have hlow (y : Int) (hy : y ∈ [x 0, x 1, x 2, x 3]) : -1000 < y := by
    obtain ⟨j, hj⟩ := List.mem_iff_getElem?.mp hy
    obtain ⟨m, -, rfl⟩ := (hget j y).mp hj
    have := hx m
    omega
  obtain ⟨n, -, htop, hord, hothers, hleast⟩ := strongest_spec _ hlow
  generalize strongest [x 0, x 1, x 2, x 3] = r at htop hord hothers hleast ⊢
  obtain ⟨i, top, second⟩ := r
  dsimp only at htop hord hothers hleast
  obtain ⟨i, rfl, rfl⟩ := (hget i top).mp (htop.resolve_right (by simp))
  have hsecond (m : Fin 4) (hm : m ≠ i) : x m ≤ second :=
    hothers m.1 (x m) ((hget _ _).mpr ⟨m, rfl, rfl⟩) fun h => hm (Fin.ext h)
  refine ⟨i, second, rfl, ⟨fun h m hm => ?_, fun h => ?_⟩, fun j hj => ?_⟩
  · have := hsecond m hm
    omega
  · have hbound : second ≤ x i - 6 := by
      refine hleast _ (by have := hx i; omega) fun j y hj hne => ?_
      obtain ⟨m, rfl, rfl⟩ := (hget j y).mp hj
      have := h m fun e => hne (congrArg Fin.val e)
      omega
    omega
  · by_contra hne
    have hji := hj i (Ne.symm hne)
    have hjs := hsecond j hne
    omega

theorem keypadTable_eq (i j : Fin 4) :
    (keypadTable[i.1]?.bind fun row => row[j.1]?) = some (keypad i.1 j.1) := by
  revert i j; decide

theorem inRange_iff (lo hi x : Int) : inRange lo hi x = true ↔ lo ≤ x ∧ x ≤ hi := by
  simp [inRange]

/-- The four levels of the low group by row. -/
def BlockLevels.low (v : BlockLevels) (i : Fin 4) : Int := [v.l697, v.l770, v.l852, v.l941].getD i.1 0

/-- The four levels of the high group by column. -/
def BlockLevels.high (v : BlockLevels) (i : Fin 4) : Int := [v.h1209, v.h1336, v.h1477, v.h1633].getD i.1 0

theorem getD_four_ge {a b c d y : Int} (ha : y ≤ a) (hb : y ≤ b) (hc : y ≤ c) (hd : y ≤ d) (i : Fin 4) :
    y ≤ [a, b, c, d].getD i.1 0 := by
  fin_cases i
  · exact ha
  · exact hb
  · exact hc
  · exact hd

/-- The verdict of a block whose levels lie at or above the floor is the symbol heard (R56, R57). -/
theorem verdict_eq_some_iff (lim : ToneLimits) (v : BlockLevels) (hlow : ∀ i, -64 ≤ v.low i)
    (hhigh : ∀ j, -64 ≤ v.high j) (y : Symbol) : verdict lim v = some y ↔ heard lim v.low v.high y := by
  obtain ⟨i, low2, hl, hlgap, hluniq⟩ := strongest_four v.low hlow
  obtain ⟨j, high2, hh, hhgap, hhuniq⟩ := strongest_four v.high hhigh
  have hverdict : verdict lim v = if inRange lim.min lim.max (v.low i) && inRange lim.min lim.max (v.high j)
      && decide (v.low i ≠ -64) && decide (v.high j ≠ -64)
      && inRange (-lim.reverse) lim.forward (v.high j - v.low i)
      && decide (6 ≤ v.low i - low2) && decide (6 ≤ v.high j - high2) then some (keypad i.1 j.1) else none := by
    have hl' : strongest [v.l697, v.l770, v.l852, v.l941] = (i.1, v.low i, low2) := hl
    have hh' : strongest [v.h1209, v.h1336, v.h1477, v.h1633] = (j.1, v.high j, high2) := hh
    simp only [verdict, hl', hh']
  rw [hverdict, Option.ite_none_right_eq_some]
  simp only [Bool.and_eq_true, decide_eq_true_eq, inRange_iff, hlgap, hhgap, and_assoc]
  constructor
  · rintro ⟨hl1, hl2, hh1, hh2, hlf, hhf, htw1, htw2, hll, hhl, hy⟩
    exact ⟨i, j, hll, hhl, hl1, hl2, hh1, hh2, hlf, hhf, htw1, htw2, (keypadTable_eq i j).trans hy⟩
  · rintro ⟨i', j', hll, hhl, hl1, hl2, hh1, hh2, hlf, hhf, htw1, htw2, hy⟩
    obtain rfl := hluniq i' hll
    obtain rfl := hhuniq j' hhl
    exact ⟨hl1, hl2, hh1, hh2, hlf, hhf, htw1, htw2, hll, hhl, (keypadTable_eq _ _).symm.trans hy⟩

/-! ### The block end of a QUIET receiver -/

/-- Where a verdict takes a QUIET receiver that needs two blocks or more (R59). -/
def afterQuiet : Option Symbol → DetState
  | none => .quiet
  | some y => .pending y 1

theorem afterQuiet_pending_iff {o : Option Symbol} {y : Symbol} : afterQuiet o = .pending y 1 ↔ o = some y := by
  cases o <;> simp [afterQuiet]

theorem afterQuiet_quiet_iff {o : Option Symbol} : afterQuiet o = .quiet ↔ o = none := by
  cases o <;> simp [afterQuiet]

theorem advanceDet_quiet {on : Nat} (h : 2 ≤ on) (off : Nat) (o : Option Symbol) :
    advanceDet on off .quiet o = (afterQuiet o, none) := by
  cases o with
  | none => rfl
  | some y => exact if_neg (by omega)

theorem setCheckChannels_det (s : State) (c : CheckCtx) (k : RcvNo) : (setCheckChannels s c).det k = s.det k := by
  unfold setCheckChannels
  dsimp only
  split <;> rfl

/-- The block end of a QUIET receiver that needs two blocks or more, and that completes no check, leaves its
detection where the verdict takes it (R51, R59). -/
theorem blockEnds_quiet {s : State} {k : RcvNo} (v : BlockLevels) (hd : blockDue s k = true)
    (hq : (s.det k).state = .quiet) (hh : hears s k = true) (hc : checkDue s k = false)
    (hon : 2 ≤ (toneConv s k).toneOn) : ((blockEnds s k v).det k).state = afterQuiet (blockVerdict s k v) := by
  have ha : blockAdvance s k v = (afterQuiet (blockVerdict s k v), none) := by
    rw [blockAdvance, hq, advanceDet_quiet hon]
  unfold blockEnds
  rw [if_pos hd]
  simp only [ha]
  split
  · rw [State.det_setDet_same]
  · next prior hr =>
    split
    · next c hg =>
      split
      · next hk =>
        have hgo : ¬ c.digits.length * (c.onBlocks + c.offBlocks) ≤ c.position + 1 := by
          simpa [checkDue, hr, hg, hk, hd] using hc
        unfold checkBlock
        dsimp only
        rw [if_neg hgo, setCheckChannels_det]
        exact congrArg Det.state (State.det_setDet_same s k _)
      · rw [State.det_setDet_same]
    · rw [State.det_setDet_same]
  · next hl hch =>
    unfold hears at hh
    split at hh
    · next e tap hr => exact absurd hr (hl e tap)
    · next prior hr => exact absurd hr (hch prior)
    · cases hh

/-- The detection after such a block by what its levels are (R56 to R59). -/
theorem judged_of_afterQuiet {o : DetState} {lim : ToneLimits}
    {w : BlockLevels} (ho : o = afterQuiet (verdict lim w)) (hlow : ∀ i, -64 ≤ w.low i)
    (hhigh : ∀ j, -64 ≤ w.high j) :
    (∀ y, o = .pending y 1 ↔ heard lim w.low w.high y) ∧ (o = .quiet ↔ ∀ y, ¬ heard lim w.low w.high y) := by
  have hv := verdict_eq_some_iff lim w hlow hhigh
  subst ho
  refine ⟨fun y => afterQuiet_pending_iff.trans (hv y), afterQuiet_quiet_iff.trans ?_⟩
  rw [Option.eq_none_iff_forall_ne_some]
  exact forall_congr' fun y => not_congr (hv y)

/-- The surge hold of a link is in force for a block that ends now (R55; log 19). -/
theorem surgeAtBlock_iff (s : State) (l : LinkNo) : surgeAtBlock s l = true ↔
    (s.link l).surgeOn = true ∧ (s.time - (s.link l).surgeTime).toNat ≤ 100 := by
  unfold surgeAtBlock
  rw [Bool.and_eq_true, decide_eq_true_eq]
  rfl

theorem low_readLevels (v : BlockPowers) :
    (readLevels v).low = fun i => readLevel ([v.l697, v.l770, v.l852, v.l941].getD i.1 0) := by
  funext i; fin_cases i <;> rfl

theorem high_readLevels (v : BlockPowers) :
    (readLevels v).high = fun j => readLevel ([v.h1209, v.h1336, v.h1477, v.h1633].getD j.1 0) := by
  funext j; fin_cases j <;> rfl

end Sys2Proof.Machine
end

section
/-! O47 and O48: blocks judged by their levels, and a held key that gives one digit. -/

namespace Sys2Proof.Machine

/-- Settles O47: a QUIET receiver goes where the verdict takes it, and the verdict is the symbol heard on the levels
that the receiver reads, from its powers or from the generator. -/
theorem blocksAreJudgedByTheirLevels : Obligations.BlocksAreJudgedByTheirLevels := by
  refine ⟨readLevel_reads, fun k v s hd hq => ⟨fun e tap hr hon => ?_, fun prior hr hon hc => ?_⟩⟩
  · have hdue : checkDue s k = false := by simp only [checkDue, hr]
    have hconv : toneConv s k = s.conv e.line := by simp only [toneConv, hr]
    have hstate := blockEnds_quiet (readLevels v) hd hq (by simp only [hears, hr]) hdue (by rwa [hconv])
    have hverdict : blockVerdict s k (readLevels v) = if surgeAtBlock s (linkOf e.line) then none
        else verdict (s.conv e.line).tone (readLevels v) := by simp only [blockVerdict, hr]
    rw [hverdict] at hstate
    refine ⟨_, rfl, fun hset hms => ?_, fun hover => ?_⟩
    · rw [markChanges_det, hstate, if_pos ((surgeAtBlock_iff _ _).mpr ⟨hset, hms⟩), afterQuiet]
    · have hsurge : ¬ surgeAtBlock s (linkOf e.line) = true := by
        rw [surgeAtBlock_iff]
        rintro ⟨hset, hms⟩
        rcases hover with h | h
        · exact absurd (hset.symm.trans h) (by decide)
        · omega
      rw [if_neg hsurge] at hstate
      rw [markChanges_det, ← low_readLevels, ← high_readLevels]
      refine judged_of_afterQuiet hstate (fun i => ?_) (fun j => ?_)
      · rw [low_readLevels]; exact (readLevel_bounds _).1
      · rw [high_readLevels]; exact (readLevel_bounds _).1
  · intro level row col _ _
    have hlevel : level = loopLevel s.gen := funext fun code => (loopLevel_eq s.gen code).symm
    have hrow : row = (loopLevels s.gen).low := by simp only [row, hlevel]; rfl
    have hcol : col = (loopLevels s.gen).high := by simp only [col, hlevel]; rfl
    have hconv : toneConv s k = (s.profile 0).conv := by simp only [toneConv, hr]
    have hstate := blockEnds_quiet (readLevels v) hd hq (by simp only [hears, hr]) hc (by rwa [hconv])
    have hverdict : blockVerdict s k (readLevels v) = verdict (s.profile 0).conv.tone (loopLevels s.gen) := by
      simp only [blockVerdict, hr]
    rw [hverdict] at hstate
    have hfloor := loopLevel_ge s.gen
    refine ⟨_, rfl, ?_⟩
    rw [markChanges_det, hrow, hcol]
    exact judged_of_afterQuiet hstate (getD_four_ge (hfloor _) (hfloor _) (hfloor _) (hfloor _))
      (getD_four_ge (hfloor _) (hfloor _) (hfloor _) (hfloor _))

/-- Settles O48: the first block leaves ON or a pending run of 1, and the blocks after it go on from there. -/
theorem aHeldKeyGivesOneDigit : Obligations.AHeldKeyGivesOneDigit := by
  intro on off m e hon
  cases m with
  | zero => rw [if_neg (by omega)]; rfl
  | succ m =>
    by_cases h1 : on ≤ 1
    · have hm : on ≤ m + 1 := by omega
      simp [List.replicate_succ, runDet, advanceDet, startPending, h1, hm, runDet_on_held]
    · have hrest := runDet_pending_held off m e (show 1 < on by omega)
      simp [List.replicate_succ, runDet, advanceDet, startPending, h1, hrest, Nat.add_comm 1 m]

end Sys2Proof.Machine
end

section
/-! SUPPORT. The moves of the pool one by one: the receiver that a grant takes (R74), when the grant test grants
nothing and what it does with one line and one FREE receiver (R73), and what the next exchange of a link leaves of
receivers and queues (R75, R141). -/

namespace Sys2Proof.Machine

/-! ### The receiver that a grant takes -/

theorem allRcvs_find?_iff (p : RcvNo → Bool) (k : RcvNo) :
    allRcvs.find? p = some k ↔ p k = true ∧ ∀ j, j < k → p j = false := by
  rw [allRcvs, ← Fin.find?_eq_find?_finRange, Fin.find?_eq_some_iff]

theorem isFree_eq_false_iff {s : State} {k : RcvNo} : isFree s k = false ↔ s.rcv k ≠ .free := by
  rw [isFree, decide_eq_false_iff_not]

theorem isFree_eq_true_iff {s : State} {k : RcvNo} : isFree s k = true ↔ s.rcv k = .free := by
  rw [isFree, decide_eq_true_iff]

/-- Under LOWEST the lowest-numbered FREE receiver is chosen (R74). -/
theorem chooseRcv_lowest_iff {s : State} (h : rotate s = false) (k : RcvNo) :
    chooseRcv s = some k ↔ s.rcv k = .free ∧ ∀ j, j < k → s.rcv j ≠ .free := by
  have ho : grantOrder s = allRcvs := by rw [grantOrder, h]; rfl
  rw [chooseRcv, ho, allRcvs_find?_iff]
  simp only [isFree_eq_true_iff, isFree_eq_false_iff]

/-- Under ROTATE the first FREE receiver met going up from the pointer is chosen (R74). -/
theorem chooseRcv_rotate_iff {s : State} (h : rotate s = true) (i : RcvNo) :
    chooseRcv s = some (s.rotation + 1 + i)
      ↔ s.rcv (s.rotation + 1 + i) = .free ∧ ∀ j, j < i → s.rcv (s.rotation + 1 + j) ≠ .free := by
  have ho : grantOrder s = allRcvs.map fun j => s.rotation + 1 + j := by rw [grantOrder, h]; rfl
  have hinj : Function.Injective fun j : RcvNo => s.rotation + 1 + j := add_right_injective _
  have hmap : (allRcvs.map fun j => s.rotation + 1 + j).find? (isFree s) = some (s.rotation + 1 + i)
      ↔ allRcvs.find? (isFree s ∘ fun j => s.rotation + 1 + j) = some i := by
    rw [List.find?_map]
    exact (Option.map_injective hinj).eq_iff' rfl
  rw [chooseRcv, ho, hmap, allRcvs_find?_iff]
  simp only [Function.comp_apply, isFree_eq_true_iff, isFree_eq_false_iff]

theorem chooseRcv_isFree {s : State} {k : RcvNo} (h : chooseRcv s = some k) : s.rcv k = .free :=
  duty_free_iff.mp (chooseRcv_some h)

theorem chooseRcv_eq_none_iff {s : State} : chooseRcv s = none ↔ ∀ k, s.rcv k ≠ .free := by
  refine ⟨fun h k hk => chooseRcv_none h k (duty_free_iff.mpr hk), fun h => ?_⟩
  rw [Option.eq_none_iff_forall_ne_some]
  exact fun k hk => h k (chooseRcv_isFree hk)

/-- Where one receiver alone is FREE, both settings choose it (R74). -/
theorem chooseRcv_only {s : State} {k : RcvNo} (hk : s.rcv k = .free) (ho : ∀ j, j ≠ k → s.rcv j ≠ .free) :
    chooseRcv s = some k := by
  cases hc : chooseRcv s with
  | none => exact absurd hk (chooseRcv_eq_none_iff.mp hc k)
  | some j =>
    by_contra hne
    exact ho j (fun e => hne (e ▸ rfl)) (chooseRcv_isFree hc)

/-! ### Grants -/

@[simp] theorem placeFrame_rcvs (s : State) (l : LinkNo) (f : Frame) : (placeFrame s l f).rcvs = s.rcvs := by
  unfold placeFrame; split <;> rfl

@[simp] theorem placeFrame_dets (s : State) (l : LinkNo) (f : Frame) : (placeFrame s l f).dets = s.dets := by
  unfold placeFrame; split <;> rfl

@[simp] theorem placeFrame_lines (s : State) (l : LinkNo) (f : Frame) : (placeFrame s l f).lines = s.lines := by
  unfold placeFrame; split <;> rfl

@[simp] theorem placeFrame_slots (s : State) (l : LinkNo) (f : Frame) : (placeFrame s l f).slots = s.slots := by
  unfold placeFrame; split <;> rfl

@[simp] theorem placeFrame_waiting (s : State) (l : LinkNo) (f : Frame) :
    (placeFrame s l f).waiting = s.waiting := by
  unfold placeFrame; split <;> rfl

@[simp] theorem placeFrame_rotation (s : State) (l : LinkNo) (f : Frame) :
    (placeFrame s l f).rotation = s.rotation := by
  unfold placeFrame; split <;> rfl

@[simp] theorem placeFrame_rewriteList (s : State) (l : LinkNo) (f : Frame) :
    (placeFrame s l f).rewriteList = s.rewriteList := by
  unfold placeFrame; split <;> rfl

@[simp] theorem placeFrame_rcv (s : State) (l : LinkNo) (f : Frame) (k : RcvNo) :
    (placeFrame s l f).rcv k = s.rcv k := by
  simp only [State.rcv, placeFrame_rcvs]

@[simp] theorem placeFrame_det (s : State) (l : LinkNo) (f : Frame) (k : RcvNo) :
    (placeFrame s l f).det k = s.det k := by
  simp only [State.det, placeFrame_dets]

@[simp] theorem placeFrame_line (s : State) (l : LinkNo) (f : Frame) (n : LineNo) :
    (placeFrame s l f).line n = s.line n := by
  simp only [State.line, placeFrame_lines]

@[simp] theorem placeFrame_slot (s : State) (l : LinkNo) (f : Frame) (k : SlotNo) :
    (placeFrame s l f).slot k = s.slot k := by
  simp only [State.slot, placeFrame_slots]

/-- A frame placed on an UP link waits in its queue (R140). -/
theorem mem_placeFrame {s : State} {l : LinkNo} (h : linkUp s l = true) (f : Frame) :
    f ∈ ((placeFrame s l f).link l).queue := by
  rw [placeFrame, if_pos h, State.link_modLink_same]
  exact mem_queuePlace f _

/-- A grant moves the rotation pointer to the receiver granted (R74). -/
theorem grant_rotation (s : State) (e : WaitEntry) (k : RcvNo) : (grant s e k).rotation = k := by
  simp only [grant, placeFrame_rotation, setReceiver_rotation]
  cases e.tag <;> rfl

/-- The grant test grants nothing while no line waits (R73). -/
theorem grantTest_nobody {s : State} (h : s.waiting = []) : grantTest s = s := by
  simp only [grantTest, grantLoop, h]

/-- The grant test grants nothing while no receiver is FREE (R73). -/
theorem grantTest_noneFree {s : State} (h : ∀ k, s.rcv k ≠ .free) : grantTest s = s := by
  have hc : chooseRcv s = none := chooseRcv_eq_none_iff.mpr h
  unfold grantTest grantLoop
  rw [hc]
  cases s.waiting <;> rfl

end Sys2Proof.Machine
end

section
/-! O52: the receiver that a grant takes, and the pointer. -/

namespace Sys2Proof.Machine

/-- A write of CTRL that leaves RUN as the exchange state has it takes no effect on the exchange (R169, R173). -/
theorem runChanged_same {old : Bool} {s : State} (bad : Option Word)
    (h : (run s = old ∧ (s.exch = .halted → run s = true)) ∨ s.exch = .starting) :
    runChanged bad old s = .ok s := by
  cases he : s.exch with
  | starting => simp only [runChanged, he]
  | halted =>
    have hr : run s = true := (h.resolve_right (by simp [he])).2 he
    simp [runChanged, he, hr]
  | stopped | stopping | running =>
    have hr : run s = old := (h.resolve_right (by simp [he])).1
    subst hr
    cases hr : run s <;> simp [runChanged, he, hr]

/-- Settles O52: what the grant order finds first is the receiver that R74 names, and no more than the setting is
read from CTRL. -/
theorem grantsFollowPoolSelect : Obligations.GrantsFollowPoolSelect := by
  refine ⟨fun s k h => chooseRcv_lowest_iff h k, fun s i h => chooseRcv_rotate_iff h i, grant_rotation,
    fun s v => ⟨_, _, rfl, rfl, rfl, rfl⟩, fun s hp hr hf => ?_, fun v b s hb hv hrun => ?_⟩
  · have h0 : s.rotation + 1 + 0 = 0 := by rw [hp]; rfl
    rw [← h0, chooseRcv_rotate_iff hr, h0]
    exact ⟨hf, fun j hj => absurd hj (Fin.not_lt_zero j)⟩
  · have hrun0 : run { withCtl b s with ctrl := v &&& Config.ctrlMask } = v.getLsbD 0 := by
      simp [run, Config.ctrlMask]
    have hsame : runChanged b.bad (run s) { withCtl b s with ctrl := v &&& Config.ctrlMask }
        = .ok { withCtl b s with ctrl := v &&& Config.ctrlMask } := by
      refine runChanged_same b.bad (hrun.imp_left fun ⟨hr, hh⟩ => ?_)
      rw [hrun0, hr]
      exact ⟨rfl, hh⟩
    refine ⟨_, ?_, rfl, ?_⟩
    · show onBus b (fun s => (writeCtrl b.bad v s).settle) s = _
      have hw : writeCtrl b.bad v (withCtl b s) = .ok { withCtl b s with ctrl := v &&& Config.ctrlMask } := by
        rw [writeCtrl, if_neg (by rw [hv]; decide)]
        exact hsame
      rw [onBus, if_pos hb, hw]
      rfl
    · simp [rotate]

end Sys2Proof.Machine
end

section
/-! O46: the end of a guard, and the block ends of a LISTENING receiver. -/

namespace Sys2Proof.Machine

/-! ### Marks of a step -/

/-- The image of a line changes only with the line and with the insulation test of its link. -/
theorem imageChanged_of_line {a b : State} {n : LineNo} (hl : b.line n = a.line n)
    (ht : ∀ l, (b.link l).test = (a.link l).test) : imageChanged a b n = false := by
  have hi : imageOf a n = imageOf b n := by
    unfold imageOf testPhase
    rw [hl, ht]
  simp [imageChanged, hl, hi]

/-- A step that changes no image, no item of the header and not the exchange state sets no mark (R165). -/
theorem markChanges_unseen {a b : State} (hi : ∀ n, imageChanged a b n = false)
    (hh : headerItems a = headerItems b) (he : a.exch = b.exch) : markChanges a b = b := by
  have hfold : allLines.foldl (fun s n => if imageChanged a b n then markImage s n else s) b = b :=
    List.foldlRecOn (motive := fun s : State => s = b) allLines _ rfl fun s hs n _ => by
      rw [hi]; exact hs
  unfold markChanges
  rw [hfold]
  exact if_neg (by simp [hh, he])

theorem markChanges_setDet (s : State) (k : RcvNo) (d : Det) : markChanges s (s.setDet k d) = s.setDet k d :=
  markChanges_unseen (fun _ => imageChanged_of_same rfl (fun _ => rfl) _) rfl rfl

/-! ### Digits delivered -/

/-- The count of a LISTEN is all that a digit changes besides its line (R82). -/
theorem countDigit_frame (s : State) (k : RcvNo) : { countDigit s k with slots := s.slots } = s := by
  unfold countDigit
  split <;> rfl

/-- What a tone digit makes of a line in a call once its entry is queued (R40). -/
def LineRec.toneDialled (r : LineRec) : LineRec :=
  if r.sup = .brk then { r with ret := some .dialling, dialEnd := 0 }
  else { r with sup := .dialling, dialEnd := 0 }

/-- What a line shows of it, its marks apart. -/
theorem LineRec.toneDialled_of_bare {x r : LineRec} (h : x.bare = r.toneDialled.bare) :
    x.queue = r.queue ∧ x.lost = r.lost ∧ x.dialEnd = 0 ∧ (r.sup ≠ .brk → x.sup = .dialling)
      ∧ (r.sup = .brk → x.sup = .brk ∧ x.ret = some .dialling) := by
  have hq : x.queue = r.toneDialled.queue := (congrArg LineRec.queue h :)
  have hl : x.lost = r.toneDialled.lost := (congrArg LineRec.lost h :)
  have he : x.dialEnd = r.toneDialled.dialEnd := (congrArg LineRec.dialEnd h :)
  have hs : x.sup = r.toneDialled.sup := (congrArg LineRec.sup h :)
  have ht : x.ret = r.toneDialled.ret := (congrArg LineRec.ret h :)
  rw [hq, hl, he, hs, ht, toneDialled]
  by_cases hb : r.sup = .brk
  · rw [if_pos hb]
    exact ⟨rfl, rfl, rfl, fun hn => absurd hb hn, fun _ => ⟨hb, rfl⟩⟩
  · rw [if_neg hb]
    exact ⟨rfl, rfl, rfl, fun _ => rfl, fun hn => absurd hn hb⟩

theorem toneDigit_call {s : State} {n : LineNo} (h : isCall (s.line n).sup = true) (y : Symbol) :
    toneDigit s n y = s.modLine n fun r => (pushEntry r y .tone 0 s.time).toneDialled := by
  rw [toneDigit, if_pos h, queueEntry, State.modLine_modLine]
  rfl

theorem toneDigit_noCall {s : State} {n : LineNo} (h : isCall (s.line n).sup = false) (y : Symbol) :
    toneDigit s n y = s := by
  rw [toneDigit, h]
  rfl

/-- A digit delivered changes its line and the slot of its LISTEN, and no more. -/
theorem deliver_frame (s : State) (k : RcvNo) (n : LineNo) (y : Symbol) :
    { deliver s k n y with lines := s.lines, slots := s.slots } = s := by
  have hc := congrArg (fun t : State => { t with lines := s.lines, slots := s.slots })
    (countDigit_frame (toneDigit s n y) k)
  refine Eq.trans hc ?_
  cases h : isCall (s.line n).sup with
  | true => rw [toneDigit_call h]; rfl
  | false => rw [toneDigit_noCall h]

theorem deliver_lines (s : State) (k : RcvNo) (n : LineNo) (y : Symbol) :
    (deliver s k n y).lines = (toneDigit s n y).lines :=
  (congrArg State.lines (countDigit_frame (toneDigit s n y) k) :)

theorem deliver_rcvs (s : State) (k : RcvNo) (n : LineNo) (y : Symbol) : (deliver s k n y).rcvs = s.rcvs :=
  (congrArg State.rcvs (deliver_frame s k n y) :)

theorem deliver_det (s : State) (k : RcvNo) (n : LineNo) (y : Symbol) (j : RcvNo) :
    (deliver s k n y).det j = s.det j :=
  (congrArg (fun t : State => t.det j) (deliver_frame s k n y) :)

theorem deliver_line (s : State) (k : RcvNo) (n : LineNo) (y : Symbol) (m : LineNo) :
    (deliver s k n y).line m = (toneDigit s n y).line m := by
  simp only [State.line, deliver_lines]

theorem pushEntry_sup (r : LineRec) (y : Symbol) (c : Source) (p : Nat) (t : Word) :
    (pushEntry r y c p t).sup = r.sup := by
  unfold pushEntry
  split <;> rfl

/-! ### Block ends of a LISTENING receiver -/

theorem blockDue_iff (s : State) (k : RcvNo) : blockDue s k = true
    ↔ ∃ w, (s.det k).began = some w ∧ 0 < (s.time - w).toNat ∧ (s.time - w).toNat % 10 = 0 := by
  unfold blockDue
  split
  · next w hw =>
    rw [Bool.and_eq_true, decide_eq_true_iff, decide_eq_true_iff]
    simp only [hw, elapsed, Config.blockMs, Option.some.injEq, exists_eq_left']
  · next hw => simp [hw]

/-- The detection record of a receiver after a block end, its next block beginning now (R51). -/
def detAfter (s : State) (k : RcvNo) (v : BlockLevels) : Det :=
  { state := (blockAdvance s k v).1, began := some s.time }

theorem blockEnds_notDue {s : State} {k : RcvNo} (v : BlockLevels) (h : blockDue s k ≠ true) :
    blockEnds s k v = s := if_neg h

section Listening
variable {s : State} {k : RcvNo} {e : WaitEntry} {tap : Tap} {v : BlockLevels}

/-- A block end that accepts no digit moves the detection alone (R51). -/
theorem blockEnds_silent (hr : s.rcv k = .listening e tap) (hd : blockDue s k = true)
    (ha : (blockAdvance s k v).2 = none) : blockEnds s k v = s.setDet k (detAfter s k v) := by
  unfold blockEnds
  rw [if_pos hd, hr]
  dsimp only
  rw [ha]
  rfl

/-- A block end that accepts a digit delivers it besides (R64). -/
theorem blockEnds_digit {y : Symbol} (hr : s.rcv k = .listening e tap) (hd : blockDue s k = true)
    (ha : (blockAdvance s k v).2 = some y) :
    blockEnds s k v = deliver (s.setDet k (detAfter s k v)) k e.line y := by
  unfold blockEnds
  rw [if_pos hd, hr]
  dsimp only
  rw [ha]
  rfl

end Listening

/-- A digit is accepted at the entry to ON alone (R60, R61). -/
theorem advanceDet_accepts {on off : Nat} {d : DetState} {v : Option Symbol} {y : Symbol}
    (h : (advanceDet on off d v).2 = some y) : (advanceDet on off d v).1 = .on y false := by
  have hstart : ∀ e, (startPending on e).2 = some y → (startPending on e).1 = .on y false := fun e he => by
    unfold startPending at he ⊢
    split at he
    · next hon => rw [if_pos hon]; exact congrArg (DetState.on · false) (Option.some.inj he)
    · cases he
  unfold advanceDet at h ⊢
  split at h
  case h_1 => cases h
  case h_2 e => exact hstart e h
  case h_3 => cases h
  case h_4 held n e =>
    split at h
    · next heq =>
      split at h
      · next hon => simp only [if_pos heq, if_pos hon]; exact congrArg (DetState.on · false) (Option.some.inj h)
      · cases h
    · next heq => simp only [if_neg heq]; exact hstart e h
  case h_5 =>
    split at h
    · cases h
    · split at h <;> cases h
  case h_6 => split at h <;> cases h
  case h_7 => cases h

/-- A gap accepts no digit, however it goes on (R63). -/
theorem advanceDet_gap {d : DetState} (h : inGap d = true) (on off : Nat) (v : Option Symbol) :
    (advanceDet on off d v).2 = none := by
  cases d with
  | gap g =>
    cases v with
    | none => simp only [advanceDet]; split <;> rfl
    | some y => rfl
  | _ => cases h

/-! ### The step of a TONE ACCEPTANCE -/

/-- The step in which a LISTENING receiver accepts a digit: the receiver is in ON, and the digit is delivered. -/
theorem exec_toneAcceptance {s : State} {k : RcvNo} {e : WaitEntry} {tap : Tap} {p : BlockPowers} {y : Symbol}
    (hr : s.rcv k = .listening e tap) (hd : blockDue s k = true)
    (ha : (blockAdvance s k (readLevels p)).2 = some y) :
    exec (.toneAcceptance k p) s
      = .next (markChanges s
          (deliver (s.setDet k { state := .on y false, began := some s.time }) k e.line y)) := by
  have htone : toneDue s k (readLevels p) = true := by
    unfold toneDue hears
    rw [hr, hd, ha]
    rfl
  have hon : detAfter s k (readLevels p) = { state := .on y false, began := some s.time } := by
    rw [detAfter, blockAdvance, advanceDet_accepts ha]
  show Host.Outcome.next (markChanges s
    (if toneDue s k (readLevels p) then blockEnds s k (readLevels p) else s)) = _
  rw [if_pos htone, blockEnds_digit hr hd ha, hon]

/-- In that step a line that is not the receiver's, or is in no call state, keeps its record and its marks. -/
theorem toneStep_line {s : State} {k : RcvNo} {n : LineNo} (d : Det) (y : Symbol) (m : LineNo)
    (h : m ≠ n ∨ isCall (s.line n).sup = false) :
    (markChanges s (deliver (s.setDet k d) k n y)).line m = s.line m := by
  have hl : (deliver (s.setDet k d) k n y).line m = s.line m := by
    rw [deliver_line]
    cases hc : isCall (s.line n).sup with
    | true =>
      rw [toneDigit_call (s := s.setDet k d) hc, State.line_modLine_other _ (h.resolve_right (by simp [hc]))]
      rfl
    | false => rw [toneDigit_noCall (s := s.setDet k d) hc]; rfl
  have ht : ∀ l, ((deliver (s.setDet k d) k n y).link l).test = (s.link l).test := fun l =>
    (congrArg (fun t : State => (t.link l).test) (deliver_frame (s.setDet k d) k n y) :)
  rw [markChanges_line, imageChanged_of_line hl ht, Bool.or_false, hl]

/-- The receiver's line in a call state queues the digit and dials (R40, R64). -/
theorem toneStep_call {s : State} {k : RcvNo} {n : LineNo} (d : Det) (y : Symbol)
    (h : isCall (s.line n).sup = true) :
    ((markChanges s (deliver (s.setDet k d) k n y)).line n).bare
      = (pushEntry (s.line n) y .tone 0 s.time).toneDialled.bare := by
  rw [markChanges_line_bare, deliver_line, toneDigit_call (s := s.setDet k d) h, State.line_modLine_same]
  rfl

/-- Settles O46: a guard that ends starts the first block; a block end moves the detection, and the digit it accepts,
if any, is delivered to the receiver's line. -/
theorem blockEndsAdvanceDetection : Obligations.BlockEndsAdvanceDetection := by
  intro k e tap p s v ends n r
  have hdue : blockDue s k = true ↔ ends := blockDue_iff s k
  refine ⟨fun since hr hg => ?_, fun hr hd => ?_, fun hr hd ha => ?_, fun hgap hr => ?_, fun y hr hd ha => ?_⟩
  · have hend : guardEnds s k = s.startListening k (.listening e tap) := by
      unfold guardEnds
      rw [hr]
      exact if_pos hg
    refine ⟨markChanges s (guardEnds s k), rfl, ?_⟩
    rw [markChanges_bare, hend]
    rfl
  · show Host.Outcome.next (markChanges s (blockEnds s k v)) = _
    rw [blockEnds_notDue v (mt hdue.1 hd), markChanges_self]
  · refine ⟨markChanges s (blockEnds s k v), rfl, ?_⟩
    rw [blockEnds_silent hr (hdue.2 hd) ha, markChanges_setDet]
    rfl
  · have hgap' := hgap
    unfold gapDue at hgap'
    simp only [Bool.and_eq_true, decide_eq_true_eq] at hgap'
    obtain ⟨⟨⟨-, hd⟩, hin⟩, hq⟩ := hgap'
    refine ⟨markChanges s (if gapDue s k v then blockEnds s k v else s), rfl, ?_⟩
    rw [if_pos hgap, blockEnds_silent hr hd (advanceDet_gap hin _ _ _), markChanges_setDet, detAfter, hq]
  · refine ⟨_, exec_toneAcceptance hr (hdue.2 hd) ha, fun hc => ?_, fun hc => ?_, ?_, fun j hj => ?_, ?_,
      fun m hm => toneStep_line _ y m (.inl hm), ?_⟩
    · have hsup : (pushEntry (s.line e.line) y .tone 0 s.time).sup = r.sup := pushEntry_sup _ _ _ _ _
      rw [← hsup]
      exact LineRec.toneDialled_of_bare (toneStep_call _ y hc)
    · ext i hi : 1
      exact toneStep_line _ y ⟨i, hi⟩ (.inr hc)
    · rw [markChanges_det, deliver_det, State.det_setDet_same]
    · rw [markChanges_det, deliver_det, State.det_setDet_other s hj]
    · rw [markChanges_rcvs, deliver_rcvs]
      rfl
    · rw [markChanges_engine, deliver_engine, setDet_engine]

end Sys2Proof.Machine
end

section
/-! SUPPORT. The moves of the pool, continued: what a grant leaves in its receiver, its line and the list of rewrites
(R73, R165), what a release does to a receiver that listens or whose TAP CONNECT is queued (R78), and what becomes of
the one line that waits when a receiver goes FREE. -/

namespace Sys2Proof.Machine

/-! ### A line's receiver field -/

@[simp] theorem linkUp_setReceiver (s : State) (n : LineNo) (k : Option RcvNo) (l : LinkNo) :
    linkUp (setReceiver s n k) l = linkUp s l :=
  (congrArg (fun v : Vector LinkRec 4 => decide ((v[l.1]'l.2).state = .up)) (setReceiver_links s n k) :)

@[simp] theorem setReceiver_slot (s : State) (n : LineNo) (k : Option RcvNo) (t : SlotNo) :
    (setReceiver s n k).slot t = s.slot t := by
  simp only [State.slot, setReceiver_slots]

@[simp] theorem setReceiver_rcv (s : State) (n : LineNo) (k : Option RcvNo) (j : RcvNo) :
    (setReceiver s n k).rcv j = s.rcv j := by
  simp only [State.rcv, setReceiver_rcvs]

@[simp] theorem setReceiver_det (s : State) (n : LineNo) (k : Option RcvNo) (j : RcvNo) :
    (setReceiver s n k).det j = s.det j := by
  simp only [State.det, setReceiver_dets]

theorem setReceiver_line_same (s : State) (n : LineNo) (k : Option RcvNo) :
    ((setReceiver s n k).line n).receiver = k := by
  rw [setReceiver_line, if_pos rfl]

/-- While RUNNING a line whose receiver field changes is listed for a rewrite, at most once (R165). -/
theorem setReceiver_rewriteList {s : State} {n : LineNo} {k : Option RcvNo} (hrun : s.exch = .running)
    (h : (s.line n).receiver ≠ k) :
    (setReceiver s n k).rewriteList = s.rewriteList ++ [n].filter fun m => decide (m ∉ s.rewriteList) := by
  rw [setReceiver_eq, if_neg h]
  by_cases hn : n ∈ s.rewriteList <;> simp [hrun, hn]

/-- Two lines listed one after the other. -/
theorem listed_twice (l : List LineNo) {a b : LineNo} (h : a ≠ b) :
    let la := l ++ [a].filter fun m => decide (m ∉ l)
    la ++ [b].filter (fun m => decide (m ∉ la)) = l ++ [a, b].filter fun m => decide (m ∉ l) := by
  have hb : ∀ m ∈ [b], decide (m ∉ l ++ [a].filter fun m => decide (m ∉ l)) = decide (m ∉ l) := fun m hm => by
    have hne : m ≠ a := fun e => h (e.symm.trans (List.mem_singleton.mp hm))
    simp [hne]
  intro la
  rw [List.filter_congr hb, List.append_assoc, ← List.filter_append]
  rfl

/-! ### A grant -/

section Grant
variable (s : State) (e : WaitEntry) (k : RcvNo)

/-- A grant but for the line's field and the frame: the receiver, the pointer, and the LISTEN's last receiver. -/
def granting : State :=
  match e.tag with
  | some t => modListen { s.setRcv k (.connecting e (tapOf e.line) .queued) with rotation := k } t
      fun c => { c with last := some k }
  | none => { s.setRcv k (.connecting e (tapOf e.line) .queued) with rotation := k }

theorem grant_eq : grant s e k
    = placeFrame (setReceiver (granting s e k) e.line (some k)) (linkOf e.line) (.tapConnect (pairOf e.line) k) := by
  unfold grant granting
  cases e.tag <;> rfl

/-- Slots apart, that much of a grant moves the receiver and the pointer. -/
theorem granting_frame : { granting s e k with slots := s.slots }
    = { s.setRcv k (.connecting e (tapOf e.line) .queued) with rotation := k } := by
  unfold granting
  cases e.tag <;> rfl

/-- Of a line a grant sets the receiver field, and the mark that shows its change. -/
theorem grant_line (m : LineNo) : (grant s e k).line m = if m = e.line then
      { s.line e.line with receiver := some k,
                           changePending := (s.line e.line).changePending
                             || decide ((s.line e.line).receiver ≠ some k) }
    else s.line m := by
  have hl : ∀ n, (granting s e k).line n = s.line n := fun n =>
    (congrArg (fun t : State => t.line n) (granting_frame s e k) :)
  have hp : (grant s e k).line m = (setReceiver (granting s e k) e.line (some k)).line m := by
    rw [grant_eq, placeFrame_line]
  rw [hp, setReceiver_line, hl, hl]

theorem grant_waiting : (grant s e k).waiting = s.waiting := by
  rw [grant_eq, placeFrame_waiting, setReceiver_waiting]
  exact (congrArg State.waiting (granting_frame s e k) :)

theorem grant_rcv : (grant s e k).rcv k = .connecting e (tapOf e.line) .queued := by
  have hr : (grant s e k).rcvs = (s.setRcv k (.connecting e (tapOf e.line) .queued)).rcvs := by
    rw [grant_eq, placeFrame_rcvs, setReceiver_rcvs]
    exact (congrArg State.rcvs (granting_frame s e k) :)
  rw [State.rcv, hr]
  exact State.rcv_setRcv_same s k _

theorem grant_rewriteList (hrun : s.exch = .running) (h : (s.line e.line).receiver ≠ some k) :
    (grant s e k).rewriteList = s.rewriteList ++ [e.line].filter fun m => decide (m ∉ s.rewriteList) := by
  have hl : (granting s e k).line e.line = s.line e.line :=
    (congrArg (fun t : State => t.line e.line) (granting_frame s e k) :)
  have hw : (granting s e k).rewriteList = s.rewriteList :=
    (congrArg State.rewriteList (granting_frame s e k) :)
  have hx : (granting s e k).exch = s.exch := (congrArg State.exch (granting_frame s e k) :)
  rw [grant_eq, placeFrame_rewriteList, setReceiver_rewriteList (hx.trans hrun) (hl ▸ h), hw]

/-- A LISTEN in flight stays in flight, its last receiver apart. -/
theorem grant_listen {t : SlotNo} {c : ListenCtx} (h : (s.slot t).flight = some (.listen c)) :
    ∃ c', ((grant s e k).slot t).flight = some (.listen c') := by
  have hs : (grant s e k).slot t = (granting s e k).slot t := by
    rw [grant_eq, placeFrame_slot, setReceiver_slot]
  rw [hs, granting]
  cases e.tag with
  | none => exact ⟨c, h⟩
  | some u =>
    dsimp only
    rw [modListen, State.slot_modSlot_ite]
    split
    · next hu =>
      subst hu
      have hf : (State.slot { s.setRcv k (.connecting e (tapOf e.line) .queued) with rotation := k } t).flight
          = some (.listen c) := h
      rw [hf]
      exact ⟨_, rfl⟩
    · exact ⟨c, h⟩

end Grant

/-- The list emptied of its one line. -/
def State.emptied (s : State) : State := { s with waiting := [] }

@[simp] theorem State.emptied_line (s : State) (n : LineNo) : s.emptied.line n = s.line n := rfl

@[simp] theorem State.emptied_slot (s : State) (t : SlotNo) : s.emptied.slot t = s.slot t := rfl

@[simp] theorem State.emptied_rewriteList (s : State) : s.emptied.rewriteList = s.rewriteList := rfl

/-- The grant test with one line waiting and a FREE receiver (R73). -/
theorem grantTest_one {s : State} {e : WaitEntry} {k : RcvNo} (hw : s.waiting = [e]) (hk : chooseRcv s = some k) :
    grantTest s = grant s.emptied e k := by
  have hnil : (grant s.emptied e k).waiting = [] := grant_waiting _ e k
  have hstop : grantLoop 7 (grant s.emptied e k) = grant s.emptied e k := by
    unfold grantLoop
    rw [hnil]
  rw [grantTest, grantLoop, hw, hk]
  exact hstop

/-! ### A release -/

section Release
variable {s : State} {k : RcvNo} {e : WaitEntry} {tap : Tap}

/-- A LISTENING receiver on an UP link is RELEASING, its TAP DISCONNECT placed (R78). -/
theorem releaseRcv_listening (hr : s.rcv k = .listening e tap) (hup : linkUp s tap.link = true) (out : Bool) :
    releaseRcv s k out
      = placeFrame ((setReceiver s e.line none).setRcv k (.releasing tap .awaitDisconnectAck out)) tap.link
          (.tapDisconnect k) := by
  unfold releaseRcv
  rw [hr]
  dsimp only
  rw [linkUp_setReceiver, if_pos hup]

/-- Its release, while no line waits. -/
theorem release_listening (hr : s.rcv k = .listening e tap) (hup : linkUp s tap.link = true) (hw : s.waiting = []) :
    release s k
      = placeFrame ((setReceiver s e.line none).setRcv k (.releasing tap .awaitDisconnectAck false)) tap.link
          (.tapDisconnect k) := by
  rw [release, releaseRcv_listening hr hup, grantTest_nobody]
  rw [placeFrame_waiting]
  exact (setReceiver_waiting s e.line none).trans hw

/-- A receiver whose TAP CONNECT is queued on an UP link is let go at once, the frame withdrawn (R78). -/
theorem releaseRcv_queued (hr : s.rcv k = .connecting e tap .queued) (hup : linkUp s tap.link = true) (out : Bool) :
    releaseRcv s k out
      = (withdrawFrame (setReceiver s e.line none) tap.link (.tapConnect tap.pair k)).setRcv k (freedState out) := by
  unfold releaseRcv
  rw [hr]
  dsimp only
  rw [linkUp_setReceiver, if_pos hup]

theorem releaseRcv_queued_slot (hr : s.rcv k = .connecting e tap .queued) (hup : linkUp s tap.link = true)
    (out : Bool) (t : SlotNo) : (releaseRcv s k out).emptied.slot t = s.slot t := by
  rw [releaseRcv_queued hr hup, State.emptied_slot, State.slot_setRcv, withdrawFrame, State.slot_modLink,
    setReceiver_slot]

/-- Such a receiver goes over to the one line that waits, if no other is FREE (R78, R73). -/
theorem release_queued {x : WaitEntry} (hr : s.rcv k = .connecting e tap .queued)
    (hup : linkUp s tap.link = true) (hw : s.waiting = [x]) (hf : ∀ i, s.rcv i ≠ .free) :
    release s k = grant (releaseRcv s k false).emptied x k := by
  rw [release]
  refine grantTest_one ?_ (chooseRcv_only ?_ fun j hj => ?_)
  · rw [releaseRcv_queued hr hup, State.setRcv_waiting, withdrawFrame, State.modLink_waiting, setReceiver_waiting, hw]
  · rw [releaseRcv_queued hr hup, State.rcv_setRcv_same]
    rfl
  · rw [releaseRcv_queued hr hup, State.rcv_setRcv_other _ hj, withdrawFrame, State.rcv_modLink, setReceiver_rcv]
    exact hf j

/-- The lines and the rewrite list after that: the line that lost the receiver is listed before the line that gained
it, and no other line changes (R165). -/
theorem release_queued_lines {x : WaitEntry} (hr : s.rcv k = .connecting e tap .queued)
    (hup : linkUp s tap.link = true) (hw : s.waiting = [x]) (hf : ∀ i, s.rcv i ≠ .free)
    (he : (s.line e.line).receiver = some k) (hx : (s.line x.line).receiver = none) (hrun : s.exch = .running) :
    ((release s k).line e.line).receiver = none ∧ ((release s k).line x.line).receiver = some k
      ∧ (∀ m, m ≠ e.line → m ≠ x.line → (release s k).line m = s.line m)
      ∧ (release s k).rewriteList
          = s.rewriteList ++ [e.line, x.line].filter fun n => decide (n ∉ s.rewriteList) := by
  have hne : e.line ≠ x.line := fun h => by rw [h, hx] at he; cases he
  have hline : ∀ m, (releaseRcv s k false).line m
      = (setReceiver s e.line none).line m := fun m => by
    rw [releaseRcv_queued hr hup, State.line_setRcv, withdrawFrame, State.line_modLink]
  have hlist : (releaseRcv s k false).rewriteList = (setReceiver s e.line none).rewriteList := by
    rw [releaseRcv_queued hr hup, State.setRcv_rewriteList, withdrawFrame, State.modLink_rewriteList]
  have hxline : (setReceiver s e.line none).line x.line = s.line x.line := by
    rw [setReceiver_line, if_neg hne.symm]
  rw [release_queued hr hup hw hf]
  refine ⟨?_, ?_, fun m hme hmx => ?_, ?_⟩
  · rw [grant_line, if_neg hne, State.emptied_line, hline, setReceiver_line_same]
  · rw [grant_line, if_pos rfl]
  · rw [grant_line, if_neg hmx, State.emptied_line, hline, setReceiver_line, if_neg hme]
  · have hrun' : (releaseRcv s k false).emptied.exch = .running :=
      ((congrArg Engine.exch (releaseRcv_engine s k false) :)).trans hrun
    rw [grant_rewriteList _ x k hrun' (by rw [State.emptied_line, hline, hxline, hx]; simp),
      State.emptied_rewriteList, hlist,
      setReceiver_rewriteList hrun (by rw [he]; simp)]
    exact listed_twice s.rewriteList hne

end Release

end Sys2Proof.Machine
end

section
/-! O50: the expiry of a LISTEN. -/

namespace Sys2Proof.Machine

/-! ### The end of a LISTEN -/

/-- What the end of the LISTEN of a slot leaves of a waiting entry: the tag goes, and an entry of its own with it
(R72). -/
def untag (t : SlotNo) (e : WaitEntry) : Option WaitEntry :=
  if e.tag = some t then
    (match e.origin with
      | .listen => none
      | .supervision => some { e with tag := none })
  else some e

theorem untag_tag {t : SlotNo} {e x : WaitEntry} (h : untag t e = some x) : x.tag ≠ some t := by
  unfold untag at h
  split at h
  · split at h
    · cases h
    · obtain rfl := Option.some.inj h
      exact nofun
  · next hne => exact Option.some.inj h ▸ hne

/-- The lines that are left are those whose entry is not the LISTEN's own. -/
theorem untag_lines (t : SlotNo) (l : List WaitEntry) :
    (l.filterMap (untag t)).map WaitEntry.line
      = (l.filter fun e => decide (¬(e.tag = some t ∧ e.origin = .listen))).map WaitEntry.line := by
  induction l with
  | nil => rfl
  | cons e l ih =>
    rw [List.filterMap_cons, List.filter_cons]
    by_cases ht : e.tag = some t
    · cases ho : e.origin <;> simp [untag, ht, ho, ih]
    · simp [untag, ht, ih]

theorem dropListen_waiting {s : State} {t : SlotNo} (h : rcvOfTag s t = none) :
    dropListen s t = { s with waiting := s.waiting.filterMap (untag t) } := by
  unfold dropListen
  rw [h]
  rfl

theorem dropListen_served {s : State} {t : SlotNo} {k : RcvNo} (h : rcvOfTag s t = some k) :
    dropListen s t = release s k := by
  unfold dropListen
  rw [h]

/-- A LISTEN in flight ends with its completion due in the slot, and no more (R84, R178). -/
theorem finishListen_eq {s : State} {t : SlotNo} {c : ListenCtx} (hf : (s.slot t).flight = some (.listen c))
    (hx : s.exch = .running ∨ s.exch = .stopping) (o : OrderOutcome) (r : Reason) :
    finishListen s t o r = s.modSlot t fun x =>
      { x with flight := none,
               due := some { outcome := o, reason := r, detail := detail (listenDetail s c), result := none } } := by
  have hl : listenOf s t = some c := by unfold listenOf; rw [hf]
  unfold finishListen
  rw [hl]
  exact if_pos hx

/-- The step of a LISTEN's expiry, once it is due (R84). -/
theorem exec_listenExpiry {s : State} {k : SlotNo} {c : ListenCtx} (hf : (s.slot k).flight = some (.listen c))
    (hx : reached s.time c.expiry = true) :
    exec (.listenExpiry k) s = .next (markChanges s (expireListen s k)) := by
  have hd : listenDue s k = true := by
    have hl : listenOf s k = some c := by unfold listenOf; rw [hf]
    unfold listenDue
    rw [hl]
    exact hx
  show Host.Outcome.next (markChanges s (if listenDue s k then expireListen s k else s)) = _
  rw [if_pos hd]

/-- The slot of a LISTEN that ended, its completion due (R84, R178). -/
theorem markChanges_finishListen_slot {a s : State} {t : SlotNo} {c : ListenCtx}
    (hf : (s.slot t).flight = some (.listen c)) (hx : s.exch = .running ∨ s.exch = .stopping)
    (o : OrderOutcome) (r : Reason) :
    ((markChanges a (finishListen s t o r)).slot t).flight = none
      ∧ ((markChanges a (finishListen s t o r)).slot t).due.map (fun d => (d.outcome, d.reason)) = some (o, r) := by
  rw [markChanges_slot, finishListen_eq hf hx, State.slot_modSlot_same]
  exact ⟨rfl, rfl⟩

/-- A step marks no line more than the list holds where all others keep their record (R165). -/
theorem markChanges_listed {a b : State} (ht : ∀ l, (b.link l).test = (a.link l).test)
    (h : ∀ n, n ∉ b.rewriteList → b.line n = a.line n) : (markChanges a b).rewriteList = b.rewriteList := by
  have hnil : (allLines.filter fun n => imageChanged a b n && decide (n ∉ b.rewriteList)) = [] := by
    rw [List.filter_eq_nil_iff]
    intro n _ hn
    simp only [Bool.and_eq_true, decide_eq_true_eq] at hn
    rw [imageChanged_of_line (h n hn.2) ht] at hn
    cases hn.1
  rw [markChanges_rewriteList, hnil, ite_self, List.append_nil]

section Expiry
variable {s : State} {k : SlotNo} {c : ListenCtx}

theorem expireListen_unserved (h : rcvOfTag s k = none) :
    expireListen s k
      = finishListen { s with waiting := s.waiting.filterMap (untag k) } k .failed .noReceiver := by
  unfold expireListen
  rw [h, dropListen_waiting h]

theorem expireListen_served {j : RcvNo} (h : rcvOfTag s k = some j) :
    expireListen s k = finishListen (release s j) k .done .none := by
  unfold expireListen
  rw [h, dropListen_served h]

theorem expireListen_test (l : LinkNo) : ((expireListen s k).link l).test = (s.link l).test := by
  have h : (expireListen s k).unsupervised = s.unsupervised := by
    unfold expireListen finishListen
    split
    · split
      · exact (finish_unsupervised _ _ _ _ _).trans (dropListen_unsupervised s k)
      · exact dropListen_unsupervised s k
    · split
      · exact (finish_unsupervised _ _ _ _ _).trans (dropListen_unsupervised s k)
      · exact dropListen_unsupervised s k
  exact (congrArg LinkRec.test (link_standing (congrArg Prod.snd h) l) :)

/-- A LISTEN that waits ends FAILED, its tag leaving the list and an entry of its own with it (R84). -/
theorem expiry_unserved (hf : (s.slot k).flight = some (.listen c)) (hx : s.exch = .running ∨ s.exch = .stopping)
    (hnone : rcvOfTag s k = none) :
    let t := markChanges s (expireListen s k)
    (t.slot k).flight = none
      ∧ (t.slot k).due.map (fun d => (d.outcome, d.reason)) = some (.failed, .noReceiver)
      ∧ t.waiting = s.waiting.filterMap (untag k) ∧ (∀ m, (t.line m).bare = (s.line m).bare) ∧ t.rcvs = s.rcvs := by
  have hf' : (State.slot { s with waiting := s.waiting.filterMap (untag k) } k).flight = some (.listen c) := hf
  have hs := finishListen_eq hf' hx .failed .noReceiver
  obtain ⟨hflight, hdue⟩ := markChanges_finishListen_slot (a := s) hf' hx .failed .noReceiver
  intro t
  have ht : t = markChanges s (finishListen { s with waiting := s.waiting.filterMap (untag k) } k .failed .noReceiver) :=
    congrArg (markChanges s) (expireListen_unserved hnone)
  rw [ht]
  refine ⟨hflight, hdue, ?_, fun m => ?_, ?_⟩
  · rw [markChanges_waiting, hs]
    rfl
  · rw [markChanges_line_bare, hs]
    rfl
  · rw [markChanges_rcvs, hs]
    rfl

variable {j : RcvNo} {e : WaitEntry} {tap : Tap}

/-- A LISTEN that is served ends DONE, and of the release of its receiver the end changes its slot alone (R84). -/
theorem expiry_served {c' : ListenCtx} (hf : ((release s j).slot k).flight = some (.listen c'))
    (hx : s.exch = .running ∨ s.exch = .stopping) (hj : rcvOfTag s k = some j) :
    let t := markChanges s (expireListen s k)
    (t.slot k).flight = none ∧ (t.slot k).due.map (fun d => (d.outcome, d.reason)) = some (.done, .none)
      ∧ (∀ i, t.rcv i = (release s j).rcv i) ∧ (∀ i, t.det i = (release s j).det i)
      ∧ (∀ l, t.link l = (release s j).link l) ∧ t.waiting = (release s j).waiting
      ∧ t.rotation = (release s j).rotation
      ∧ (∀ m, (t.line m).receiver = ((release s j).line m).receiver)
      ∧ ((∀ m, m ∉ (release s j).rewriteList → (release s j).line m = s.line m) →
          t.rewriteList = (release s j).rewriteList) := by
  have hexch : s.exch = (release s j).exch := (congrArg Engine.exch (release_engine s j).symm :)
  have hx' : (release s j).exch = .running ∨ (release s j).exch = .stopping :=
    hexch ▸ hx
  obtain ⟨hflight, hdue⟩ := markChanges_finishListen_slot (a := s) hf hx' .done .none
  have htest := expireListen_test (s := s) (k := k)
  intro t
  have ht : t = markChanges s (finishListen (release s j) k .done .none) :=
    congrArg (markChanges s) (expireListen_served hj)
  rw [expireListen_served hj] at htest
  rw [ht]
  refine ⟨hflight, hdue, fun i => ?_, fun i => ?_, fun l => ?_, ?_, ?_, fun m => ?_, fun h => ?_⟩
  · rw [markChanges_rcv, finishListen_eq hf hx', State.rcv_modSlot]
  · rw [markChanges_det, finishListen_eq hf hx', State.det_modSlot]
  · rw [markChanges_link, finishListen_eq hf hx', State.link_modSlot]
  · rw [markChanges_waiting, finishListen_eq hf hx', State.modSlot_waiting]
  · rw [markChanges_rotation, finishListen_eq hf hx', State.modSlot_rotation]
  · rw [markChanges_line, finishListen_eq hf hx', State.line_modSlot]
  · rw [finishListen_eq hf hx'] at htest ⊢
    exact markChanges_listed htest h

end Expiry

/-- Settles O50: a LISTEN that waits leaves the list; one that is served gives its receiver up, to a TAP DISCONNECT
or, its TAP CONNECT still queued, to the line that waits. -/
theorem listensEndAtTheirExpiry : Obligations.ListensEndAtTheirExpiry := by
  intro k c s hf hx hexch
  have hengine : (markChanges s (expireListen s k)).engine = s.engine := by
    rw [markChanges_engine, expireListen_engine]
  have hlines : ∀ m, sameButReceiver ((markChanges s (expireListen s k)).line m) (s.line m) := fun m =>
    sameButReceiver_of_noRcv (by rw [markChanges_line_noRcv, expireListen_noRcv])
  refine ⟨fun hnone => ?_, fun j e tap hj hr hup hw => ?_, fun j e tap x hj hr hup hw hfree hpool hrun => ?_⟩
  · obtain ⟨hflight, hdue, hwait, hbare, hrcvs⟩ := expiry_unserved hf hexch hnone
    refine ⟨_, exec_listenExpiry hf hx, hflight, hdue, fun y hy => ?_, ?_, hbare, hrcvs, hengine⟩
    · rw [hwait] at hy
      obtain ⟨z, -, hz⟩ := List.mem_filterMap.mp hy
      exact untag_tag hz
    · rw [hwait, untag_lines]
  · have hrel := release_listening hr hup hw
    have hslot : (release s j).slot k = s.slot k := by
      rw [hrel, placeFrame_slot, State.slot_setRcv, setReceiver_slot]
    obtain ⟨hflight, hdue, hrcv, hdet, hlink, -, -, hline, -⟩ := expiry_served (hslot ▸ hf) hexch hj
    refine ⟨_, exec_listenExpiry hf hx, hflight, hdue, ?_, ?_, ?_, ?_, hlines, hengine⟩
    · rw [hrcv, hrel, placeFrame_rcv, State.rcv_setRcv_same]
    · rw [hdet, hrel, placeFrame_det, State.det_setRcv_same]
    · rw [hline, hrel, placeFrame_line, State.line_setRcv, setReceiver_line_same]
    · have hup' : linkUp ((setReceiver s e.line none).setRcv j (.releasing tap .awaitDisconnectAck false)) tap.link
          = true := (linkUp_setReceiver s e.line none tap.link).trans hup
      rw [hlink, hrel]
      exact mem_placeFrame hup' _
  · have he : (s.line e.line).receiver = some j := hpool.attached j e (by rw [hr]; rfl)
    have hnone : (s.line x.line).receiver = none := hpool.apart x (by rw [hw]; exact List.mem_singleton_self x)
    have hrel := release_queued hr hup hw hfree
    obtain ⟨hlost, hgained, hothers, hlist⟩ := release_queued_lines hr hup hw hfree he hnone hrun
    have hslot : ((releaseRcv s j false).emptied.slot k).flight = some (.listen c) := by
      rw [releaseRcv_queued_slot hr hup, hf]
    obtain ⟨c', hf'⟩ := grant_listen (releaseRcv s j false).emptied x j hslot
    obtain ⟨hflight, hdue, hrcv, -, -, hwait, hrot, hline, hrewrite⟩ := expiry_served (hrel ▸ hf') hexch hj
    refine ⟨_, exec_listenExpiry hf hx, hflight, hdue, ?_, ?_, ?_, ?_, ?_, ?_, hlines, hengine⟩
    · rw [hrcv, hrel, grant_rcv]
      rfl
    · rw [hrot, hrel, grant_rotation]
    · rw [hwait, hrel, grant_waiting]
      rfl
    · rw [hline, hlost]
    · rw [hline, hgained]
    · refine (hrewrite fun m hm => hothers m ?_ ?_).trans hlist
      all_goals
        rintro rfl
        rw [hlist] at hm
        simp at hm

end Sys2Proof.Machine
end

section
/-! O45: the replies to TAP frames. -/

namespace Sys2Proof.Machine

/-! ### The next exchange of a link -/

@[simp] theorem advanceLink_waiting (s : State) (l : LinkNo) : (advanceLink s l).waiting = s.waiting :=
  (congrArg State.waiting (advanceLink_frame s l) :)

/-- A receiver that has no TAP CONNECT queued. -/
def notQueued (r : RcvState) : Prop := ∀ e tap, r ≠ .connecting e tap .queued

/-- As has none that serves no line. -/
theorem notQueued_of_none {r : RcvState} (h : grantedEntry r = none) : notQueued r := fun _ _ hr => by
  rw [hr] at h
  cases h

theorem notQueued_guarding {e : WaitEntry} {tap : Tap} {since : Word} :
    notQueued (.connecting e tap (.guarding since)) := fun _ _ h => by cases h

/-- Taking a TAP CONNECT for sending moves the receiver that has it queued, and no other (R75). -/
theorem tapTaken_keeps {s : State} {j : RcvNo} (k : RcvNo) (h : notQueued (s.rcv j)) :
    (tapTaken s k).rcv j = s.rcv j ∧ (tapTaken s k).det j = s.det j := by
  unfold tapTaken
  split
  · next e tap hk =>
    have hj : j ≠ k := fun hj => h e tap (hj ▸ hk)
    exact ⟨State.rcv_setRcv_other s hj _, State.det_setRcv_other s hj _⟩
  · exact ⟨rfl, rfl⟩

theorem frameTaken_keeps {s : State} {j : RcvNo} (f : Frame) (h : notQueued (s.rcv j)) :
    (frameTaken s f).rcv j = s.rcv j ∧ (frameTaken s f).det j = s.det j := by
  cases f with
  | tapConnect p k => exact tapTaken_keeps k h
  | _ => exact ⟨rfl, rfl⟩

/-- The next exchange of a link leaves a receiver that has no TAP CONNECT queued (R75). -/
theorem advanceLink_keeps {s : State} {j : RcvNo} (l : LinkNo) (h : notQueued (s.rcv j)) :
    (advanceLink s l).rcv j = s.rcv j ∧ (advanceLink s l).det j = s.det j := by
  have hend : (endControl s l).rcv j = s.rcv j ∧ (endControl s l).det j = s.det j := by
    rw [endControl_eq]
    exact ⟨rfl, rfl⟩
  unfold advanceLink
  dsimp only
  split
  · split
    · exact hend
    split
    · exact ⟨rfl, rfl⟩
    · next f rest _ _ =>
      exact frameTaken_keeps (s := sendControl (s.modLink l fun r => { r with queue := rest }) l f) f h
    · exact hend
  · exact ⟨rfl, rfl⟩

theorem frameTaken_link (s : State) (f : Frame) (l : LinkNo) : (frameTaken s f).link l = s.link l :=
  (congrArg (fun t : State => t.link l) (frameTaken_frame s f) :)

/-- A frame that waits in a queue still waits after the link's next exchange, or is that exchange (R141). -/
theorem advanceLink_queued {s : State} {m : LinkNo} {f : Frame} (l : LinkNo) (h : f ∈ (s.link m).queue) :
    f ∈ ((advanceLink s l).link m).queue ∨ ((advanceLink s l).link m).exchange = some f := by
  by_cases hm : m = l
  · subst hm
    have hend : f ∈ ((endControl s m).link m).queue := by
      rw [endControl_eq, State.link_modLink_same]
      exact h
    unfold advanceLink
    dsimp only
    split
    · split
      · exact .inl hend
      split
      · rw [sendControl_modLink, State.link_modLink_same]
        exact .inl h
      · next g rest _ hq =>
        rw [frameTaken_link, sendControl_modLink, State.link_modLink_same]
        rw [hq] at h
        rcases List.mem_cons.mp h with rfl | h
        · exact .inr rfl
        · exact .inl h
      · exact .inl hend
    · exact .inl h
  · rw [advanceLink_link_other s hm]
    exact .inl h

/-! ### The step of a reply -/

/-- What follows a reply's effect in its step: the link goes on, and the changes are marked. -/
theorem replyStep_keeps (a s : State) (l : LinkNo) :
    let t := markChanges a (advanceLink s l)
    t.waiting = s.waiting ∧ t.slots = s.slots ∧ (∀ m, (t.line m).bare = (s.line m).bare)
      ∧ (∀ m, (t.line m).receiver = (s.line m).receiver) ∧ t.engine = s.engine
      ∧ ∀ j, notQueued (s.rcv j) → t.rcv j = s.rcv j ∧ t.det j = s.det j := by
  refine ⟨?_, ?_, fun m => ?_, fun m => ?_, ?_, fun j hj => ?_⟩
  · rw [markChanges_waiting, advanceLink_waiting]
  · rw [markChanges_slots, advanceLink_slots]
  · rw [markChanges_line_bare, advanceLink_line]
  · rw [markChanges_line, advanceLink_line]
  · rw [markChanges_engine, advanceLink_engine]
  · rw [markChanges_rcv, markChanges_det]
    exact advanceLink_keeps l hj

/-- Where one receiver has moved, and of all else control queues at most, the next exchange of a link moves no other
receiver but those whose TAP CONNECT is queued. -/
theorem linkStep_setRcv (a : State) {u v : State} {k : RcvNo} {r : RcvState} (l : LinkNo) (hq : notQueued r)
    (hv : { v with links := u.links } = u.setRcv k r) :
    let w := markChanges a (advanceLink v l)
    w.rcv k = r ∧ (∀ j, j ≠ k → notQueued (u.rcv j) → w.rcv j = u.rcv j) ∧ w.det k = Det.reset
      ∧ w.waiting = u.waiting ∧ w.slots = u.slots ∧ (∀ m, (w.line m).bare = (u.line m).bare)
      ∧ w.engine = u.engine := by
  obtain ⟨hwait, hslots, hbare, -, heng, hkeep⟩ := replyStep_keeps a v l
  have hrcv : ∀ j, v.rcv j = (u.setRcv k r).rcv j := fun j => (congrArg (fun t : State => t.rcv j) hv :)
  have hdet : v.det k = (u.setRcv k r).det k := (congrArg (fun t : State => t.det k) hv :)
  have hk : v.rcv k = r := (hrcv k).trans (State.rcv_setRcv_same u k r)
  obtain ⟨hk1, hk2⟩ := hkeep k (hk.symm ▸ hq)
  refine ⟨hk1.trans hk, fun j hj hqj => ?_, ?_, ?_, ?_, fun m => ?_, ?_⟩
  · have hj' : v.rcv j = u.rcv j := (hrcv j).trans (State.rcv_setRcv_other u hj r)
    exact (hkeep j (hj'.symm ▸ hqj)).1.trans hj'
  · rw [hk2, hdet, State.det_setRcv_same]
  · exact hwait.trans (congrArg State.waiting hv :)
  · exact hslots.trans (congrArg State.slots hv :)
  · exact (hbare m).trans (congrArg (fun t : State => (t.line m).bare) hv :)
  · exact heng.trans (congrArg State.engine hv :)

/-! ### The reply that is taken -/

theorem replyTaken_rcv (s : State) (l : LinkNo) (k : RcvNo) : (replyTaken s l).rcv k = s.rcv k := rfl

theorem replyTaken_waiting (s : State) (l : LinkNo) : (replyTaken s l).waiting = s.waiting := rfl

theorem replyTaken_slots (s : State) (l : LinkNo) : (replyTaken s l).slots = s.slots := rfl

theorem replyTaken_line (s : State) (l : LinkNo) (n : LineNo) : (replyTaken s l).line n = s.line n := rfl

theorem replyTaken_time (s : State) (l : LinkNo) : (replyTaken s l).time = s.time := rfl

/-- A reply that moves one receiver, in its step. -/
theorem replyStep_setRcv {s v : State} {k : RcvNo} {r : RcvState} (l : LinkNo) (hq : notQueued r)
    (hv : { v with links := (replyTaken s l).links } = (replyTaken s l).setRcv k r) :
    let w := markChanges s (advanceLink v l)
    w.rcv k = r ∧ (∀ j, j ≠ k → notQueued (s.rcv j) → w.rcv j = s.rcv j) ∧ w.det k = Det.reset
      ∧ w.waiting = s.waiting ∧ w.slots = s.slots ∧ (∀ m, (w.line m).bare = (s.line m).bare)
      ∧ w.engine = s.engine := by
  have h := linkStep_setRcv s l hq hv
  simp only [replyTaken_rcv, replyTaken_waiting, replyTaken_slots, replyTaken_line, replyTaken_engine] at h
  exact h

theorem placeFrame_frame (s : State) (l : LinkNo) (f : Frame) : { placeFrame s l f with links := s.links } = s := by
  unfold placeFrame
  split <;> rfl

theorem replyTaken_link_state (s : State) (l m : LinkNo) : ((replyTaken s l).link m).state = (s.link m).state := by
  rw [replyTaken, endExchange, State.modLink_modLink, State.link_modLink_ite]
  split
  · next h => rw [h]
  · rfl

section Reply
variable {s : State} {l : LinkNo} {p : PairNo} {k : RcvNo} {ack : Bool}

theorem exec_tapConnectReply (h : (s.link l).exchange = some (.tapConnect p k)) :
    exec (.tapConnectReply l ack) s
      = .next (markChanges s (advanceLink (tapConnectAnswered (replyTaken s l) k ack) l)) := by
  show Host.Outcome.next (markChanges s (connectAnswered s l ack)) = _
  rw [connectAnswered, h]

theorem exec_tapDisconnectReply (h : (s.link l).exchange = some (.tapDisconnect k)) :
    exec (.tapDisconnectReply l ack) s
      = .next (markChanges s (advanceLink (tapDisconnectAnswered (replyTaken s l) k ack) l)) := by
  show Host.Outcome.next (markChanges s (disconnectAnswered s l ack)) = _
  rw [disconnectAnswered, h]

theorem exec_tapClearAllReply (h : (s.link l).exchange = some .tapClearAll) :
    exec (.tapClearAllReply l ack) s
      = .next (markChanges s (advanceLink (tapClearAnswered (replyTaken s l) l ack) l)) := by
  show Host.Outcome.next (markChanges s (clearAllAnswered s l ack)) = _
  rw [clearAllAnswered, h]

end Reply

/-! ### What each reply does to its receiver -/

section Answer
variable {s : State} {k : RcvNo} {e : WaitEntry} {tap : Tap} {out : Bool}

/-- The ACK to a TAP CONNECT starts the guard (R76). -/
theorem tapConnectAnswered_ack (h : s.rcv k = .connecting e tap .sent) :
    tapConnectAnswered s k true = s.setRcv k (.connecting e tap (.guarding s.time)) := by
  unfold tapConnectAnswered
  rw [h]
  rfl

/-- The NAK puts the receiver out of service and its line back on the list; while no receiver is FREE it waits there
(R79). -/
theorem tapConnectAnswered_nak (h : s.rcv k = .connecting e tap .sent) (hf : ∀ j, s.rcv j ≠ .free) :
    tapConnectAnswered s k false
      = { setReceiver (s.setRcv k (.outOfService .tapRefused)) e.line none with
            waiting := insertHead e s.waiting } := by
  have hnone : ∀ j, ({ setReceiver (s.setRcv k (.outOfService .tapRefused)) e.line none with
      waiting := insertHead e s.waiting } : State).rcv j ≠ .free := fun j => by
    show (setReceiver (s.setRcv k (.outOfService .tapRefused)) e.line none).rcv j ≠ .free
    rw [setReceiver_rcv, State.rcv_setRcv_ite]
    split
    · exact nofun
    · exact hf j
  rw [← grantTest_noneFree hnone]
  unfold tapConnectAnswered
  rw [h]
  dsimp only
  rw [setReceiver_waiting]
  rfl

/-- A late ACK to the TAP CONNECT of a RELEASING receiver places the TAP DISCONNECT (R79). -/
theorem tapConnectAnswered_lateAck (h : s.rcv k = .releasing tap .awaitConnectAck out) :
    tapConnectAnswered s k true
      = placeFrame (s.setRcv k (.releasing tap .awaitDisconnectAck out)) tap.link (.tapDisconnect k) := by
  unfold tapConnectAnswered
  rw [h]
  rfl

theorem tapConnectAnswered_lateNak (h : s.rcv k = .releasing tap .awaitConnectAck out) :
    tapConnectAnswered s k false = s.setRcv k (.outOfService .tapRefused) := by
  unfold tapConnectAnswered
  rw [h]
  rfl

/-- The reply to a TAP DISCONNECT, while no line waits (R79). -/
theorem tapDisconnectAnswered_eq (h : s.rcv k = .releasing tap .awaitDisconnectAck out) (hw : s.waiting = [])
    (ack : Bool) :
    tapDisconnectAnswered s k ack = s.setRcv k (if ack then freedState out else .stranded tap out) := by
  unfold tapDisconnectAnswered
  rw [h]
  cases ack with
  | true => exact grantTest_nobody hw
  | false => rfl

end Answer

/-- What the reply to a TAP CLEAR ALL makes of a receiver (R81). -/
def RcvState.cleared (l : LinkNo) (ack : Bool) (r : RcvState) : RcvState :=
  match strandedOn l r with
  | some out => if ack then freedState out else .outOfService .tapRefused
  | none => r

/-- That reply taken by one receiver (R81). -/
def clearRcv (l : LinkNo) (ack : Bool) (s : State) (k : RcvNo) : State :=
  match strandedOn l (s.rcv k) with
  | some out => s.setRcv k (if ack then freedState out else .outOfService .tapRefused)
  | none => s

theorem clearRcv_rcv (l : LinkNo) (ack : Bool) (s : State) (k j : RcvNo) :
    (clearRcv l ack s k).rcv j = if j = k then (s.rcv j).cleared l ack else s.rcv j := by
  unfold clearRcv RcvState.cleared
  by_cases hj : j = k
  · subst hj
    rw [if_pos rfl]
    split
    · exact State.rcv_setRcv_same s j _
    · rfl
  · rw [if_neg hj]
    split
    · exact State.rcv_setRcv_other s hj _
    · rfl

theorem clearRcvs_rcv (l : LinkNo) (ack : Bool) {ks : List RcvNo} (hks : ks.Nodup) (s : State) (j : RcvNo) :
    (ks.foldl (clearRcv l ack) s).rcv j = if j ∈ ks then (s.rcv j).cleared l ack else s.rcv j := by
  induction ks generalizing s with
  | nil => simp
  | cons k ks ih =>
    rw [List.nodup_cons] at hks
    rw [List.foldl_cons, ih hks.2, clearRcv_rcv]
    by_cases hj : j = k
    · subst hj
      simp [hks.1]
    · simp [hj]

theorem clearRcvs_frame (l : LinkNo) (ack : Bool) (ks : List RcvNo) (s : State) :
    { ks.foldl (clearRcv l ack) s with rcvs := s.rcvs, dets := s.dets } = s := by
  refine List.foldlRecOn (motive := fun t : State => { t with rcvs := s.rcvs, dets := s.dets } = s) ks _ rfl
    fun t ht k _ => ?_
  unfold clearRcv
  split
  · exact ht
  · exact ht

theorem clearRcvs_waiting (l : LinkNo) (ack : Bool) (ks : List RcvNo) (s : State) :
    (ks.foldl (clearRcv l ack) s).waiting = s.waiting :=
  (congrArg State.waiting (clearRcvs_frame l ack ks s) :)

theorem clearRcvs_line (l : LinkNo) (ack : Bool) (ks : List RcvNo) (s : State) (m : LineNo) :
    (ks.foldl (clearRcv l ack) s).line m = s.line m :=
  (congrArg (fun t : State => t.line m) (clearRcvs_frame l ack ks s) :)

/-- The reply to a TAP CLEAR ALL, while no line waits: every receiver is cleared, and no more (R81). -/
theorem tapClearAnswered_eq {s : State} (l : LinkNo) (ack : Bool) (hw : s.waiting = []) :
    tapClearAnswered s l ack = allRcvs.foldl (clearRcv l ack) s := by
  rw [← grantTest_nobody ((clearRcvs_waiting l ack allRcvs s).trans hw)]
  unfold tapClearAnswered clearRcv
  rfl

theorem notQueued_freedState (out : Bool) : notQueued (freedState out) :=
  notQueued_of_none (by cases out <;> rfl)

/-- A STRANDED receiver that is cleared, and that it has no TAP CONNECT queued then. -/
theorem RcvState.cleared_stranded (l : LinkNo) (ack : Bool) (tap : Tap) (out : Bool) :
    (RcvState.stranded tap out).cleared l ack
        = (if tap.link = l then (if ack then freedState out else .outOfService .tapRefused) else .stranded tap out)
      ∧ notQueued ((RcvState.stranded tap out).cleared l ack) := by
  by_cases h : tap.link = l
  · have he : (RcvState.stranded tap out).cleared l ack
        = if ack then freedState out else .outOfService .tapRefused := by
      simp only [cleared, strandedOn, if_pos h]
    rw [he, if_pos h]
    refine ⟨rfl, ?_⟩
    cases ack
    · exact notQueued_of_none rfl
    · exact notQueued_freedState out
  · have he : (RcvState.stranded tap out).cleared l ack = .stranded tap out := by
      simp only [cleared, strandedOn, if_neg h]
    rw [he, if_neg h]
    exact ⟨rfl, notQueued_of_none rfl⟩

/-! ### The obligation's three parts -/

/-- The replies to the TAP CONNECT of a CONNECTING receiver (R76, R79). -/
theorem connectReplies {l : LinkNo} {p : PairNo} {k : RcvNo} {e : WaitEntry} {tap : Tap} {s : State}
    (hx : (s.link l).exchange = some (.tapConnect p k)) (hr : s.rcv k = .connecting e tap .sent) :
    (∃ t, exec (.tapConnectReply l true) s = .next t
      ∧ t.rcv k = .connecting e tap (.guarding s.time) ∧ t.waiting = s.waiting
      ∧ (∀ m, (t.line m).bare = (s.line m).bare) ∧ t.engine = s.engine)
    ∧ ((∀ j, s.rcv j ≠ .free) →
      ∃ t, exec (.tapConnectReply l false) s = .next t
        ∧ t.rcv k = .outOfService .tapRefused ∧ t.det k = Det.reset
        ∧ t.waiting = insertHead e s.waiting
        ∧ (t.line e.line).receiver = none
        ∧ (∀ m, m ≠ e.line → (t.line m).bare = (s.line m).bare) ∧ t.engine = s.engine) := by
  have hr' : (replyTaken s l).rcv k = .connecting e tap .sent := hr
  refine ⟨?_, fun hf => ?_⟩
  · have hv : { tapConnectAnswered (replyTaken s l) k true with links := (replyTaken s l).links }
        = (replyTaken s l).setRcv k (.connecting e tap (.guarding s.time)) := by
      rw [tapConnectAnswered_ack hr', replyTaken_time]; rfl
    obtain ⟨hk, -, -, hwait, -, hbare, heng⟩ := replyStep_setRcv l notQueued_guarding hv
    exact ⟨_, exec_tapConnectReply hx, hk, hwait, hbare, heng⟩
  · have hf' : ∀ j, (replyTaken s l).rcv j ≠ .free := hf
    have ha := tapConnectAnswered_nak hr' hf'
    obtain ⟨hwait, -, hbare, hrcv, heng, hkeep⟩ := replyStep_keeps s (tapConnectAnswered (replyTaken s l) k false) l
    have hline : ∀ m, (tapConnectAnswered (replyTaken s l) k false).line m
        = (setReceiver ((replyTaken s l).setRcv k (.outOfService .tapRefused)) e.line none).line m := fun m => by
      rw [ha]; rfl
    have hk : (tapConnectAnswered (replyTaken s l) k false).rcv k = .outOfService .tapRefused
        ∧ (tapConnectAnswered (replyTaken s l) k false).det k = Det.reset := by
      rw [ha]
      refine ⟨Eq.trans (setReceiver_rcv _ e.line none k) (State.rcv_setRcv_same _ k _),
        Eq.trans (setReceiver_det _ e.line none k) (State.det_setRcv_same _ k _)⟩
    obtain ⟨hk1, hk2⟩ := hkeep k (hk.1.symm ▸ notQueued_of_none rfl)
    refine ⟨_, exec_tapConnectReply hx, hk1.trans hk.1, hk2.trans hk.2, ?_, ?_, fun m hm => ?_, ?_⟩
    · rw [hwait, ha]; rfl
    · rw [hrcv, hline, setReceiver_line_same]
    · rw [hbare, hline, setReceiver_line, if_neg hm]; rfl
    · rw [heng, tapConnectAnswered_engine]; rfl

/-- The late replies to the TAP CONNECT of a RELEASING receiver (R79). -/
theorem lateReplies {l : LinkNo} {p : PairNo} {k : RcvNo} {tap : Tap} {out : Bool} {s : State}
    (hx : (s.link l).exchange = some (.tapConnect p k)) (hr : s.rcv k = .releasing tap .awaitConnectAck out) :
    ∃ t u, exec (.tapConnectReply l true) s = .next t ∧ exec (.tapConnectReply l false) s = .next u
      ∧ t.rcv k = .releasing tap .awaitDisconnectAck out
      ∧ ((s.link tap.link).state = .up →
          Frame.tapDisconnect k ∈ (t.link tap.link).queue
          ∨ (t.link tap.link).exchange = some (.tapDisconnect k))
      ∧ u.rcv k = .outOfService .tapRefused
      ∧ ∀ w, w = t ∨ w = u →
        (∀ j, j ≠ k → (∀ e y, s.rcv j ≠ .connecting e y .queued) → w.rcv j = s.rcv j)
        ∧ w.det k = Det.reset ∧ w.waiting = s.waiting ∧ w.slots = s.slots
        ∧ (∀ m, (w.line m).bare = (s.line m).bare) ∧ w.engine = s.engine := by
  have hr' : (replyTaken s l).rcv k = .releasing tap .awaitConnectAck out := hr
  have hack := tapConnectAnswered_lateAck hr'
  have hv : { tapConnectAnswered (replyTaken s l) k true with links := (replyTaken s l).links }
      = (replyTaken s l).setRcv k (.releasing tap .awaitDisconnectAck out) := by
    rw [hack]
    exact placeFrame_frame _ _ _
  have hu : { tapConnectAnswered (replyTaken s l) k false with links := (replyTaken s l).links }
      = (replyTaken s l).setRcv k (.outOfService .tapRefused) := by
    rw [tapConnectAnswered_lateNak hr']; rfl
  obtain ⟨htk, ht⟩ := replyStep_setRcv l (notQueued_of_none rfl) hv
  obtain ⟨huk, hu⟩ := replyStep_setRcv l (notQueued_of_none rfl) hu
  refine ⟨_, _, exec_tapConnectReply hx, exec_tapConnectReply hx, htk, fun hup => ?_, huk, fun w hw => ?_⟩
  · have hup' : linkUp ((replyTaken s l).setRcv k (.releasing tap .awaitDisconnectAck out)) tap.link = true := by
      rw [linkUp, State.link_setRcv, replyTaken_link_state, hup]
      rfl
    rw [markChanges_link, hack]
    exact advanceLink_queued l (mem_placeFrame hup' _)
  · rcases hw with rfl | rfl
    · exact ht
    · exact hu

/-- The replies to the TAP DISCONNECT of a RELEASING receiver, while no line waits (R79). -/
theorem disconnectReplies {l : LinkNo} {k : RcvNo} {tap : Tap} {out : Bool} {s : State} (ack : Bool)
    (hx : (s.link l).exchange = some (.tapDisconnect k)) (hr : s.rcv k = .releasing tap .awaitDisconnectAck out)
    (hw : s.waiting = []) :
    ∃ t, exec (.tapDisconnectReply l ack) s = .next t
      ∧ t.rcv k = (if ack then (if out then .outOfService .hostRequest else .free) else .stranded tap out)
      ∧ t.det k = Det.reset ∧ t.waiting = []
      ∧ (∀ m, (t.line m).bare = (s.line m).bare) ∧ t.engine = s.engine := by
  have hr' : (replyTaken s l).rcv k = .releasing tap .awaitDisconnectAck out := hr
  have hw' : (replyTaken s l).waiting = [] := hw
  have hv : { tapDisconnectAnswered (replyTaken s l) k ack with links := (replyTaken s l).links }
      = (replyTaken s l).setRcv k (if ack then freedState out else .stranded tap out) := by
    rw [tapDisconnectAnswered_eq hr' hw']; rfl
  have hq : notQueued (if ack then freedState out else .stranded tap out) := by
    cases ack
    · exact notQueued_of_none rfl
    · exact notQueued_freedState out
  obtain ⟨hk, -, hdet, hwait, -, hbare, heng⟩ := replyStep_setRcv l hq hv
  exact ⟨_, exec_tapDisconnectReply hx, hk, hdet, hwait.trans hw, hbare, heng⟩

/-- The replies to the TAP CLEAR ALL of a recovery, while no line waits (R81). -/
theorem clearAllReplies {l : LinkNo} {s : State} (ack : Bool) (hx : (s.link l).exchange = some .tapClearAll)
    (hw : s.waiting = []) :
    ∃ t, exec (.tapClearAllReply l ack) s = .next t
      ∧ (∀ k tap out, s.rcv k = .stranded tap out →
          t.rcv k = (if tap.link = l then
                      (if ack then (if out then .outOfService .hostRequest else .free)
                       else .outOfService .tapRefused)
                     else .stranded tap out))
      ∧ t.waiting = [] ∧ (∀ m, (t.line m).bare = (s.line m).bare) ∧ t.engine = s.engine := by
  have hw' : (replyTaken s l).waiting = [] := hw
  have ha := tapClearAnswered_eq l ack hw'
  obtain ⟨hwait, -, hbare, -, heng, hkeep⟩ := replyStep_keeps s (tapClearAnswered (replyTaken s l) l ack) l
  refine ⟨_, exec_tapClearAllReply hx, fun k tap out hr => ?_, ?_, fun m => ?_, ?_⟩
  · have hk : (tapClearAnswered (replyTaken s l) l ack).rcv k = (RcvState.stranded tap out).cleared l ack := by
      have hr' : (replyTaken s l).rcv k = .stranded tap out := hr
      rw [ha, clearRcvs_rcv l ack (ks := allRcvs) (List.nodup_finRange 8), 
          if_pos (show k ∈ allRcvs from List.mem_finRange k), hr']
    obtain ⟨he, hq⟩ := RcvState.cleared_stranded l ack tap out
    rw [(hkeep k (hk.symm ▸ hq)).1, hk, he]
    rfl
  · rw [hwait, ha, clearRcvs_waiting, hw']
  · rw [hbare, ha, clearRcvs_line]
    rfl
  · rw [heng, tapClearAnswered_engine]
    rfl

/-- Settles O45: each reply moves its receiver, and the link's next exchange none but those with a TAP CONNECT
queued. -/
theorem tapRepliesMoveTheReceiver : Obligations.TapRepliesMoveTheReceiver :=
  ⟨fun _ _ _ _ _ _ hx hr => connectReplies hx hr, fun _ _ _ _ _ _ hx hr => lateReplies hx hr,
    fun _ ack _ hw => ⟨fun _ _ _ hx hr => disconnectReplies ack hx hr hw, fun hx => clearAllReplies ack hx hw⟩⟩

end Sys2Proof.Machine
end

section
/-! O18: the checks of a RECEIVER CHECK and of a TRACE, and the contexts that they start. -/

namespace Sys2Proof.Machine

/-! ### The digits of a check -/

theorem keypadOf_some {c : Nat} (h : c ≤ 15) : ∃ y, keypadOf c = some y ∧ codeSymbol y = c := by
  interval_cases c <;> exact ⟨_, rfl, rfl⟩

theorem keypadOf_none {c : Nat} (h : 15 < c) : keypadOf c = none := by
  unfold keypadOf
  rw [dif_neg (by omega)]
  iterate 6 rw [if_neg (by omega)]

/-- Symbol codes from 0 to 15 are read as the digits of a check (R155). -/
theorem checkDigits_some (o : OrderRead) {n : Nat} (h : ∀ i, i < n → param8 o (4 + i) ≤ 15) :
    ∃ l, checkDigits o n = some l ∧ l.map codeSymbol = (List.range n).map fun i => param8 o (4 + i) := by
  induction n with
  | zero => exact ⟨[], rfl, rfl⟩
  | succ n ih =>
    obtain ⟨l, hl, hcodes⟩ := ih fun i hi => h i (by omega)
    obtain ⟨y, hy, hcode⟩ := keypadOf_some (h n (by omega))
    refine ⟨l ++ [y], by simp only [checkDigits, hl, hy], ?_⟩
    rw [List.map_append, hcodes, List.range_succ, List.map_append]
    exact congrArg _ (congrArg (fun c => [c]) hcode)

/-- A code above 15 names no digit (R155). -/
theorem checkDigits_none (o : OrderRead) {n : Nat} (h : ¬ ∀ i, i < n → param8 o (4 + i) ≤ 15) :
    checkDigits o n = none := by
  induction n with
  | zero => exact absurd (fun i hi => absurd hi (Nat.not_lt_zero i)) h
  | succ n ih =>
    by_cases hn : param8 o (4 + n) ≤ 15
    · have hl : checkDigits o n = none := ih fun hall => h fun i hi => by
        rcases Nat.lt_succ_iff_lt_or_eq.mp hi with hi | rfl
        · exact hall i hi
        · exact hn
      simp only [checkDigits, hl]
    · have hy : keypadOf (param8 o (4 + n)) = none := keypadOf_none (by omega)
      rw [checkDigits, hy]
      cases checkDigits o n <;> rfl

/-! ### The tones of a digit -/

/-- Row and column of a keypad symbol, and their frequency codes (R57, R148). -/
theorem keypad_codes {y : Symbol} (h : codeSymbol y ≤ 15) :
    ∃ a b : Fin 4, (keypadTable[a.1]?.bind fun row => row[b.1]?) = some y
      ∧ rowCode y = [2627, 2766, 2894, 3008].getD a.1 0 ∧ colCode y = [3249, 3330, 3403, 3469].getD b.1 0 := by
  cases y with
  | digit d => revert d; decide
  | flash => exact absurd h (by decide)
  | invalid => exact absurd h (by decide)
  | _ => decide

/-- The tone of a channel that is on, its code one that needs no clamp (R148). -/
theorem channelTone_on {n level : Nat} (hn : n ≤ 3840) (hl : level ≠ 0) :
    channelTone { n := n, level := level }
      = some { hz := 1024000 / (4096 - (n : Rat)), dbm := 2 * (level : Int) - 31 } := by
  have hz : codeHz n = 1024000 / (4096 - (n : Rat)) := by
    rw [codeHz, clampFreq, min_eq_left hn, Nat.cast_sub (by omega)]
    rfl
  simp only [channelTone, levelDbm, if_neg hl, hz]

theorem rowCode_rat (a : Fin 4) : (([2627, 2766, 2894, 3008].getD a.1 0 : Nat) : Rat)
    = [2627, 2766, 2894, 3008].getD a.1 0 := by
  fin_cases a <;> rfl

theorem colCode_rat (b : Fin 4) : (([3249, 3330, 3403, 3469].getD b.1 0 : Nat) : Rat)
    = [3249, 3330, 3403, 3469].getD b.1 0 := by
  fin_cases b <;> rfl

theorem toneCode_le (a : Fin 4) :
    [2627, 2766, 2894, 3008].getD a.1 0 ≤ 3840 ∧ [3249, 3330, 3403, 3469].getD a.1 0 ≤ 3840 := by
  revert a; decide

/-! ### A check that is taken -/

theorem checkBlocks_eq (ms : Nat) : checkBlocks ms = (min (max ms 40) 200 + 9) / 10 := rfl

/-- The context that a check starts with (R155). -/
def firstCheck (k : SlotNo) (o : OrderRead) (j : RcvNo) (digits : List Symbol) : CheckCtx :=
  { rcv := j, slot := k, digits := digits, level := param8 o 1, removeOnFail := flagOf o,
    onBlocks := checkBlocks (param8 o 2), offBlocks := checkBlocks (param8 o 3),
    records := digits.map fun _ => none, position := 0 }

/-- In the first block of a check the generator plays its first digit (R156). -/
theorem setCheckChannels_first {c : CheckCtx} {y : Symbol} (s : State) (hp : c.position = 0) (hon : 0 < c.onBlocks)
    (hy : c.digits.head? = some y) :
    setCheckChannels s c
      = { s with gen := { s.gen with chA := { n := rowCode y, level := c.level },
                                     chB := { n := colCode y, level := c.level } } } := by
  have h0 : c.digits[c.position / (c.onBlocks + c.offBlocks)]? = some y := by
    rw [hp, Nat.zero_div, ← List.head?_eq_getElem?, hy]
  have hplay : decide (c.position % (c.onBlocks + c.offBlocks) < c.onBlocks) = true := by
    rw [hp, Nat.zero_mod]
    exact decide_eq_true hon
  unfold setCheckChannels
  dsimp only
  rw [hplay, h0]

/-- The state that a check with first digit `y` starts from (R155). -/
def checkStart (s : State) (k : SlotNo) (o : OrderRead) (j : RcvNo) (digits : List Symbol) (y : Symbol)
    (prior : Option OutReason) : State :=
  { (takeFlight s k .check).startListening j (.checking prior) with
    gen := { chA := { n := rowCode y, level := param8 o 1 }, chB := { n := colCode y, level := param8 o 1 },
             output := .loopback, ctx := .check (firstCheck k o j digits) } }

theorem takeCheck_eq (s : State) (k : SlotNo) (o : OrderRead) (j : RcvNo) {digits : List Symbol} {y : Symbol}
    (prior : Option OutReason) (hy : digits.head? = some y) :
    takeCheck s k o j digits prior = checkStart s k o j digits y prior := by
  have hon : 0 < (firstCheck k o j digits).onBlocks := by
    show 0 < checkBlocks (param8 o 2)
    rw [checkBlocks_eq]
    omega
  have hy' : (firstCheck k o j digits).digits.head? = some y := hy
  exact setCheckChannels_first _ rfl hon hy'

/-- The tones that the generator then plays (R148). -/
theorem genOutput_digit {g : GenRec} {y : Symbol} {a b : Fin 4} {level : Nat} (hl : level ≠ 0)
    (ha : rowCode y = [2627, 2766, 2894, 3008].getD a.1 0) (hb : colCode y = [3249, 3330, 3403, 3469].getD b.1 0)
    (hA : g.chA = { n := rowCode y, level := level }) (hB : g.chB = { n := colCode y, level := level }) :
    genOutput g
      = [{ hz := 1024000 / (4096 - ([2627, 2766, 2894, 3008].getD a.1 0 : Rat)), dbm := 2 * (level : Int) - 31 },
         { hz := 1024000 / (4096 - ([3249, 3330, 3403, 3469].getD b.1 0 : Rat)), dbm := 2 * (level : Int) - 31 }] := by
  rw [genOutput, hA, hB, ha, hb, channelTone_on (toneCode_le a).1 hl, channelTone_on (toneCode_le b).2 hl,
    rowCode_rat, colCode_rat]
  rfl

/-- The checked receiver alone is fed the generator's output, and the test tone bus carries nothing (R148). -/
theorem toneFed_check {t : State} {c : CheckCtx} (ho : t.gen.output = .loopback) (hc : t.gen.ctx = .check c) :
    toneFed t c.rcv = genOutput t.gen ∧ (∀ i, i ≠ c.rcv → toneFed t i = []) ∧ testToneBus t = [] := by
  refine ⟨?_, fun i hi => ?_, ?_⟩
  · unfold toneFed
    rw [ho, hc]
    exact if_pos rfl
  · unfold toneFed
    rw [ho, hc]
    exact if_neg hi.symm
  · unfold testToneBus
    rw [ho]

/-! ### The RECEIVER CHECK order, check by check -/

section Check
variable {s : State} {k : SlotNo} {o : OrderRead}

/-- The parameters of a check are in range (R155). -/
def checkParamsFit (o : OrderRead) : Prop :=
  targetOf o < 8 ∧ 1 ≤ param8 o 0 ∧ param8 o 0 ≤ 16 ∧ 1 ≤ param8 o 1 ∧ param8 o 1 ≤ 15
    ∧ ∀ i, i < param8 o 0 → param8 o (4 + i) ≤ 15

theorem orderReceiverCheck_badParam (hrun : s.exch = .running) (h : ¬checkParamsFit o) :
    orderReceiverCheck s k o = answered s k .refused .badParam [] := by
  rw [← refuse_empty hrun, orderReceiverCheck]
  by_cases ht : targetOf o < 8
  · rw [dif_pos ht]
    dsimp only
    by_cases hb : ¬(1 ≤ param8 o 0 ∧ param8 o 0 ≤ 16) ∨ ¬(1 ≤ param8 o 1 ∧ param8 o 1 ≤ 15)
    · rw [if_pos hb]
    · have hd : checkDigits o (param8 o 0) = none := checkDigits_none o fun hall => h (by
        unfold checkParamsFit
        exact ⟨ht, by omega, by omega, by omega, by omega, hall⟩)
      rw [if_neg hb, hd]
  · rw [dif_neg ht]

/-- Past its parameters a check asks for its receiver and for the generator (R155). -/
theorem orderReceiverCheck_fit (h : checkParamsFit o) {j : RcvNo} (hj : targetOf o = j.1) :
    ∃ digits, digits.map codeSymbol = (List.range (param8 o 0)).map (fun i => param8 o (4 + i))
      ∧ orderReceiverCheck s k o = (priorOf (s.rcv j)).elim (refuse s k .resourceBusy []) fun prior =>
          if s.gen.ctx ≠ .none then refuse s k .resourceBusy [] else takeCheck s k o j digits prior := by
  obtain ⟨ht, h1, h2, h3, h4, hall⟩ := h
  obtain ⟨digits, hd, hcodes⟩ := checkDigits_some o hall
  have hfin : (⟨targetOf o, ht⟩ : RcvNo) = j := Fin.ext hj
  refine ⟨digits, hcodes, ?_⟩
  rw [orderReceiverCheck, dif_pos ht]
  dsimp only
  rw [if_neg (by omega), hd, hfin]
  cases priorOf (s.rcv j) with
  | none => rfl
  | some prior => rfl

theorem orderReceiverCheck_busy (hrun : s.exch = .running) (h : checkParamsFit o) {j : RcvNo}
    (hj : targetOf o = j.1)
    (hb : (s.rcv j ≠ .free ∧ ∀ y, s.rcv j ≠ .outOfService y) ∨ s.gen.ctx ≠ .none) :
    orderReceiverCheck s k o = answered s k .refused .resourceBusy [] := by
  obtain ⟨digits, -, he⟩ := orderReceiverCheck_fit (s := s) (k := k) h hj
  rw [he, ← refuse_empty hrun]
  cases hp : priorOf (s.rcv j) with
  | none => rfl
  | some prior =>
    have hidle : ¬(s.rcv j ≠ .free ∧ ∀ y, s.rcv j ≠ .outOfService y) := fun ⟨h1, h2⟩ => by
      cases hr : s.rcv j with
      | free => exact h1 hr
      | outOfService y => exact h2 y hr
      | _ => rw [hr] at hp; cases hp
    exact if_pos (hb.resolve_left hidle)

theorem orderReceiverCheck_taken (h : checkParamsFit o) {j : RcvNo} (hj : targetOf o = j.1)
    {prior : Option OutReason} (hr : s.rcv j = ofPrior prior) (hg : s.gen.ctx = .none) :
    ∃ digits, digits.map codeSymbol = (List.range (param8 o 0)).map (fun i => param8 o (4 + i))
      ∧ orderReceiverCheck s k o = takeCheck s k o j digits prior := by
  obtain ⟨digits, hcodes, he⟩ := orderReceiverCheck_fit (s := s) (k := k) h hj
  have hp : priorOf (s.rcv j) = some prior := by rw [hr]; cases prior <;> rfl
  refine ⟨digits, hcodes, ?_⟩
  rw [he, hp]
  exact if_neg (not_not.mpr hg)

/-- The first of the digits of a check, there being one, is a keypad symbol. -/
theorem firstDigit_of_codes {o : OrderRead} {digits : List Symbol} (h : checkParamsFit o)
    (hcodes : digits.map codeSymbol = (List.range (param8 o 0)).map fun i => param8 o (4 + i)) :
    digits.length = param8 o 0 ∧ ∃ y, digits.head? = some y ∧ codeSymbol y ≤ 15 := by
  obtain ⟨-, h1, -, -, -, hall⟩ := h
  have hlen : digits.length = param8 o 0 := by simpa using congrArg List.length hcodes
  refine ⟨hlen, ?_⟩
  cases digits with
  | nil => rw [List.length_nil] at hlen; omega
  | cons y l =>
    have hmem : codeSymbol y ∈ (List.range (param8 o 0)).map fun i => param8 o (4 + i) := by
      rw [← hcodes]; exact List.mem_cons_self
    obtain ⟨i, hi, hy⟩ := List.mem_map.mp hmem
    exact ⟨y, rfl, hy ▸ hall i (List.mem_range.mp hi)⟩

end Check

/-! ### The TRACE order, check by check -/

section Trace
variable {s : State} {k : SlotNo} {o : OrderRead} {n : LineNo}

/-- The parameters of a trace are in range (R150). -/
def traceParamsFit (o : OrderRead) : Prop :=
  1 ≤ param8 o 4 ∧ param8 o 4 ≤ 15 ∧ param8 o 5 ≤ 2 ∧ param8 o 6 ≤ 1

/-- The warble rate that a trace's parameter names. -/
def traceRate (o : OrderRead) : WarbleRate := [.hz4, .hz8, .hz16].getD (param8 o 5) .hz4

theorem warbleOf_rate {c : Nat} (h : c ≤ 2) : warbleOf c = some ([.hz4, .hz8, .hz16].getD c .hz4) := by
  interval_cases c <;> rfl

theorem warbleOf_none {c : Nat} (h : 2 < c) : warbleOf c = none := by
  unfold warbleOf
  iterate 3 rw [if_neg (by omega)]

theorem orderTrace_absent (hrun : s.exch = .running) (hp : presentLine s (lineOf o) = none) :
    orderTrace s k o = answered s k .refused .badLine [] := by
  rw [orderTrace, hp]
  exact refuse_empty hrun k _

theorem orderTrace_badParam (hrun : s.exch = .running) (hp : presentLine s (lineOf o) = some n)
    (h : ¬traceParamsFit o) : orderTrace s k o = answered s k .refused .badParam [] := by
  rw [orderTrace, hp, ← refuse_empty hrun]
  dsimp only
  by_cases h5 : param8 o 5 ≤ 2
  · rw [warbleOf_rate h5]
    dsimp only
    rw [if_pos]
    unfold traceParamsFit at h
    omega
  · rw [warbleOf_none (by omega)]

/-- Past its parameters a trace asks for its line and for the generator (R150). -/
theorem orderTrace_fit (hp : presentLine s (lineOf o) = some n) (h : traceParamsFit o) :
    orderTrace s k o
      = if ¬quietEnough s n then refuse s k .lineBusy []
        else if s.gen.ctx ≠ .none then refuse s k .resourceBusy []
        else takeTrace s k o n (traceRate o) := by
  obtain ⟨h1, h2, h3, h4⟩ := h
  rw [orderTrace, hp]
  dsimp only
  rw [warbleOf_rate h3]
  dsimp only
  rw [if_neg (by omega)]
  rfl

/-- The context that a trace starts with (R150). -/
def firstTrace (s : State) (k : SlotNo) (o : OrderRead) (n : LineNo) : TraceCtx :=
  { line := n, slot := k, na := min (param16 o 0) 3840, nb := min (param16 o 2) 3840,
    level := param8 o 4, rate := traceRate o, longitudinal := decide (param8 o 6 = 1),
    expiry := s.time + BitVec.ofNat 32 (min (max (param16 o 8) 1) 900 * 1000),
    step := .relayWait, halves := 0 }

/-- The RELAY that a trace places first (R150). -/
def traceRelay (o : OrderRead) (n : LineNo) : Frame :=
  .relay (pairOf n) (if param8 o 6 = 1 then .traceLongitudinal else .traceMetallic) .trace

/-- A trace that is taken marks its line, and its RELAY waits on the line's link (R150). -/
theorem takeTrace_eq (k : SlotNo) (o : OrderRead) (hup : (s.link (linkOf n)).state = .up) :
    takeTrace s k o n (traceRate o)
      = ((State.modLine { takeFlight s k .trace with
            gen := { s.gen with ctx := .trace (firstTrace s k o n) } } n
          fun r => { r with trace := true }).modLink (linkOf n)
            fun r => { r with queue := queuePlace (traceRelay o n) r.queue }) := by
  have hcfg : traceRelay o n = .relay (pairOf n) (traceCfg (firstTrace s k o n).longitudinal) .trace := by
    simp only [traceRelay, traceCfg, firstTrace, decide_eq_true_eq]
  rw [hcfg]
  exact placeFrame_up (s := State.modLine { takeFlight s k .trace with
    gen := { s.gen with ctx := .trace (firstTrace s k o n) } } n fun r => { r with trace := true }) hup _

end Trace

/-- Settles O18: each order goes through its checks in turn, and past the last one its context stands. -/
theorem checksAndTracesAreTaken : Obligations.ChecksAndTracesAreTaken := by
  intro s k o hrun
  have h11 : kindOf o = 11 → dispatch none s k o = .ok (orderReceiverCheck s k o) := fun h => by
    unfold dispatch
    rw [h]
    rfl
  have h12 : kindOf o = 12 → dispatch none s k o = .ok (orderTrace s k o) := fun h => by
    unfold dispatch
    rw [h]
    rfl
  refine ⟨fun hk => ?_, fun hk => ?_⟩
  · rw [h11 hk]
    refine ⟨fun hpar => ?_, fun j hj hpar => ⟨fun hb => ?_, fun prior hr hg => ?_⟩⟩
    · rw [orderReceiverCheck_badParam hrun hpar]
    · rw [orderReceiverCheck_busy hrun hpar hj hb]
    · have hr' : s.rcv j = ofPrior prior := by rw [hr]; cases prior <;> rfl
      obtain ⟨digits, hcodes, he⟩ := orderReceiverCheck_taken (k := k) hpar hj hr' hg
      obtain ⟨hlen, y, hy, hcode⟩ := firstDigit_of_codes hpar hcodes
      obtain ⟨a, b, hab, hrow, hcol⟩ := keypad_codes hcode
      obtain ⟨-, -, -, hlevel, -, -⟩ := hpar
      have hlevel0 : param8 o 1 ≠ 0 := by omega
      have ht := takeCheck_eq s k o j prior hy
      have heng : (takeCheck s k o j digits prior).engine = s.engine := takeCheck_engine s k o j digits prior
      rw [ht] at he heng
      obtain ⟨hfed, hnone, hbus⟩ := toneFed_check (t := checkStart s k o j digits y prior)
        (c := firstCheck k o j digits) rfl rfl
      refine ⟨checkStart s k o j digits y prior, firstCheck k o j digits, a.1, b.1, y, by rw [he], rfl,
        by rw [← hrow, ← hcol]; rfl, ?_, hnone, hbus, hab, hy, hcodes,
        ?_, ?_, ?_, fun i hi => ⟨?_, ?_⟩, rfl, rfl, rfl, heng⟩
      · exact hfed.trans (genOutput_digit hlevel0 hrow hcol rfl rfl)
      · have hrecords : digits.map (fun _ => (none : Option Symbol)) = List.replicate (param8 o 0) none := by
          rw [List.map_const', hlen]
        rw [firstCheck, hrecords]
        rfl
      · exact State.rcv_startListening_same _ j (.checking prior)
      · exact State.det_startListening_same _ j (.checking prior)
      · exact State.rcv_startListening_other _ hi (.checking prior)
      · exact State.det_startListening_other _ hi (.checking prior)
  · rw [h12 hk]
    refine ⟨fun hp => by rw [orderTrace_absent hrun hp], fun n hp => ?_⟩
    intro r l paramOk quietLine c
    have hquiet : quietLine ↔ quietEnough s n = true := (quietEnough_iff s n).symm
    refine ⟨fun hpar => ?_, fun hpar hb => ?_, fun hpar hq hg => ?_, fun hpar hq hg => ?_⟩
    · rw [orderTrace_badParam hrun hp hpar]
    · rw [orderTrace_fit hp hpar, if_pos (mt hquiet.2 hb), refuse_empty hrun]
    · rw [orderTrace_fit hp hpar, if_neg (not_not.2 (hquiet.1 hq)), if_pos hg, refuse_empty hrun]
    · have hup : (s.link (linkOf n)).state = .up := hq.1
      have heng : (takeTrace s k o n (traceRate o)).engine = s.engine := takeTrace_engine s k o n (traceRate o)
      refine ⟨takeTrace s k o n (traceRate o), ?_, ?_⟩
      · rw [orderTrace_fit hp hpar, if_neg (not_not.2 (hquiet.1 hq)), if_neg (not_not.2 hg)]
      rw [takeTrace_eq k o hup] at heng ⊢
      refine ⟨rfl, rfl, ?_, fun m hm => ?_, ?_, fun m hm => ?_, rfl, heng⟩
      · rw [State.line_modLink, State.line_modLine_same]
        rfl
      · rw [State.line_modLink, State.line_modLine_other _ hm]
        rfl
      · rw [State.link_modLink_same]
        exact mem_queuePlace _ _
      · rw [State.link_modLink_other _ hm]
        rfl

end Sys2Proof.Machine
end

section
/-! O37 and O38: the resistance of a pair of means, and the scan that completes a phase of an insulation test. -/

namespace Sys2Proof.Machine

/-! ### O38: the resistance of two means -/

/-- The quotient of R99 in whole numbers. -/
theorem ohm_quotient (v : Int) {i : Int} (hi : 1 ≤ i) :
    ((125 * v.natAbs / i.toNat : Nat) : Int) = 125 * |v| / i := by
  rw [Int.natCast_ediv, Int.natCast_mul, Int.toNat_of_nonneg (by omega), Int.abs_eq_natAbs]
  rfl

theorem ohm_within {v i : Int} (hi : 1 ≤ i) (hq : 125 * |v| / i ≤ 50000) :
    ohm v i = { v := v, i := i, r := 125 * v.natAbs / i.toNat, high := false } := by
  rw [← ohm_quotient v hi] at hq
  rw [ohm, if_pos hi]
  exact if_neg (Nat.not_lt.2 (by exact_mod_cast hq))

theorem ohm_above {v i : Int} (hi : 1 ≤ i) (hq : 50000 < 125 * |v| / i) :
    ohm v i = { v := v, i := i, r := 50000, high := true } := by
  rw [← ohm_quotient v hi] at hq
  rw [ohm, if_pos hi]
  exact if_pos (show 50000 < 125 * v.natAbs / i.toNat by exact_mod_cast hq)

theorem ohm_noCurrent (v : Int) {i : Int} (hi : i ≤ 0) : ohm v i = { v := v, i := i, r := 50000, high := true } :=
  if_neg (by omega)

/-- Settles O38: the three cases of R99, and its table by evaluation. -/
theorem resistanceFollowsTheMeans : Obligations.ResistanceFollowsTheMeans := by
  refine ⟨fun v i hi => ⟨fun hq => ?_, fun hq => ?_⟩, fun v i hi => ?_, by decide⟩
  · rw [ohm_within hi hq]
    exact ⟨ohm_quotient v hi, rfl⟩
  · rw [ohm_above hi hq]
    exact ⟨rfl, rfl⟩
  · rw [ohm_noCurrent v hi]
    exact ⟨rfl, rfl⟩

/-! ### The results of a phase -/

/-- The context with the sums of the sample taken in (R97, R98). -/
def TestCtx.summed (x : Sample) (c : TestCtx) : TestCtx :=
  { c with sumA := c.sumA + (phaseCodes c.phase x).1, sumB := c.sumB + (phaseCodes c.phase x).2,
           dwellCount := c.dwellCount + 1 }

/-- The means of a phase's sums (R98). -/
def TestCtx.means (c : TestCtx) : Int × Int := (roundDiv c.sumA c.m, roundDiv c.sumB c.m)

/-- The resistance of a phase's means (R99). -/
def TestCtx.ohms (c : TestCtx) : OhmResult := ohm c.means.1 c.means.2

/-- A completed phase stores means in phase 1, and else the resistance in the place of its phase (R97 to R99). -/
theorem storePhase_eq (c : TestCtx) (h : c.phase = 1 ∨ c.phase = 2 ∨ c.phase = 3 ∨ c.phase = 4) :
    storePhase c =
      { c with phasesDone := c.phasesDone + 1,
               p1 := if c.phase = 1 then some c.means else c.p1,
               p2 := if c.phase = 2 then some c.ohms else c.p2,
               p3 := if c.phase = 3 then some c.ohms else c.p3,
               p4 := if c.phase = 4 then some c.ohms else c.p4 } := by
  unfold storePhase
  rcases h with h | h | h | h <;> simp [h, TestCtx.ohms, TestCtx.means]

/-! ### The verdict -/

/-- A mean voltage of phase 1 reaches the foreign limit (R101). -/
theorem isForeign_iff (c : TestCtx) :
    isForeign c = true ↔ ∃ v w, c.p1 = some (v, w)
      ∧ ((c.foreignLimit : Int) ≤ |v| ∨ (c.foreignLimit : Int) ≤ |w|) := by
  unfold isForeign
  split
  · next v w h =>
    simp only [h, Option.some.injEq, Prod.mk.injEq, Bool.or_eq_true, decide_eq_true_eq, Int.abs_eq_natAbs, Nat.cast_le,
      and_assoc, exists_and_left, exists_eq_left']
  · next h => simp [h]

/-- A resistance lies below the pass limit (R101). -/
theorem belowPass_iff (c : TestCtx) (l : List (Option OhmResult)) :
    (∃ o ∈ l, belowPass c o = true) ↔ ∃ q : OhmResult, some q ∈ l ∧ q.r < c.passLimit := by
  constructor
  · rintro ⟨o, ho, hb⟩
    cases o with
    | none => cases hb
    | some q => exact ⟨q, ho, of_decide_eq_true hb⟩
  · rintro ⟨q, hq, hr⟩
    exact ⟨some q, hq, decide_eq_true hr⟩

/-- A phase's resistance lies below the pass limit (R101). -/
def TestCtx.low (c : TestCtx) : Prop := ∃ q : OhmResult, some q ∈ [c.p2, c.p3, c.p4] ∧ q.r < c.passLimit

theorem testVerdict_foreign {c : TestCtx} (h : isForeign c = true) : testVerdict c = .failForeign := if_pos h

theorem testVerdict_loop {c : TestCtx} (h : ¬isForeign c = true) (h2 : c.phasesDone = 2) : testVerdict c = .loop := by
  rw [testVerdict, if_neg h, if_pos h2]

theorem testVerdict_low {c : TestCtx} (h : ¬isForeign c = true) (h2 : c.phasesDone ≠ 2) (hl : c.low) :
    testVerdict c = .failInsulation := by
  rw [testVerdict, if_neg h, if_neg h2, if_pos]
  simpa [or_assoc] using (belowPass_iff c _).2 hl

theorem testVerdict_pass {c : TestCtx} (h : ¬isForeign c = true) (h2 : c.phasesDone ≠ 2) (hl : ¬c.low) :
    testVerdict c = .pass := by
  rw [testVerdict, if_neg h, if_neg h2, if_neg]
  simpa [and_assoc] using mt (belowPass_iff c _).1 hl

/-! ### The result buffer -/

/-- The run bit and the HIGH bit of one of phases 2 to 4 (11.5). -/
def ohmBits (o : Option OhmResult) (w h : Nat) : Nat :=
  match o with
  | some q => w + (if q.high then h else 0)
  | none => 0

theorem ohmBits_eq (o : Option OhmResult) (w h : Nat) : ohmBits o w h = w * bit o.isSome + h * bit (ohmHigh o) := by
  cases o with
  | none => simp [ohmBits, ohmHigh, bit]
  | some q => cases hq : q.high <;> simp [ohmBits, ohmHigh, bit, hq]

theorem runBits_eq (c : TestCtx) :
    runBits c = (if c.p1.isSome then 1 else 0) + ohmBits c.p2 2 16 + ohmBits c.p3 4 32 + ohmBits c.p4 8 64 := by
  rw [ohmBits_eq, ohmBits_eq, ohmBits_eq, runBits]
  show _ = bit c.p1.isSome + _ + _ + _
  omega

/-- The result buffer of a test as 11.5 lists its fields. -/
theorem testResult_eq (s : State) (c : TestCtx) (v : Verdict) :
    testResult s c v =
      [(1, (codeVerdict v : Int)), (1, c.phasesDone), (1, c.settleScans), (1, c.m), (4, s.time.toNat),
       (2, c.passLimit), (2, c.foreignLimit),
       (1, (((if c.p1.isSome then 1 else 0) + ohmBits c.p2 2 16 + ohmBits c.p3 4 32 + ohmBits c.p4 8 64 : Nat) : Int)),
       (1, 0), (2, (c.p1.getD (0, 0)).1), (2, (c.p1.getD (0, 0)).2), (2, 0)]
        ++ ohmFields c.p2 ++ ohmFields c.p3 ++ ohmFields c.p4
        ++ [(2, (c.held : Int)), (2, c.missing), (2, c.mismatch)] ++ List.replicate 14 (1, 0) := by
  rw [testResult, runBits_eq]
  cases c.p1 <;> rfl

/-! ### What a completed phase does -/

section Phase
variable {s : State} {c : TestCtx}

theorem endOrder_lines (s : State) (k : SlotNo) (e : Completion) : (endOrder s k e).lines = s.lines := by
  unfold endOrder
  split <;> rfl

@[simp] theorem placeFrame_test (s : State) (l m : LinkNo) (f : Frame) :
    ((placeFrame s l f).link m).test = (s.link m).test :=
  (congrArg LinkRec.test (link_standing (congrArg Prod.snd (placeFrame_unsupervised s l f)) m) :)

/-- The context as a phase starts (R95, R97). -/
def TestCtx.started (phase : Nat) (c : TestCtx) : TestCtx :=
  { c with phase := phase, step := .relayWait, settleCount := 0, dwellCount := 0, sumA := 0, sumB := 0 }

theorem startPhase_test (s : State) (c : TestCtx) (phase : Nat) :
    ((startPhase s c phase).link (linkOf c.line)).test = some (c.started phase) := by
  rw [startPhase, placeRelay, placeFrame_test, State.link_modLink_same]
  rfl

theorem startPhase_lines (s : State) (c : TestCtx) (phase : Nat) : (startPhase s c phase).lines = s.lines :=
  placeFrame_lines _ _ _

theorem endTest_test (s : State) (c : TestCtx) (v : Verdict) (o : OrderOutcome) (r : Reason) :
    ((endTest s c v o r).link (linkOf c.line)).test = some { c with step := .restoring } := by
  rw [endTest, State.link_modLink_same]

theorem endTest_lines (s : State) (c : TestCtx) (v : Verdict) (o : OrderOutcome) (r : Reason) :
    (endTest s c v o r).lines = s.lines :=
  (placeFrame_lines _ _ _).trans (endOrder_lines s c.slot _)

theorem endTest_slot (h : s.exch = .running ∨ s.exch = .stopping) (v : Verdict) (o : OrderOutcome) (r : Reason) :
    (endTest s c v o r).slot c.slot
      = { s.slot c.slot with
          flight := none,
          due := some { outcome := o, reason := r, detail := detail [codeVerdict v, c.phasesDone],
                        result := some (c.result, testResult s c v) } } := by
  rw [endTest, State.slot_modLink, placeRelay, placeFrame_slot]
  exact endOrder_slot h c.slot _

theorem phaseEnds_lines (s : State) (c : TestCtx) : (phaseEnds s c).lines = s.lines := by
  unfold phaseEnds
  dsimp only
  split
  · exact startPhase_lines s _ _
  split
  · split
    · exact endTest_lines s _ _ _ _
    · exact startPhase_lines s _ _
  split
  · exact startPhase_lines s _ _
  · exact endTest_lines s _ _ _ _

theorem storePhase_phase (c : TestCtx) : (storePhase c).phase = c.phase := by
  unfold storePhase
  dsimp only
  split
  · rfl
  split
  · rfl
  split <;> rfl

/-- The end of phase 2 finds a loop below 20 kilohms (R100). -/
theorem isLoop_storePhase (h : c.phase = 2) : isLoop (storePhase c) = decide (c.ohms.r < 20) := by
  rw [storePhase_eq c (.inr (.inl h)), isLoop]
  simp only [h, if_true]
  rfl

/-- After phases 1 and 3, and after phase 2 without a loop, the next phase starts (R97). -/
theorem phaseEnds_starts (s : State) (h : c.phase = 1 ∨ c.phase = 2 ∧ 20 ≤ c.ohms.r ∨ c.phase = 3) :
    phaseEnds s c = startPhase s (storePhase c) (c.phase + 1) := by
  unfold phaseEnds
  dsimp only
  rw [storePhase_phase]
  rcases h with h | ⟨h, hr⟩ | h
  · simp only [h, if_true]
  · simp [h, isLoop_storePhase h, Nat.not_lt.2 hr]
  · simp [h]

/-- After phase 2 with a loop, and after phase 4, the test ends DONE with its verdict (R100, R102). -/
theorem phaseEnds_ends (s : State) (h : c.phase = 2 ∧ c.ohms.r < 20 ∨ c.phase = 4) :
    phaseEnds s c = endTest s (storePhase c) (testVerdict (storePhase c)) .done .none := by
  unfold phaseEnds
  dsimp only
  rw [storePhase_phase]
  rcases h with ⟨h, hr⟩ | h
  · simp [h, isLoop_storePhase h, hr]
  · simp [h]

/-- The context with which a test ends after phase 2 or phase 4 (R98, R99). -/
def TestCtx.finished (c : TestCtx) : TestCtx :=
  { c with phasesDone := c.phase,
           p2 := if c.phase = 2 then some c.ohms else c.p2,
           p4 := if c.phase = 4 then some c.ohms else c.p4 }

theorem storePhase_last (h : c.phase = 2 ∨ c.phase = 4) (hd : c.phasesDone + 1 = c.phase) :
    storePhase c = c.finished := by
  rw [storePhase_eq c (by omega), hd, if_neg (show c.phase ≠ 1 by omega), if_neg (show c.phase ≠ 3 by omega)]
  rfl

end Phase

/-! ### The scan that completes a phase -/

/-- The scan that brings the count of a dwell to M completes the phase, with its sample summed (R97). -/
theorem testCounts_last (s : State) (l : LinkNo) {c : TestCtx} {x : Sample} (hs : c.step = .dwell)
    (hm : c.m ≤ c.dwellCount + 1) : testCounts s l c x = phaseEnds s (c.summed x) := by
  unfold testCounts
  split
  · next h => cases hs.symm.trans h
  · exact if_pos hm
  · next h => cases hs.symm.trans h
  · next h => cases hs.symm.trans h

theorem replyOutcome_sample {s : State} {n : LineNo} {x y : Sample} (h : replyOutcome s n x = .accepted y) : x = y := by
  unfold replyOutcome at h
  split at h
  · cases h
  split at h
  · cases h
  split at h
  · cases h
  · exact ScanOutcome.accepted.inj h

/-- The case of a phase's last scan: the reply matches, its line is TESTING, and the scan is ACCEPTED, its range is the
phase's, and it brings the count of the dwell to M (R97). -/
structure PhaseCase (s : State) (l : LinkNo) (p : PairNo) (x : Sample) (c : TestCtx) : Prop where
  exchange : (s.link l).exchange = some (.sample p)
  testing : (s.line (lineAt l p)).service = .testing
  outcome : replyOutcome (atReply s l x) (lineAt l p) x = .accepted x
  line : c.line = lineAt l p
  dwell : c.step = .dwell
  range : rangeMatches c.phase x = true
  last : c.m ≤ c.dwellCount + 1

theorem phaseCase_spec {s : State} {l : LinkNo} {p : PairNo} {x : Sample} {c : TestCtx}
    (h : replyCase phaseDue .testing s l p x = true) (hc : (s.link l).test = some c) : PhaseCase s l p x c := by
  simp only [replyCase, Bool.and_eq_true, decide_eq_true_eq, atReply_line] at h
  obtain ⟨⟨hex, hv⟩, hd⟩ := h
  have htest : ((atReply s l x).link (linkOf (lineAt l p))).test = some c := by
    rw [linkOf_lineAt, atReply_link]
    exact hc
  unfold phaseDue at hd
  rw [htest] at hd
  split at hd
  · next c' y hsc hout =>
    obtain rfl := Option.some.inj hsc
    obtain rfl := replyOutcome_sample hout
    simp only [Bool.and_eq_true, decide_eq_true_eq] at hd
    obtain ⟨⟨⟨hline, hstep⟩, hrange⟩, hm⟩ := hd
    exact ⟨hex, hv, hout, hline, hstep, hrange, hm⟩
  · cases hd

/-- The scan of such a case completes the phase (R97). -/
theorem PhaseCase.scan {s : State} {l : LinkNo} {p : PairNo} {x : Sample} {c : TestCtx} (h : PhaseCase s l p x c)
    (hc : (s.link l).test = some c) :
    takeSample (replyTaken s l) (lineAt l p) x = phaseEnds (atReply s l x) (c.summed x) := by
  have htest : ((atReply s l x).link (linkOf (lineAt l p))).test = some c := by
    rw [linkOf_lineAt, atReply_link]
    exact hc
  have hv : ((atReply s l x).line (lineAt l p)).service = .testing := by rw [atReply_line, h.testing]
  rw [takeSample_eq, h.outcome, routeScan.eq_def, hv]
  dsimp only
  unfold testScan
  rw [htest]
  dsimp only
  rw [if_neg (by simp [h.line, h.dwell]), if_pos h.range]
  exact testCounts_last _ _ h.dwell h.last

/-- What follows a test's scan in its step leaves the tests, the slots and the lines' bare records. -/
theorem testStep_test (s v : State) (l m : LinkNo) :
    ((markChanges s (advanceLink v l)).link m).test = (v.link m).test := by
  rw [markChanges_link]
  exact (congrArg LinkRec.test (advanceLink_standing v l m) :)

/-- Settles O37: the phase is completed by its last sample, and what it leaves stands when the link has gone on. -/
theorem phasesCompleteInTurn : Obligations.PhasesCompleteInTurn := by
  intro l p x s c codes fresh hdue hc hm hdone hexch
  have hcase := phaseCase_spec hdue hc
  have hlink : linkOf c.line = l := by rw [hcase.line, linkOf_lineAt]
  have hstep := (stepMarked_replyCase hdue).trans (exec_sampleReply x hcase.exchange)
  have hengine := scanStep_engine s l p x
  rw [hcase.scan hc] at hstep hengine
  have hexch' : (atReply s l x).exch = .running ∨ (atReply s l x).exch = .stopping := by
    rw [show (atReply s l x).exch = s.exch from congrArg Engine.exch (atReply_engine s l x)]
    exact hexch
  have htime : (atReply s l x).time = s.time := congrArg Engine.time (atReply_engine s l x)
  have hlines : (atReply s l x).lines = s.lines := (congrArg State.lines (atReply_frame s l x) :)
  generalize atReply s l x = u at hstep hengine hexch' htime hlines
  have hline : (storePhase (c.summed x)).line = c.line := storePhase_line (c.summed x)
  have hstarts : ∀ phase, ((startPhase u (storePhase (c.summed x)) phase).link l).test
      = some ((storePhase (c.summed x)).started phase) := fun phase => by
    rw [← startPhase_test u, hline, hlink]
  refine ⟨_, (c.summed x).means.1, (c.summed x).means.2, hstep, nearest_roundDiv _ hm, nearest_roundDiv _ hm,
    fun h => ?_, fun h hr => ?_, fun h => ?_, fun h => ?_, fun m => ?_, hengine⟩
  · rw [testStep_test, phaseEnds_starts (c := c.summed x) u (.inl h), hstarts, storePhase_eq (c.summed x) (.inl h)]
    simp only [TestCtx.summed, h]
    rfl
  · rw [testStep_test, phaseEnds_starts (c := c.summed x) u (.inr (.inl ⟨h, hr⟩)), hstarts,
      storePhase_eq (c.summed x) (.inr (.inl h))]
    simp only [TestCtx.summed, h]
    rfl
  · rw [testStep_test, phaseEnds_starts (c := c.summed x) u (.inr (.inr h)), hstarts,
      storePhase_eq (c.summed x) (.inr (.inr (.inl h)))]
    simp only [TestCtx.summed, h]
    rfl
  · intro p2 p4 foreign low ran out p1
    have hran : ran = ohmBits := by
      funext o w k
      cases o <;> rfl
    have hout : out = ohmFields := by
      funext o
      cases o <;> rfl
    have hlast : c.phase = 2 ∨ c.phase = 4 := h.imp_left And.left
    have htest := endTest_test u (storePhase (c.summed x)) (testVerdict (storePhase (c.summed x))) .done .none
    have hslot := endTest_slot (c := storePhase (c.summed x)) hexch' (testVerdict (storePhase (c.summed x))) .done .none
    rw [hline, hlink] at htest
    rw [testResult_eq, htime, storePhase_last (c := c.summed x) hlast hdone] at hslot
    rw [hran, hout, phaseEnds_ends (c := c.summed x) u h, testStep_test, htest, markChanges_slot, advanceLink_slot,
      storePhase_last (c := c.summed x) hlast hdone]
    have hforeign : isForeign (c.summed x).finished = true ↔ foreign := isForeign_iff _
    have hphases : (c.summed x).finished.phasesDone = c.phase := rfl
    exact ⟨testVerdict (c.summed x).finished, fun hf => testVerdict_foreign (hforeign.2 hf),
      fun hf h2 => testVerdict_loop (mt hforeign.1 hf) h2,
      fun hf h4 hl => testVerdict_low (mt hforeign.1 hf) (by rw [hphases, h4]; decide) hl,
      fun hf h4 hl => testVerdict_pass (mt hforeign.1 hf) (by rw [hphases, h4]; decide) hl,
      rfl, congrArg SlotRec.flight hslot, congrArg SlotRec.due hslot⟩
  · rw [markChanges_line_bare, advanceLink_line]
    simp only [State.line, phaseEnds_lines, hlines]

end Sys2Proof.Machine
end

section
/-! O13: the orders that end at their dispatch. -/

namespace Sys2Proof.Machine

/-! ### Completions at the dispatch -/

/-- The detail bytes of a completion, those not given being 0 (11.5). -/
theorem detail_padded {d : List Nat} (hd : d.length ≤ 10) :
    detail d = (d ++ List.replicate (10 - d.length) 0).map (BitVec.ofNat 8) := by
  unfold detail
  rw [List.map_append, List.map_replicate, List.take_append, List.length_map, List.take_replicate,
    List.take_of_length_le (by simpa using hd)]
  congr 2
  omega

/-- While the exchange is RUNNING an order that ends has its completion due (R178). -/
theorem finish_running {s : State} (hrun : s.exch = .running) (k : SlotNo) (o : OrderOutcome) (r : Reason)
    {d : List Nat} (hd : d.length ≤ 10) : finish s k o r d = answered s k o r d := by
  rw [finish, detail_padded hd, endOrder, if_pos (.inl hrun)]
  rfl

theorem complete_running {s : State} (hrun : s.exch = .running) (k : SlotNo) {d : List Nat} (hd : d.length ≤ 10) :
    complete s k d = answered s k .done .none d := finish_running hrun k .done .none hd

theorem refuse_answered {s : State} (hrun : s.exch = .running) (k : SlotNo) (r : Reason) {d : List Nat}
    (hd : d.length ≤ 10) : refuse s k r d = answered s k .refused r d := finish_running hrun k .refused r hd

/-! ### CLEAR FAULT -/

section ClearFault
variable {s : State} {k : SlotNo} {o : OrderRead}

theorem orderClearFault_badLine (hrun : s.exch = .running) (h : 64 ≤ lineOf o) :
    orderClearFault s k o = answered s k .refused .badLine [] := by
  rw [orderClearFault, dif_neg (Nat.not_lt.2 h)]
  exact refuse_empty hrun k _

variable {n : LineNo}

/-- CLEAR FAULT without a record does nothing (R93). -/
theorem orderClearFault_none (hrun : s.exch = .running) (hn : lineOf o = n.1) (hf : (s.line n).fault = none) :
    orderClearFault s k o = answered s k .done .none [] := by
  obtain ⟨i, hi⟩ := n
  obtain rfl : i = lineOf o := hn.symm
  rw [orderClearFault, dif_pos hi]
  dsimp only
  rw [hf]
  exact complete_running hrun k (d := [0, 0, 0]) (by decide)

/-- CLEAR FAULT is refused for an ACTIVE record, and removes a RESTORED one (R93). -/
theorem orderClearFault_some (hrun : s.exch = .running) (hn : lineOf o = n.1) {f : FaultRec}
    (hf : (s.line n).fault = some f) :
    orderClearFault s k o =
      if f.active then answered s k .refused .faultPresent []
      else answered (s.modLine n fun x => { x with fault := none }) k .done .none
             [1, f.occurrences, codeCls f.latest] := by
  obtain ⟨i, hi⟩ := n
  obtain rfl : i = lineOf o := hn.symm
  rw [orderClearFault, dif_pos hi]
  dsimp only
  rw [hf]
  dsimp only
  split
  · exact refuse_answered hrun k _ (d := [0, 0, 0]) (by decide)
  · exact complete_running (s := s.modLine _ _) hrun k (by simp)

end ClearFault

/-! ### ECONOMY -/

/-- ECONOMY ON takes an ACTIVE line ON_HOOK at FULL rate without a survey (R146). -/
theorem economyTakes_eq (r : LineRec) :
    economyTakes r = (decide (r.service = .active ∧ r.sup = .onHook ∧ r.rate = .full) && r.survey.isNone) := by
  unfold economyTakes quietHeld
  cases hv : r.service <;> simp [Bool.and_assoc, ← Option.not_isSome]

/-- The record of a line that ECONOMY ON has passed (R146). -/
def economized (r : LineRec) : LineRec := if economyTakes r then { r with rate := .quiet } else r

/-- Lines updated in turn, each once. -/
theorem foldl_modLine_line (f : LineRec → LineRec) (l : List LineNo) (hl : l.Nodup) (s : State) (m : LineNo) :
    (l.foldl (fun s n => s.modLine n f) s).line m = if m ∈ l then f (s.line m) else s.line m := by
  induction l generalizing s with
  | nil => simp
  | cons n l ih =>
    rw [List.nodup_cons] at hl
    rw [List.foldl_cons, ih hl.2]
    by_cases hm : m = n
    · subst hm
      simp [hl.1]
    · simp [hm, State.line_modLine_other _ hm]

theorem foldl_modLine_frame (f : LineRec → LineRec) (l : List LineNo) (s : State) :
    { l.foldl (fun s n => s.modLine n f) s with lines := s.lines } = s := by
  induction l generalizing s with
  | nil => rfl
  | cons n l ih => exact (congrArg (fun u : State => { u with lines := s.lines }) (ih (s.modLine n f)) :)

/-- Every line updated in turn is the map over the lines. -/
theorem foldl_modLine_all (f : LineRec → LineRec) (s : State) :
    allLines.foldl (fun s n => s.modLine n f) s = { s with lines := s.lines.map f } := by
  have hlines : (allLines.foldl (fun s n => s.modLine n f) s).lines = s.lines.map f := by
    ext i hi : 1
    have h := foldl_modLine_line f allLines nodup_allLines s ⟨i, hi⟩
    rw [if_pos (mem_allLines _)] at h
    simpa [State.line] using h
  have hframe := foldl_modLine_frame f allLines s
  generalize allLines.foldl (fun s n => s.modLine n f) s = t at hlines hframe
  cases t
  cases hlines
  cases s
  simp_all

theorem orderEconomy_eq {s : State} (hrun : s.exch = .running) (k : SlotNo) (o : OrderRead) :
    orderEconomy s k o =
      if targetOf o = 0 then answered { s with economy := false } k .done .none [0, 0]
      else if targetOf o = 1 then
        answered { s with economy := true, lines := s.lines.map economized } k .done .none
          [1, (allLines.filter fun n => economyTakes (s.line n)).length]
      else answered s k .refused .badParam [if s.economy then 1 else 0, 0] := by
  unfold orderEconomy
  split
  · exact complete_running (s := { s with economy := false }) hrun k (by decide)
  split
  · have hfold := foldl_modLine_all economized { s with economy := true }
    dsimp only
    rw [← complete_running (s := { s with economy := true, lines := s.lines.map economized }) hrun k
        (d := [1, (allLines.filter fun n => economyTakes (s.line n)).length]) (by simp),
      ← hfold]
    rfl
  · exact refuse_answered hrun k _ (by simp)

/-! ### LOAD PROFILE -/

/-- Bytes are read alike from addresses that are the same on the 32-bit bus. -/
theorem memReadBytes_sameAddr (m : List Host.Cell) (n : Nat) {a b : Nat} (h : a % 2 ^ 32 = b % 2 ^ 32) :
    memReadBytes m a n = memReadBytes m b n := by
  induction n generalizing a b with
  | zero => rfl
  | succ n ih => rw [memReadBytes, memReadBytes, h, ih (show (a + 1) % 2 ^ 32 = (b + 1) % 2 ^ 32 by omega)]

theorem memReadBytes_drop (m : List Host.Cell) (a n off : Nat) :
    (memReadBytes m a n).drop off = memReadBytes m (a + off) (n - off) := by
  induction off generalizing a n with
  | zero => rfl
  | succ off ih =>
    cases n with
    | zero => simp [memReadBytes]
    | succ n =>
      rw [memReadBytes, List.drop_succ_cons, ih, Nat.add_sub_add_right]
      congr 1
      omega

theorem memReadBytes_take (m : List Host.Cell) (a : Nat) {k n : Nat} (h : k ≤ n) :
    (memReadBytes m a n).take k = memReadBytes m a k := by
  induction k generalizing a n with
  | zero => simp [memReadBytes]
  | succ k ih =>
    obtain ⟨n, rfl⟩ : ∃ i, n = i + 1 := ⟨n - 1, by omega⟩
    rw [memReadBytes, List.take_succ_cons, ih _ (by omega), ← memReadBytes]

/-- A field of a block that was read in one piece is the field of the area (11.5). -/
theorem fieldAt_memReadBytes (s : State) (base : Nat) {size off n : Nat} (h : off + n ≤ size) :
    fieldAt s.latchBig (memReadBytes s.mem (areaAddr s base) size) off n = areaField s (base + off) n := by
  rw [fieldAt, memReadBytes_drop, memReadBytes_take _ _ (by omega), areaField, ← areaAddr_add]
  exact congrArg _ (memReadBytes_sameAddr _ _ (by omega))

theorem decodeInt_one (x : Nat) : decodeInt 1 x = if x < 128 then (x : Int) else (x : Int) - 256 := rfl

theorem decodeInt_two (x : Nat) : decodeInt 2 x = if x < 32768 then (x : Int) else (x : Int) - 65536 := rfl

/-- The profile that a staging block holds (R126, 11.5). -/
def stagedProfile (s : State) (p : ProfNo) : Profile :=
  readProfile s.latchBig (memReadBytes s.mem (areaAddr s (0x500 + 128 * p.1)) 0x32)

section LoadProfile
variable {s : State} {k : SlotNo} {o : OrderRead}

theorem orderLoadProfile_badParam (hrun : s.exch = .running) (h : 8 ≤ targetOf o) :
    orderLoadProfile none s k o = .ok (answered s k .refused .badParam [s.period.ms]) := by
  rw [orderLoadProfile, dif_neg (Nat.not_lt.2 h), refuse_answered hrun k _ (by simp)]

variable {p : ProfNo}

theorem orderLoadProfile_block (hp : targetOf o = p.1) :
    orderLoadProfile none s k o
      = .ok (loadProfile s k p (memReadBytes s.mem (areaAddr s (0x500 + 128 * p.1)) 0x32)) := by
  obtain ⟨i, hi⟩ := p
  obtain rfl : i = targetOf o := hp.symm
  rw [orderLoadProfile, dif_pos hi, busRead_none]
  rfl

/-- A profile that fails a constraint at the period in use is refused with its number (R126). -/
theorem orderLoadProfile_invalid (hrun : s.exch = .running) (hp : targetOf o = p.1) {c : Nat}
    (hc : firstFailing s.period (stagedProfile s p) = some c) :
    orderLoadProfile none s k o = .ok (answered s k .refused .profileInvalid [s.period.ms, c]) := by
  rw [stagedProfile] at hc
  rw [orderLoadProfile_block hp, loadProfile, hc]
  dsimp only
  rw [refuse_answered hrun k _ (by simp)]

/-- A valid profile is installed, converted at the period in use (R126, R127). -/
theorem orderLoadProfile_valid (hrun : s.exch = .running) (hp : targetOf o = p.1)
    (hc : firstFailing s.period (stagedProfile s p) = none) :
    orderLoadProfile none s k o
      = .ok (answered (s.setProfile p (install s.period (stagedProfile s p))) k .done .none [s.period.ms]) := by
  rw [stagedProfile] at hc ⊢
  rw [orderLoadProfile_block hp, loadProfile, hc]
  dsimp only
  rw [complete_running (s := s.setProfile p _) hrun k (by simp)]

end LoadProfile

/-! ### SET TRIM -/

/-- A frame placed leaves the queued frames of other keys where they are (R140). -/
theorem mem_queuePlace_of_mem {f g : Frame} {l : List Frame} (hg : g ∈ l) (hk : keyOf g ≠ keyOf f) :
    g ∈ queuePlace f l := by
  induction l with
  | nil => cases hg
  | cons x l ih =>
    unfold queuePlace
    rcases List.mem_cons.1 hg with rfl | hg
    · rw [if_neg hk]
      exact List.mem_cons_self
    · split
      · exact List.mem_cons_of_mem _ hg
      · exact List.mem_cons_of_mem _ (ih hg)

/-- A completion answers the same slots where the slots were the same. -/
theorem answered_slots {s t : State} (h : t.slots = s.slots) (k : SlotNo) (o : OrderOutcome) (r : Reason)
    (d : List Nat) : (answered t k o r d).slots = (answered s k o r d).slots := by
  simp only [answered, State.modSlot, State.slot, h]

/-- The queue of an UP link after a frame is placed on it (R140). -/
theorem placeFrame_queue {s : State} {l : LinkNo} (h : (s.link l).state = .up) (f : Frame) :
    ((placeFrame s l f).link l).queue = queuePlace f (s.link l).queue := by
  rw [placeFrame_up h, State.link_modLink_same]

/-- A frame offered to a link that is not UP is refused (R140). -/
theorem placeFrame_notUp {s : State} {l : LinkNo} (h : (s.link l).state ≠ .up) (f : Frame) : placeFrame s l f = s :=
  if_neg (by simp [linkUp, h])

theorem placeFrame_link_other (s : State) {l m : LinkNo} (h : m ≠ l) (f : Frame) :
    (placeFrame s l f).link m = s.link m := by
  unfold placeFrame
  split
  · exact State.link_modLink_other s h _
  · rfl

section SetTrim
variable {s : State} {k : SlotNo} {o : OrderRead}

theorem orderSetTrim_absent (hrun : s.exch = .running) (hp : presentLine s (lineOf o) = none) :
    orderSetTrim s k o = answered s k .refused .badLine [] := by
  rw [orderSetTrim, hp]
  exact refuse_empty hrun k _

variable {n : LineNo}

/-- The trim range that a parameter in range names (11.5). -/
def trimRange (o : OrderRead) : TrimRange := if param8 o 0 = 0 then .fine else .coarse

theorem rangeOf_fit (h : param8 o 0 ≤ 1) : rangeOf (param8 o 0) = some (trimRange o) := by
  unfold rangeOf trimRange
  split
  · rfl
  · exact if_pos (by omega)

theorem codeRange_trimRange (h : param8 o 0 ≤ 1) : codeRange (trimRange o) = param8 o 0 := by
  unfold trimRange
  split
  · next h0 => exact h0.symm
  · show 1 = param8 o 0
    omega

theorem rangeOf_unfit (h : 1 < param8 o 0) : rangeOf (param8 o 0) = none := by
  unfold rangeOf
  rw [if_neg (by omega), if_neg (by omega)]

theorem orderSetTrim_badParam (hrun : s.exch = .running) (hp : presentLine s (lineOf o) = some n)
    (h : 1 < param8 o 0 ∨ 127 < param8 o 1) : orderSetTrim s k o = answered s k .refused .badParam [] := by
  rw [orderSetTrim, hp]
  dsimp only
  by_cases hr : 1 < param8 o 0
  · rw [rangeOf_unfit hr]
    exact refuse_empty hrun k _
  · rw [rangeOf_fit (Nat.not_lt.1 hr)]
    dsimp only
    rw [if_pos (h.resolve_left hr)]
    exact refuse_empty hrun k _

theorem orderSetTrim_busy (hrun : s.exch = .running) (hp : presentLine s (lineOf o) = some n)
    (hr : param8 o 0 ≤ 1) (hc : param8 o 1 ≤ 127) (hv : (s.line n).service = .calibrating) :
    orderSetTrim s k o = answered s k .refused .lineBusy [] := by
  rw [orderSetTrim, hp]
  dsimp only
  rw [rangeOf_fit hr]
  dsimp only
  rw [if_neg (Nat.not_lt.2 hc), if_pos hv]
  exact refuse_empty hrun k _

/-- The calibration record that SET TRIM writes (R121). -/
def trimmed (s : State) (o : OrderRead) (n : LineNo) : CalRec :=
  { range := trimRange o, code := BitVec.ofNat 7 (param8 o 1), s1 := (s.line n).cal.s1, time := s.time,
    status := if flagOf o then .override else .none }

/-- SET TRIM past its checks: the record is written, its TRIM placed, and the order is done (R121). -/
theorem orderSetTrim_done (hrun : s.exch = .running) (hp : presentLine s (lineOf o) = some n)
    (hr : param8 o 0 ≤ 1) (hc : param8 o 1 ≤ 127) (hv : (s.line n).service ≠ .calibrating) :
    orderSetTrim s k o
      = answered (placeFrame (s.modLine n fun x => { x with cal := trimmed s o n }) (linkOf n)
            (.trim (pairOf n) (trimRange o) (BitVec.ofNat 7 (param8 o 1)) .record))
          k .done .none [param8 o 0, param8 o 1] := by
  have hcode : (BitVec.ofNat 7 (param8 o 1)).toNat = param8 o 1 := by
    rw [BitVec.toNat_ofNat]
    omega
  have hexch : (placeFrame (s.modLine n fun x => { x with cal := trimmed s o n }) (linkOf n)
      (.trim (pairOf n) (trimRange o) (BitVec.ofNat 7 (param8 o 1)) .record)).exch = .running :=
    (congrArg Engine.exch (placeFrame_engine _ _ _) :).trans hrun
  rw [← complete_running hexch k (by simp), orderSetTrim, hp]
  dsimp only
  rw [rangeOf_fit hr]
  dsimp only
  rw [if_neg (Nat.not_lt.2 hc), if_neg hv, codeRange_trimRange hr, hcode]
  rfl

end SetTrim

/-- Settles O13: each of the four orders by its checks and its effect. -/
theorem ordersEndAtTheirDispatch : Obligations.OrdersEndAtTheirDispatch := by
  intro s k o hrun
  refine ⟨fun hk => ?_, fun hk => ?_, fun hk => ?_, fun hk => ?_⟩
  · have hd : dispatch none s k o = .ok (orderClearFault s k o) := by
      unfold dispatch
      rw [hk]
      rfl
    rw [hd]
    refine ⟨fun h => ?_, fun n hn => ⟨fun hf => ?_, fun f hf => ?_⟩⟩
    · rw [orderClearFault_badLine hrun h]
    · rw [orderClearFault_none hrun hn hf]
    · rw [orderClearFault_some hrun hn hf]
  · have hd : dispatch none s k o = .ok (orderEconomy s k o) := by
      unfold dispatch
      rw [hk]
      rfl
    intro takes
    have htakes : takes = economyTakes := funext fun r => (economyTakes_eq r).symm
    rw [hd, orderEconomy_eq hrun, htakes]
    rfl
  · have hd : dispatch none s k o = orderLoadProfile none s k o := by
      unfold dispatch
      rw [hk]
      rfl
    rw [hd]
    refine ⟨orderLoadProfile_badParam hrun, fun p hp => ?_⟩
    intro base u8 u16 s8 s16
    have hu : ∀ off n, off + n ≤ 0x32 →
        fieldAt s.latchBig (memReadBytes s.mem (areaAddr s (0x500 + 128 * p.1)) 0x32) off n
          = areaField s (base + off) n := fun off n h => fieldAt_memReadBytes s _ h
    refine ⟨stagedProfile s p, ?_, ?_, ?_, ?_, ?_, ?_, fun c hc => orderLoadProfile_invalid hrun hp hc,
      fun hc => orderLoadProfile_valid hrun hp hc⟩
    all_goals
      simp only [stagedProfile, readProfile, clampShift, decodeInt_one, decodeInt_two, List.map_cons, List.map_nil,
        hu, Nat.reduceAdd, Nat.reduceLeDiff]
      rfl
  · have hd : dispatch none s k o = .ok (orderSetTrim s k o) := by
      unfold dispatch
      rw [hk]
      rfl
    rw [hd]
    refine ⟨fun hp => by rw [orderSetTrim_absent hrun hp], fun n hp => ?_⟩
    intro l range code
    refine ⟨fun h => by rw [orderSetTrim_badParam hrun hp h], fun hr hc hv => by rw [orderSetTrim_busy hrun hp hr hc hv],
      fun hr hc hv => ⟨_, congrArg BusRes.ok (orderSetTrim_done hrun hp hr hc hv), ?_⟩⟩
    let u := s.modLine n fun x => { x with cal := trimmed s o n }
    let f := Frame.trim (pairOf n) range code .record
    refine ⟨?_, fun m hm => ?_, ?_, fun hup => ?_, fun hdown => ?_, fun m hm => ?_, ?_, ?_⟩
    · exact (placeFrame_line u l f n).trans (State.line_modLine_same s n _)
    · exact (placeFrame_line u l f m).trans (State.line_modLine_other s hm _)
    · exact answered_slots (placeFrame_slots u l f) k _ _ _
    · have hqueue : ((placeFrame u l f).link l).queue = queuePlace f (s.link l).queue := placeFrame_queue (s := u) hup f
      constructor
      · exact (congrArg (f ∈ ·) hqueue).mpr (mem_queuePlace f _)
      · exact fun g hg hk => (congrArg (g ∈ ·) hqueue).mpr (mem_queuePlace_of_mem hg hk)
    · exact (congrArg (State.link · l) (placeFrame_notUp (s := u) hdown f) :)
    · exact (placeFrame_link_other u hm f :)
    · exact placeFrame_rcvs u l f
    · exact (modSlot_engine _ k _).trans (placeFrame_engine u l f)

end Sys2Proof.Machine
end

section
/-! SUPPORT. What the scans of a line do to its supervision state and fault record (R27, R43, R44, R90 to R92): the
peak that a measurement raises, the event or the restoration of an acceptance, and the event of an entry to ON_HOOK at
the limits. -/

namespace Sys2Proof.Machine

variable {s t : State} {n : LineNo}

/-! ### The views -/

/-- A line's supervision state and fault record. -/
def LineRec.alarm (r : LineRec) : Sup × Option FaultRec := (r.sup, r.fault)

/-- The part of a line's record on which the measure of a fault rests (R91). -/
def LineRec.values (r : LineRec) : ProfNo × Int × Int × Int := (r.profile, r.aVt, r.aVr, r.aI)

theorem alarm_of_noRcv {a b : LineRec} (h : a.noRcv = b.noRcv) : a.alarm = b.alarm :=
  (congrArg LineRec.alarm h :)

theorem values_of_unsupervised {a b : LineRec} (h : a.unsupervised = b.unsupervised) : a.values = b.values :=
  (congrArg LineRec.values h :)

theorem measure_congr {a b : LineRec} (h : a.values = b.values) (thr : Thresholds) (k : Cls) :
    measure thr k a = measure thr k b := by
  simp only [LineRec.values, Prod.mk.injEq] at h
  obtain ⟨-, hVt, hVr, hI⟩ := h
  simp only [measure, vtF, vrF, iF, vd, vs, hVt, hVr, hI]

/-! ### Events -/

/-- The fault record after an event of a kind on a line, at the line's present values (R90). -/
def eventRecord (s : State) (n : LineNo) (k : Cls) (f : Option FaultRec) : Option FaultRec :=
  some (recordFault k s.time (measure (s.conv n).thr k (s.line n)) f)

theorem eventRecord_congr (he : t.engine = s.engine) (hv : (t.line n).values = (s.line n).values) (k : Cls)
    (f : Option FaultRec) : eventRecord t n k f = eventRecord s n k f := by
  have htime : t.time = s.time := congrArg Engine.time he
  have hconv : t.conv n = s.conv n := conv_congr he (congrArg Prod.fst hv)
  rw [eventRecord, htime, hconv, measure_congr hv]
  rfl

/-- An event takes a RESTORED record as it takes an ACTIVE one (R90). -/
theorem eventRecord_restored (s : State) (n : LineNo) (k : Cls) (f : Option FaultRec) :
    eventRecord s n k (restored f) = eventRecord s n k f := by
  cases f <;> rfl

theorem faultEvent_alarm (s : State) (n : LineNo) (k : Cls) :
    ((faultEvent s n k).line n).alarm = ((s.line n).sup, eventRecord s n k (s.line n).fault) := by
  rw [faultEvent, State.line_modLine_same]
  rfl

theorem restoreFault_alarm (s : State) (n : LineNo) :
    ((restoreFault s n).line n).alarm = ((s.line n).sup, restored (s.line n).fault) := by
  rw [restoreFault, State.line_modLine_same]
  rfl

/-- The fault record of a line that enters ON_HOOK: LEAK in its accepted class is an event (R27). -/
def hungFault (s : State) (n : LineNo) : Option FaultRec :=
  if (s.line n).accepted = .leak then eventRecord s n .leak (s.line n).fault else (s.line n).fault

theorem hungFault_restoreFault (s : State) (n : LineNo) :
    hungFault (restoreFault s n) n
      = if (s.line n).accepted = .leak then eventRecord s n .leak (s.line n).fault else restored (s.line n).fault := by
  have hline : (restoreFault s n).line n = { s.line n with fault := restored (s.line n).fault } :=
    State.line_modLine_same _ _ _
  have hevent := eventRecord_congr (restoreFault_engine s n) (by rw [hline]; rfl) .leak (restored (s.line n).fault)
  rw [hungFault, hline]
  dsimp only
  rw [hevent, eventRecord_restored]

/-! ### Entries to states -/

theorem enterOnHook_alarm (s : State) (n : LineNo) : ((enterOnHook s n).line n).alarm = (.onHook, hungFault s n) := by
  unfold enterOnHook
  extract_lets was eco s1 s2
  have h1 : s1.line n = (s.line n).hungUp (restRate s n) := State.line_modLine_same _ _ _
  have hevent := eventRecord_congr (s := s) (t := s1) (n := n) (modLine_engine s n _) (by rw [h1]; rfl) .leak
  have h2 : (s2.line n).alarm = (.onHook, hungFault s n) := by
    subst s2
    rw [hungFault, ← hevent, h1]
    show LineRec.alarm (State.line (if (s.line n).accepted = .leak then _ else _) n) = _
    split
    · rw [faultEvent_alarm, h1]
      rfl
    · rw [h1]
      rfl
  exact (alarm_of_noRcv (leaveCall_noRcv s2 n was n)).trans h2

theorem enterLockout_alarm (s : State) (n : LineNo) :
    ((enterLockout s n).line n).alarm = (.lockout, (s.line n).fault) := by
  unfold enterLockout
  extract_lets was s1
  have h1 : (s1.line n).alarm = (.lockout, (s.line n).fault) := by
    rw [State.line_modLine_same]
    rfl
  exact (alarm_of_noRcv (leaveCall_noRcv s1 n was n)).trans h1

theorem enterFault_alarm (s : State) (n : LineNo) (k : Cls) :
    ((enterFault s n k).line n).alarm = (.fault, eventRecord s n k (s.line n).fault) := by
  unfold enterFault
  extract_lets was s1 s2 s3
  have h2 : s2.line n = { clearCounters (s.line n) with sup := .fault, pulseSeen := false, rate := .full, quiet := 0 } := by
    show (setFull s1 n).line n = _
    rw [setFull, State.line_modLine_same, State.line_modLine_same]
  have he : s2.engine = s.engine := (setFull_engine s1 n).trans (modLine_engine s n _)
  have h3 : (s3.line n).alarm = (.fault, eventRecord s n k (s.line n).fault) := by
    rw [faultEvent_alarm, eventRecord_congr he (by rw [h2]; rfl), h2]
    rfl
  exact (alarm_of_noRcv (leaveCall_noRcv s3 n was n)).trans h3

theorem completeDigit_alarm (s : State) (n : LineNo) : ((completeDigit s n).line n).alarm = (s.line n).alarm :=
  (congrArg LineRec.alarm (completeDigit_undialled s n) :)

/-! ### The limits -/

/-- Stage 3 of supervision leaves the fault record, and brings no line ON_HOOK; or it brings a line ON_HOOK by an
entry (R23). -/
inductive LimitAlarm (s t : State) (n : LineNo) : Prop where
  | stays (fault : (t.line n).fault = (s.line n).fault) (sup : (t.line n).sup = .onHook → (s.line n).sup = .onHook)
  | hangsUp (was : (s.line n).sup ≠ .onHook) (alarm : (t.line n).alarm = (.onHook, hungFault s n))

theorem LimitAlarm.of_alarm (h : (t.line n).alarm = (s.line n).alarm) : LimitAlarm s t n := by
  obtain ⟨hs, hf⟩ := Prod.mk.inj h
  exact .stays hf fun e => hs ▸ e

theorem LimitAlarm.of_other {y : Sup} (h : (t.line n).alarm = (y, (s.line n).fault)) (hy : y ≠ .onHook) :
    LimitAlarm s t n := by
  obtain ⟨hs, hf⟩ := Prod.mk.inj h
  exact .stays hf fun e => absurd (hs.symm.trans e) hy

/-- A line after its digit was completed, if one was due, has the alarm that it had. -/
theorem digitIf_state (due : Bool) (s : State) (n : LineNo) :
    let s1 := if due then completeDigit s n else s
    (s1.line n).alarm = (s.line n).alarm ∧ hungFault s1 n = hungFault s n := by
  cases due with
  | false => exact ⟨rfl, rfl⟩
  | true =>
    have hu := line_unsupervised (completeDigit_unsupervised s n) n
    have ha := completeDigit_alarm s n
    refine ⟨ha, ?_⟩
    have hacc : ((completeDigit s n).line n).accepted = (s.line n).accepted := (congrArg LineRec.accepted hu :)
    have hf : ((completeDigit s n).line n).fault = (s.line n).fault := congrArg Prod.snd ha
    show hungFault (completeDigit s n) n = hungFault s n
    rw [hungFault, hacc, hf, eventRecord_congr (completeDigit_engine s n) (values_of_unsupervised hu)]
    rfl

theorem limitsInBreak_alarm (hs : (s.line n).sup = .brk) : LimitAlarm s (limitsInBreak s n) n := by
  obtain ⟨ha, hh⟩ := digitIf_state (longBreakDue s n) s n
  unfold limitsInBreak
  extract_lets s1
  have hf : (s1.line n).fault = (s.line n).fault := congrArg Prod.snd ha
  split
  · refine .hangsUp (by rw [hs]; decide) ?_
    rw [enterOnHook_alarm]
    exact congrArg (Prod.mk Sup.onHook) hh
  split
  · refine .of_other ?_ (show Sup.lockout ≠ .onHook by decide)
    rw [enterLockout_alarm, hf]
  · exact .of_alarm ha

theorem dialEndTimesOut_alarm (s : State) (n : LineNo) :
    ((dialEndTimesOut s n).line n).alarm = (.held, (s.line n).fault) := by
  obtain ⟨ha, -⟩ := digitIf_state (decide (0 < (s.line n).pulses)) s n
  simp only [decide_eq_true_eq] at ha
  unfold dialEndTimesOut
  extract_lets s1 s2
  have hf : (s1.line n).fault = (s.line n).fault := congrArg Prod.snd ha
  have h2 : (s2.line n).alarm = (.held, (s.line n).fault) := by
    rw [State.line_modLine_same, ← hf]
    rfl
  split
  · exact (alarm_of_noRcv (policyRelease_noRcv s2 n n)).trans h2
  · exact h2

theorem limitsInDialling_alarm (s : State) (n : LineNo) : LimitAlarm s (limitsInDialling s n) n := by
  obtain ⟨ha, -⟩ := digitIf_state (interdigitDue s n) s n
  unfold limitsInDialling
  extract_lets s1
  have hf : (s1.line n).fault = (s.line n).fault := congrArg Prod.snd ha
  split
  · refine .of_other ?_ (show Sup.held ≠ .onHook by decide)
    rw [dialEndTimesOut_alarm, hf]
  · exact .of_alarm ha

theorem testLimits_alarm (s : State) (n : LineNo) : LimitAlarm s (testLimits s n) n := by
  unfold testLimits
  split
  case h_1 h => exact limitsInBreak_alarm h
  case h_2 => exact limitsInDialling_alarm s n
  case h_3 =>
    split
    · exact .of_other (enterLockout_alarm s n) (by decide)
    · exact .of_alarm rfl
  case h_4 h =>
    split
    · exact .hangsUp (by rw [h]; decide) (enterOnHook_alarm s n)
    · exact .of_alarm rfl
  all_goals exact .of_alarm rfl

/-- The fault record after stage 3: LEAK in an entry to ON_HOOK is an event, and nothing else touches it (R27). -/
theorem testLimits_fault (s : State) (n : LineNo) :
    ((testLimits s n).line n).fault
      = if (s.line n).accepted = .leak ∧ (s.line n).sup ≠ .onHook ∧ ((testLimits s n).line n).sup = .onHook
        then eventRecord s n .leak (s.line n).fault else (s.line n).fault := by
  rcases testLimits_alarm s n with ⟨hf, hs⟩ | ⟨hw, ha⟩
  · rw [hf, if_neg fun h => h.2.1 (hs h.2.2)]
  · obtain ⟨hs, hf⟩ := Prod.mk.inj ha
    rw [hf, hs, hungFault]
    simp only [hw, ne_eq, not_false_eq_true, and_true]

/-! ### Acceptances -/

theorem startBreak_alarm (s : State) (n : LineNo) (from_ : Ret) (a : Nat) :
    ((startBreak s n from_ a).line n).alarm = (.brk, (s.line n).fault) := by
  rw [startBreak, State.line_modLine_same]
  rfl

theorem seize_fault (s : State) (n : LineNo) (a : Nat) : ((seize s n a).line n).fault = (s.line n).fault := by
  unfold seize
  extract_lets s1 s2
  have h2 : (s2.line n).fault = (s.line n).fault := by
    show ((setFull s1 n).line n).fault = _
    rw [setFull, State.line_modLine_same, State.line_modLine_same]
  split
  · exact (congrArg Prod.snd (alarm_of_noRcv (join_noRcv s2 n n))).trans h2
  · exact h2

theorem pushEntry_fault (r : LineRec) (sym : Symbol) (src : Source) (p : Nat) (time : Word) :
    (pushEntry r sym src p time).fault = r.fault := by
  unfold pushEntry
  split <;> rfl

theorem queueEntry_fault (s : State) (n : LineNo) (sym : Symbol) (src : Source) (p : Nat) :
    ((queueEntry s n sym src p).line n).fault = (s.line n).fault := by
  rw [queueEntry, State.line_modLine_same, pushEntry_fault]

theorem flash_fault (s : State) (n : LineNo) : ((flash s n).line n).fault = (s.line n).fault := by
  unfold flash
  extract_lets s1 s2
  have h2 : (s2.line n).fault = (s.line n).fault := by
    rw [State.line_modLine_same]
    exact queueEntry_fault s n _ _ _
  split
  · exact (congrArg Prod.snd (alarm_of_noRcv (join_noRcv s2 n n))).trans h2
  · exact h2

theorem endBreak_fault (s : State) (n : LineNo) : ((endBreak s n).line n).fault = (s.line n).fault := by
  rw [endBreak, State.line_modLine_same]

/-- No make that is judged touches the fault record (R35). -/
theorem judgeMake_fault (s : State) (n : LineNo) (m : Nat) :
    ((judgeMake s n m).line n).fault = (s.line n).fault := by
  unfold judgeMake
  extract_lets p d s1 s2
  have h1 : (s1.line n).fault = (s.line n).fault := by rw [State.line_modLine_same]
  have h2 : (s2.line n).fault = (s.line n).fault := by
    subst s2
    split
    · exact (congrArg Prod.snd (completeDigit_alarm s1 n)).trans h1
    · exact h1
  split
  · rw [endBreak_fault, h2]
  split
  · rw [State.line_modLine_same, h2]
  split
  · rw [flash_fault, h2]
  · rw [endBreak_fault, queueEntry_fault, h2]

/-- A line is supervised: it is neither without a state, nor UNSENSED, nor SUSPENDED. -/
def supervised (y : Sup) : Prop := y ≠ .none ∧ y ≠ .unsensed ∧ y ≠ .suspended

theorem acceptInCall_major (s : State) (n : LineNo) (from_ : Ret) {c : Cls} (a : Nat) (hc : isFaultCls c = true) :
    acceptInCall s n from_ c a = enterFault s n c := by
  unfold acceptInCall
  cases c
  case short => rfl
  case ground => rfl
  case foreign => rfl
  all_goals cases hc

/-- A major class takes every supervised line to FAULT (R29, R43). -/
theorem transition_major {c : Cls} (a : Nat) (hs : supervised (s.line n).sup) (hc : isFaultCls c = true) :
    transition s n c a = enterFault s n c := by
  obtain ⟨h0, h1, h2⟩ := hs
  have hno : isOpenCls c = false ∧ c ≠ .closed ∧ c ≠ .leak := by cases c <;> simp_all [isFaultCls, isOpenCls]
  obtain ⟨hopen, hclosed, hleak⟩ := hno
  unfold transition
  split
  case h_1 => simp only [hopen, hclosed, hc, Bool.false_eq_true, if_false, if_true]
  case h_2 => simp only [hclosed, hleak, hc, if_false, if_true]
  case h_3 => exact acceptInCall_major s n _ a hc
  case h_4 => exact acceptInCall_major s n _ a hc
  case h_5 => exact acceptInCall_major s n _ a hc
  case h_6 => simp only [hclosed, hc, if_false, if_true]
  case h_7 => simp only [hclosed, hc, if_false, if_true]
  case h_8 => simp only [hc, if_true]
  case h_9 h => exact absurd h h0
  case h_10 h => exact absurd h h1
  case h_11 h => exact absurd h h2

theorem takeAcceptance_major {old c : Cls} (a : Nat) (hs : supervised (s.line n).sup) (hc : isFaultCls c = true) :
    ((takeAcceptance s n old c a).line n).alarm = (.fault, eventRecord s n c (s.line n).fault) := by
  have hno : c ≠ .opn ∧ isOpenCls c = false := by cases c <;> simp_all [isFaultCls, isOpenCls]
  obtain ⟨hopn, hopen⟩ := hno
  unfold takeAcceptance
  dsimp only
  rw [if_neg hopn, if_neg (by simp [hopen]), transition_major a hs hc, enterFault_alarm]

theorem lockoutOpen_alarm (s : State) (n : LineNo) (old c : Cls) (a : Nat) :
    ((lockoutOpen s n old c a).line n).alarm = (s.line n).alarm := by
  unfold lockoutOpen
  split
  · rw [State.line_modLine_same]
    rfl
  · rfl

/-- The fault record of a line that leaves FAULT is restored (R44). -/
def leftFault (r : LineRec) : Option FaultRec := if r.sup = .fault then restored r.fault else r.fault

/-- An acceptance of OPEN, outside LOCKOUT, restores the record of a line in FAULT, and is no event (R27, R44). -/
theorem transition_opn (a : Nat) (hacc : (s.line n).accepted = .opn) :
    ((transition s n .opn a).line n).fault = leftFault (s.line n) := by
  have hleak : (s.line n).accepted ≠ .leak := by rw [hacc]; decide
  have hung : hungFault s n = (s.line n).fault := if_neg hleak
  have hungRestored : hungFault (restoreFault s n) n = restored (s.line n).fault :=
    (hungFault_restoreFault s n).trans (if_neg hleak)
  unfold leftFault
  cases hs : (s.line n).sup <;> simp only [transition, hs, isOpenCls, isFaultCls, acceptInCall, if_true, if_false,
    reduceCtorEq, Bool.false_eq_true]
  case settling => exact (congrArg Prod.snd (enterOnHook_alarm s n)).trans hung
  case seized => exact congrArg Prod.snd (startBreak_alarm s n _ a)
  case dialling => exact congrArg Prod.snd (startBreak_alarm s n _ a)
  case held => exact congrArg Prod.snd (startBreak_alarm s n _ a)
  case fault => exact (congrArg Prod.snd (enterOnHook_alarm _ n)).trans hungRestored

/-- The fault record that an acceptance of OPEN restores as a minor one (R92). -/
def minorRestored (f : Option FaultRec) : Option FaultRec :=
  f.map fun f => if f.latest = .leak then { f with active := false } else f

/-- An acceptance of OPEN restores a minor record, and any record of a line in FAULT (R44, R92). -/
theorem takeAcceptance_opn (old : Cls) (a : Nat) (hacc : (s.line n).accepted = .opn) :
    ((takeAcceptance s n old .opn a).line n).fault
      = leftFault { s.line n with fault := minorRestored (s.line n).fault } := by
  have hline : (restoreMinor s n).line n = { s.line n with fault := minorRestored (s.line n).fault } :=
    State.line_modLine_same _ _ _
  unfold takeAcceptance
  rw [if_pos rfl]
  dsimp only
  rw [hline]
  split
  · next h =>
    have hsup : (s.line n).sup = .lockout := h.1
    refine (congrArg Prod.snd (lockoutOpen_alarm (restoreMinor s n) n old .opn a)).trans ?_
    rw [hline, leftFault, if_neg (by rw [hsup]; decide)]
    rfl
  · rw [transition_opn a (by rw [hline]; exact hacc), hline]

/-- An acceptance of CLOSED restores the record of a line in FAULT, and is no event (R44). -/
theorem takeAcceptance_closed (old : Cls) (a : Nat) :
    ((takeAcceptance s n old .closed a).line n).fault = leftFault (s.line n) := by
  unfold takeAcceptance leftFault
  cases hs : (s.line n).sup <;> simp only [transition, hs, isOpenCls, isFaultCls, acceptInCall, if_true, if_false,
    reduceCtorEq, Bool.false_eq_true, and_false]
  case settling => rw [State.line_modLine_same]
  case onHook => exact seize_fault s n a
  case brk => exact judgeMake_fault s n a
  case lockout => rw [State.line_modLine_same]
  case fault =>
    exact (congrArg Prod.snd (enterLockout_alarm (restoreFault s n) n)).trans
      (congrArg Prod.snd (restoreFault_alarm s n))

/-- An acceptance of LEAK in ON_HOOK, or one that takes a line there, is an event; another leaves the record, and comes
to no line in FAULT (R27, R44, R90). -/
inductive LeakAlarm (s t : State) (n : LineNo) : Prop where
  | event (alarm : (t.line n).alarm = (.onHook, eventRecord s n .leak (s.line n).fault))
  | stays (fault : (t.line n).fault = (s.line n).fault) (sup : (t.line n).sup ≠ .onHook)
      (was : (s.line n).sup ≠ .fault)

theorem LeakAlarm.of_other {y : Sup} (h : (t.line n).alarm = (y, (s.line n).fault)) (hy : y ≠ .onHook)
    (hw : (s.line n).sup ≠ .fault) : LeakAlarm s t n := by
  obtain ⟨hs, hf⟩ := Prod.mk.inj h
  exact .stays hf (hs ▸ hy) hw

theorem takeAcceptance_leak (old : Cls) (a : Nat) (hacc : (s.line n).accepted = .leak) :
    LeakAlarm s (takeAcceptance s n old .leak a) n := by
  have hsame : ∀ y, (s.line n).sup = y → (s.line n).alarm = (y, (s.line n).fault) := fun y h => by
    rw [LineRec.alarm, h]
  unfold takeAcceptance
  cases hs : (s.line n).sup <;> simp only [transition, hs, isOpenCls, isFaultCls, acceptInCall, if_true, if_false,
    reduceCtorEq, Bool.false_eq_true, true_and, false_and]
  case none => exact .of_other (hsame _ hs) (by decide) (by rw [hs]; decide)
  case settling => exact .event ((enterOnHook_alarm s n).trans (congrArg (Prod.mk _) (if_pos hacc)))
  case onHook => exact .event ((faultEvent_alarm s n .leak).trans (by rw [hs]))
  case seized => exact .of_other (startBreak_alarm s n _ a) (by decide) (by rw [hs]; decide)
  case dialling => exact .of_other (startBreak_alarm s n _ a) (by decide) (by rw [hs]; decide)
  case held => exact .of_other (startBreak_alarm s n _ a) (by decide) (by rw [hs]; decide)
  case brk => exact .of_other (hsame _ hs) (by decide) (by rw [hs]; decide)
  case lockout =>
    exact .of_other ((lockoutOpen_alarm s n old .leak a).trans (hsame _ hs)) (by decide) (by rw [hs]; decide)
  case fault =>
    refine .event ((enterOnHook_alarm _ n).trans (congrArg (Prod.mk _) ?_))
    exact (hungFault_restoreFault s n).trans (if_pos hacc)
  case unsensed => exact .of_other (hsame _ hs) (by decide) (by rw [hs]; decide)
  case suspended => exact .of_other (hsame _ hs) (by decide) (by rw [hs]; decide)

end Sys2Proof.Machine
end

section
/-! O29: the fault record at an ACCEPTED scan, through measurement, acceptance and limits. -/

namespace Sys2Proof.Machine

variable {s t : State} {n : LineNo}

/-! ### Stages 1 and 2 -/

theorem advanceCounters_alarm (acc : Cls) (r : LineRec) : (advanceCounters acc r).alarm = r.alarm := by
  unfold advanceCounters
  dsimp only
  split
  case h_5 => split <;> rfl
  all_goals rfl

theorem acceptedNow_unsupervised {a b : LineRec} (p : Conv) (h : a.unsupervised = b.unsupervised) :
    acceptedNow p a = acceptedNow p b :=
  (congrArg (acceptedNow p) h :)

/-- The state in which supervision takes an acceptance: the counters have run, and a trace is over (R23, R152). -/
def acceptState (s : State) (n : LineNo) (c : Cls) : State :=
  let u := (s.modLine n (advanceCounters (s.line n).accepted)).modLine n (acceptClass c)
  if isLoopCls c then abortTraceOn u n .loopDetected else u

/-- What an acceptance finds of its line: the alarm and the values as they were, and the class accepted. -/
theorem acceptState_line (s : State) (n : LineNo) (c : Cls) :
    ((acceptState s n c).line n).alarm = (s.line n).alarm
    ∧ ((acceptState s n c).line n).values = (s.line n).values
    ∧ ((acceptState s n c).line n).accepted = c := by
  have hnoRcv : ((acceptState s n c).line n).noRcv
      = (acceptClass c (advanceCounters (s.line n).accepted (s.line n))).noRcv := by
    unfold acceptState
    dsimp only
    split
    · rw [abortTraceOn_noRcv, State.line_modLine_same, State.line_modLine_same]
    · rw [State.line_modLine_same, State.line_modLine_same]
  have hvalues := values_of_unsupervised (advanceCounters_unsupervised (s.line n).accepted (s.line n))
  exact ⟨(alarm_of_noRcv hnoRcv).trans (advanceCounters_alarm _ _),
    (congrArg LineRec.values hnoRcv :).trans hvalues, (congrArg LineRec.accepted hnoRcv :)⟩

theorem acceptState_engine (s : State) (n : LineNo) (c : Cls) : (acceptState s n c).engine = s.engine := by
  unfold acceptState
  dsimp only
  split
  · rw [abortTraceOn_engine, modLine_engine, modLine_engine]
  · rw [modLine_engine, modLine_engine]

theorem eventRecord_acceptState (s : State) (n : LineNo) (c k : Cls) (f : Option FaultRec) :
    eventRecord (acceptState s n c) n k f = eventRecord s n k f :=
  eventRecord_congr (acceptState_engine s n c) (acceptState_line s n c).2.1 k f

/-- The counters, which run first, decide no acceptance. -/
theorem acceptedNow_advanced (s : State) (n : LineNo) :
    let u := s.modLine n (advanceCounters (s.line n).accepted)
    acceptedNow (u.conv n) (u.line n) = acceptedNow (s.conv n) (s.line n) := by
  have hadv := advanceCounters_unsupervised (s.line n).accepted (s.line n)
  dsimp only
  have hline := State.line_modLine_same s n (advanceCounters (s.line n).accepted)
  rw [conv_congr (modLine_engine s n _) (hline ▸ (congrArg LineRec.profile hadv :)), hline]
  exact acceptedNow_unsupervised _ hadv

theorem scanAccept_none (h : acceptedNow (s.conv n) (s.line n) = none) :
    scanAccept s n = s.modLine n (advanceCounters (s.line n).accepted) := by
  unfold scanAccept
  dsimp only
  rw [acceptedNow_advanced, h]

theorem scanAccept_some {c : Cls} (h : acceptedNow (s.conv n) (s.line n) = some c) :
    ∃ a, scanAccept s n = takeAcceptance (acceptState s n c) n (s.line n).accepted c a := by
  unfold scanAccept
  dsimp only
  rw [acceptedNow_advanced, h]
  exact ⟨_, rfl⟩

/-! ### The three stages together -/

/-- Stages 1 and 2 leave the values that the scan has measured. -/
theorem scanAccept_values (s : State) (n : LineNo) : ((scanAccept s n).line n).values = (s.line n).values :=
  (values_of_unsupervised (scanAccept_line s n)).trans
    (congrArg LineRec.values (acceptDue_unclassified (s.conv n) (s.line n)) :)

/-- LEAK is in force on a line that has entered ON_HOOK at this scan, or had an acceptance there (R27). -/
def minorEvent (was now : LineRec) (acc : Option Cls) : Bool :=
  decide (now.sup = .onHook ∧ now.accepted = .leak) && (decide (was.sup ≠ .onHook) || acc.isSome)

/-- The fault record after an acceptance that is no event (R44, R92). -/
def acceptedRecord (r : LineRec) (k : Cls) : Option FaultRec :=
  r.fault.map fun f =>
    { f with active := f.active && !decide (k = .opn ∧ f.latest = .leak) && decide (r.sup ≠ .fault) }

/-- The fault record after the three stages of supervision, which leave the line's record as `now` (R90, R92). -/
def supervisedRecord (s : State) (n : LineNo) (now : LineRec) : Option Cls → Option FaultRec
  | some k =>
    if isFaultCls k then eventRecord s n k (s.line n).fault
    else if minorEvent (s.line n) now (some k) then eventRecord s n .leak (s.line n).fault
    else acceptedRecord (s.line n) k
  | none => if minorEvent (s.line n) now none then eventRecord s n .leak (s.line n).fault else (s.line n).fault

theorem supervisedRecord_congr {a b : LineRec} (hs : a.sup = b.sup) (hc : a.accepted = b.accepted)
    (acc : Option Cls) : supervisedRecord s n a acc = supervisedRecord s n b acc := by
  unfold supervisedRecord minorEvent
  rw [hs, hc]

theorem testLimits_accepted (s : State) (n : LineNo) : ((testLimits s n).line n).accepted = (s.line n).accepted :=
  (congrArg LineRec.accepted (line_unsupervised (testLimits_unsupervised s n) n) :)

/-- No limit is tested ON_HOOK (R23). -/
theorem testLimits_onHook (h : (s.line n).sup = .onHook) : testLimits s n = s := by
  unfold testLimits
  rw [h]

/-- A scan without an acceptance: its one event is an entry to ON_HOOK at the limits, with LEAK accepted. -/
theorem supervision_fault_none (h : acceptedNow (s.conv n) (s.line n) = none) :
    let now := (testLimits (scanAccept s n) n).line n
    now.fault = supervisedRecord s n now none := by
  have hline : (scanAccept s n).line n = advanceCounters (s.line n).accepted (s.line n) := by
    rw [scanAccept_none h, State.line_modLine_same]
  have hunsup := advanceCounters_unsupervised (s.line n).accepted (s.line n)
  obtain ⟨hsup, hfault⟩ := Prod.mk.inj (advanceCounters_alarm (s.line n).accepted (s.line n))
  have hacc : (advanceCounters (s.line n).accepted (s.line n)).accepted = (s.line n).accepted :=
    (congrArg LineRec.accepted hunsup :)
  have hevent : ∀ f, eventRecord (scanAccept s n) n .leak f = eventRecord s n .leak f :=
    eventRecord_congr (scanAccept_engine s n) (scanAccept_values s n) .leak
  have hkeep := testLimits_accepted (scanAccept s n) n
  have hlimits := testLimits_fault (scanAccept s n) n
  rw [hline, hacc] at hkeep
  rw [hevent, hline, hsup, hfault, hacc] at hlimits
  dsimp only
  rw [hlimits, supervisedRecord, minorEvent, hkeep]
  congr 1
  simp only [Bool.and_eq_true, Bool.or_eq_true, decide_eq_true_eq, Option.isSome_none, Bool.false_eq_true, or_false,
    eq_iff_iff]
  tauto

/-- The limits after an acceptance of another class than LEAK leave the fault record. -/
theorem testLimits_fault_of_ne_leak (h : (s.line n).accepted ≠ .leak) :
    ((testLimits s n).line n).fault = (s.line n).fault := by
  rw [testLimits_fault, if_neg fun e => h e.1]

theorem minorEvent_of_ne_leak {was now : LineRec} {acc : Option Cls} (h : now.accepted ≠ .leak) :
    minorEvent was now acc = false := by
  simp [minorEvent, h]

theorem acceptedRecord_alarm {a b : LineRec} (h : a.alarm = b.alarm) (k : Cls) :
    acceptedRecord a k = acceptedRecord b k := by
  obtain ⟨hs, hf⟩ := Prod.mk.inj h
  rw [acceptedRecord, hs, hf]
  rfl

/-- OPEN restores a minor record, and any record that leaves FAULT (R44, R92). -/
theorem leftFault_minorRestored (r : LineRec) :
    leftFault { r with fault := minorRestored r.fault } = acceptedRecord r .opn := by
  unfold leftFault acceptedRecord minorRestored
  cases r.fault with
  | none => split <;> rfl
  | some f =>
    by_cases hl : f.latest = .leak <;> by_cases hs : r.sup = .fault <;> simp [hl, hs, restored]

theorem leftFault_closed (r : LineRec) : leftFault r = acceptedRecord r .closed := by
  unfold leftFault acceptedRecord
  cases r.fault with
  | none => split <;> rfl
  | some f => by_cases hs : r.sup = .fault <;> simp [hs, restored]

theorem acceptedRecord_leak {r : LineRec} (h : r.sup ≠ .fault) : acceptedRecord r .leak = r.fault := by
  cases hr : r.fault <;> simp [acceptedRecord, hr, h]

section
variable {k : Cls} (h : acceptedNow (s.conv n) (s.line n) = some k)
include h

theorem scanAccept_accepted : ((scanAccept s n).line n).accepted = k := by
  have hline := scanAccept_line s n
  rw [acceptDue, h] at hline
  exact (congrArg LineRec.accepted hline :)

/-- A scan that accepts LEAK: an event ON_HOOK, at the acceptance or at the limits (R27, R90). -/
theorem supervision_fault_leak (hk : k = .leak) :
    let now := (testLimits (scanAccept s n) n).line n
    now.fault = supervisedRecord s n now (some k) := by
  obtain ⟨a, hscan⟩ := scanAccept_some h
  obtain ⟨halarm, hvalues, hacc⟩ := acceptState_line s n k
  obtain ⟨hsup, hfault⟩ := Prod.mk.inj halarm
  have htaken := scanAccept_accepted h
  subst hk
  dsimp only
  rw [supervisedRecord, if_neg (by decide)]
  rcases takeAcceptance_leak (s.line n).accepted a hacc with ⟨ha⟩ | ⟨hf, hother, hwas⟩
  · rw [← hscan, eventRecord_acceptState, hfault] at ha
    obtain ⟨hs, hf⟩ := Prod.mk.inj ha
    have hm : minorEvent (s.line n) ((scanAccept s n).line n) (some .leak) = true := by
      simp [minorEvent, hs, htaken]
    rw [testLimits_onHook hs, hf, if_pos hm]
  · rw [← hscan] at hf hother
    have hevent := eventRecord_congr (scanAccept_engine s n) (scanAccept_values s n) .leak (s.line n).fault
    have hkeep := (testLimits_accepted (scanAccept s n) n).trans htaken
    rw [testLimits_fault, hf, hfault, hevent, acceptedRecord_leak (hsup ▸ hwas), minorEvent, hkeep]
    simp [htaken, hother]

/-- A scan that accepts another class: a major one is an event, OPEN and CLOSED restore (R43, R44, R90, R92). -/
theorem supervision_fault_other (hs : supervised (s.line n).sup) (hno : k ≠ .none) (hleak : k ≠ .leak) :
    let now := (testLimits (scanAccept s n) n).line n
    now.fault = supervisedRecord s n now (some k) := by
  obtain ⟨a, hscan⟩ := scanAccept_some h
  obtain ⟨halarm, -, hacc⟩ := acceptState_line s n k
  obtain ⟨hsup, hfault⟩ := Prod.mk.inj halarm
  have htaken := scanAccept_accepted h
  have hkeep := (testLimits_accepted (scanAccept s n) n).trans htaken
  dsimp only
  rw [testLimits_fault_of_ne_leak (htaken ▸ hleak), supervisedRecord, minorEvent_of_ne_leak (hkeep ▸ hleak), hscan]
  by_cases hmajor : isFaultCls k = true
  · have ha := takeAcceptance_major (s := acceptState s n k) (old := (s.line n).accepted) a (hsup ▸ hs) hmajor
    rw [if_pos hmajor, ← hfault, ← eventRecord_acceptState]
    exact congrArg Prod.snd ha
  rw [if_neg hmajor, if_neg (by decide), ← acceptedRecord_alarm halarm]
  cases k
  case opn => exact (takeAcceptance_opn _ a hacc).trans (leftFault_minorRestored _)
  case closed => exact (takeAcceptance_closed _ a).trans (leftFault_closed _)
  case leak => exact absurd rfl hleak
  case none => exact absurd rfl hno
  all_goals exact absurd rfl hmajor

end

/-- The fault record after stages 1 to 3 of supervision (R27, R43, R44, R90, R92). -/
theorem supervision_fault (hs : supervised (s.line n).sup)
    (hno : acceptedNow (s.conv n) (s.line n) ≠ some .none) :
    let now := (testLimits (scanAccept s n) n).line n
    now.fault = supervisedRecord s n now (acceptedNow (s.conv n) (s.line n)) := by
  cases h : acceptedNow (s.conv n) (s.line n) with
  | none => exact supervision_fault_none h
  | some k =>
    by_cases hleak : k = .leak
    · exact supervision_fault_leak h hleak
    · exact supervision_fault_other h hs (fun e => hno (e ▸ h)) hleak

/-! ### The measurement -/

/-- The fault record after a classified scan: an ACTIVE one's peak is raised by the measure of its kind (R91). -/
def peakRaised (thr : Thresholds) (r : LineRec) (f : FaultRec) : FaultRec :=
  { f with peak := if f.active then raisePeak f.latest (measure thr f.latest r) f.peak else f.peak }

theorem peakRaised_congr {a b : LineRec} (h : a.values = b.values) (thr : Thresholds) :
    peakRaised thr a = peakRaised thr b := by
  funext f
  rw [peakRaised, measure_congr h]
  rfl

theorem setFull_alarm (s : State) (n : LineNo) : ((setFull s n).line n).alarm = (s.line n).alarm := by
  rw [setFull, State.line_modLine_same]
  rfl

theorem quietScan_alarm (s : State) (n : LineNo) (raw : Cls) :
    ((quietScan s n raw).line n).alarm = (s.line n).alarm := by
  unfold quietScan
  split
  · exact setFull_alarm s n
  split
  · rw [State.line_modLine_same]
    rfl
  · rfl

theorem updatePeak_alarm (s : State) (n : LineNo) :
    ((updatePeak s n).line n).alarm
      = ((s.line n).sup, (s.line n).fault.map (peakRaised (s.conv n).thr (s.line n))) := by
  rw [updatePeak, State.line_modLine_same]
  refine congrArg (fun g => ((s.line n).sup, (s.line n).fault.map g)) (funext fun f => ?_)
  unfold peakRaised
  split <;> rfl

theorem updateCandidate_alarm (raw : Cls) (r : LineRec) : (updateCandidate raw r).alarm = r.alarm :=
  (congrArg LineRec.alarm (updateCandidate_unclassified raw r) :)

/-- A scan's measurement raises the peak of an ACTIVE record, and touches no more of the alarm (R91, log 18). -/
theorem scanMeasure_alarm (s : State) (n : LineNo) (x : Sample) :
    ((scanMeasure s n x).line n).alarm
      = ((s.line n).sup,
         (s.line n).fault.map (peakRaised (s.conv n).thr ((scanMeasure s n x).line n))) := by
  unfold scanMeasure
  extract_lets p s1 raw s2 s3
  have hline : s2.line n = updateCandidate raw (filterStep p.shift s.time x (s.line n)) := by
    simp only [s2, s1, State.line_modLine_same]
  have hconv : s2.conv n = s.conv n :=
    conv_congr (t := s2) (s := s) rfl
      (hline ▸ (congrArg LineRec.profile (updateCandidate_unclassified raw (filterStep p.shift s.time x (s.line n))) :))
  obtain ⟨hsup, hfault⟩ := Prod.mk.inj (updateCandidate_alarm raw (filterStep p.shift s.time x (s.line n)))
  have hvalues : ((quietScan s3 n raw).line n).values = (s2.line n).values :=
    values_of_unsupervised
      (line_unsupervised ((quietScan_unsupervised s3 n raw).trans (updatePeak_unsupervised s2 n)) n)
  rw [quietScan_alarm, updatePeak_alarm, hconv, peakRaised_congr hvalues, hline, hsup, hfault]
  rfl

theorem rawClass_ne_none (thr : Thresholds) (r : LineRec) : rawClass thr r ≠ .none := by
  unfold rawClass
  dsimp only
  repeat' split
  all_goals exact fun h => nomatch h

/-- Class NONE, which no scan reads, is never accepted (R13). -/
theorem scanMeasure_accepts (s : State) (n : LineNo) (x : Sample) (p : Conv) :
    acceptedNow p ((scanMeasure s n x).line n) ≠ some .none := by
  rw [acceptedNow_unsupervised p (scanMeasure_line s n x)]
  dsimp only
  generalize hr : rawClass (s.conv n).thr (filterStep (s.conv n).shift s.time x (s.line n)) = raw
  have hraw : raw ≠ .none := hr ▸ rawClass_ne_none _ _
  by_cases he : raw = (filterStep (s.conv n).shift s.time x (s.line n)).accepted
  · rw [updateCandidate_same he]
    exact fun h => nomatch h
  · rw [updateCandidate_new he]
    simp [acceptedNow, hraw]

/-! ### The step -/

theorem raisePeak_eq (k : Cls) (new old : Int) :
    raisePeak k new old = if k = .short then min old new else max old new := by
  unfold raisePeak worse
  by_cases hk : k = .short
  · simp only [hk, if_true, decide_eq_true_eq]
    omega
  · simp only [hk, if_false, decide_eq_true_eq]
    omega

/-- The record of a scanned line after its step is the one that supervision leaves, but for its survey. -/
theorem scanStep_line {l : LinkNo} {p : PairNo} {x : Sample} (hv : (s.line (lineAt l p)).service = .active)
    (hx : x.surge = false) (hh : surgeInForce s l = false) (ht : x.testRange = false) :
    let y := (markChanges s (advanceLink (takeSample (replyTaken s l) (lineAt l p) x) l)).line (lineAt l p)
    let now := (testLimits (scanFront (atReply s l x) (lineAt l p) x) (lineAt l p)).line (lineAt l p)
    y.alarm = now.alarm ∧ y.accepted = now.accepted ∧ y.values = now.values := by
  have hreply : atReply s l x = replyTaken s l := by simp [atReply, surgeStep, hx]
  intro y now
  have hmark : y.noRcv = ((surveyScan (testLimits (scanFront (replyTaken s l) (lineAt l p) x) (lineAt l p)) (lineAt l p)
      (.accepted x)).line (lineAt l p)).noRcv := by
    rw [markChanges_line_noRcv, advanceLink_line, takeSample_accepted hv hx hh ht, activeScan]
  have hsurvey := surveyScan_line (testLimits (scanFront (replyTaken s l) (lineAt l p) x) (lineAt l p)) (lineAt l p)
    (.accepted x)
  rw [← hreply] at hmark hsurvey
  clear_value y
  generalize (surveyScan _ _ _).line _ = z at hmark hsurvey
  subst now
  rw [← hsurvey]
  exact ⟨(congrArg LineRec.alarm hmark :), (congrArg LineRec.accepted hmark :), (congrArg LineRec.values hmark :)⟩

theorem scanMeasure_profile (s : State) (n : LineNo) (x : Sample) :
    ((scanMeasure s n x).line n).profile = (s.line n).profile :=
  (congrArg LineRec.profile (scanMeasure_line s n x) :).trans
    (congrArg LineRec.profile (updateCandidate_unclassified _ (filterStep (s.conv n).shift s.time x (s.line n))) :)

theorem testLimits_values (s : State) (n : LineNo) : ((testLimits s n).line n).values = (s.line n).values :=
  values_of_unsupervised (line_unsupervised (testLimits_unsupervised s n) n)

/-- The measurement at a reply: the profile and the engine's records stay, and an ACTIVE record's peak is raised. -/
theorem scanMeasure_atReply (l : LinkNo) (x : Sample) (s : State) (n : LineNo) :
    let v := scanMeasure (atReply s l x) n x
    v.engine = s.engine ∧ v.conv n = s.conv n
    ∧ (v.line n).alarm = ((s.line n).sup, (s.line n).fault.map (peakRaised (s.conv n).thr (v.line n))) := by
  have hline : (atReply s l x).line n = s.line n := atReply_line s l x n
  have hengine := (scanMeasure_engine (atReply s l x) n x).trans (atReply_engine s l x)
  have halarm := scanMeasure_alarm (atReply s l x) n x
  rw [conv_congr (atReply_engine s l x) (congrArg LineRec.profile hline), hline] at halarm
  exact ⟨hengine, conv_congr hengine ((scanMeasure_profile _ n x).trans (congrArg LineRec.profile hline)), halarm⟩

/-- What an ACCEPTED scan's step leaves of its line: the values measured, and the record that supervision gives. -/
theorem scanStep_record {l : LinkNo} {p : PairNo} {x : Sample} (hv : (s.line (lineAt l p)).service = .active)
    (hs : supervised (s.line (lineAt l p)).sup) (hx : x.surge = false) (hh : surgeInForce s l = false)
    (ht : x.testRange = false) :
    let n := lineAt l p
    let y := (markChanges s (advanceLink (takeSample (replyTaken s l) n x) l)).line n
    let v := scanMeasure (atReply s l x) n x
    y.values = (v.line n).values
    ∧ y.fault = supervisedRecord v n y (acceptedNow (s.conv n) (v.line n)) := by
  intro n y v
  obtain ⟨halarm, haccepted, hvalues⟩ := scanStep_line hv hx hh ht
  obtain ⟨hsup, hfault⟩ := Prod.mk.inj halarm
  obtain ⟨-, hconv, hmeasured⟩ := scanMeasure_atReply l x s n
  have hsame : (v.line n).sup = (s.line n).sup := congrArg Prod.fst hmeasured
  have hs' : supervised (v.line n).sup := hsame ▸ hs
  have hrecord := supervision_fault hs' (scanMeasure_accepts (atReply s l x) n x _)
  rw [hconv] at hrecord
  refine ⟨hvalues.trans ((testLimits_values _ n).trans (scanAccept_values v n)), ?_⟩
  rw [supervisedRecord_congr hsup haccepted]
  exact hfault.trans hrecord

/-- Settles O29: measurement raises the peak; then each acceptance and each entry is an event or a restoration. -/
theorem faultRecordsFollowTheScans : Obligations.FaultRecordsFollowTheScans := by
  intro l p x s n r thr front acc major hex hv hnone hunsensed hsuspended hx hh ht
  refine ⟨_, exec_sampleReply x hex, ?_, fun m hm => ?_, scanStep_engine s l p x⟩
  · obtain ⟨hvalues, hrecord⟩ := scanStep_record hv ⟨hnone, hunsensed, hsuspended⟩ hx hh ht
    obtain ⟨hengine, hconv, hmeasured⟩ := scanMeasure_atReply l x s n
    generalize (markChanges s (advanceLink (takeSample (replyTaken s l) (lineAt l p) x) l)).line (lineAt l p) = y
      at hvalues hrecord ⊢
    intro vt vr of_ worst peak event minor
    have hsup : front.sup = r.sup := congrArg Prod.fst hmeasured
    have hfault : front.fault = r.fault.map (peakRaised thr front) := congrArg Prod.snd hmeasured
    have hof : of_ = fun k => measure thr k front := by
      funext k
      rw [← measure_congr hvalues]
      cases k <;> rfl
    have hworst : worst = fun k => raisePeak k (measure thr k front) := by
      funext k old
      simp only [worst, hof, raisePeak_eq]
    have hpeak : peakRaised thr front = fun f => { f with peak := peak f } := by
      funext f
      simp only [peak, hworst, peakRaised]
    have hevent : event = fun k => eventRecord (scanMeasure (atReply s l x) n x) n k front.fault := by
      have htime : (scanMeasure (atReply s l x) n x).time = s.time := congrArg Engine.time hengine
      funext k
      simp only [event, eventRecord, recordFault, hfault, hof, hworst, htime, hconv, peak]
      cases r.fault with
      | none => rfl
      | some f => rfl
    have hminor : minor = minorEvent front y acc := by simp only [minor, minorEvent, hsup]
    have hmajor : major = isFaultCls := funext isFaultCls_eq
    have hkept : ∀ k, acceptedRecord front k = r.fault.map fun f =>
        { f with peak := peak f,
                 active := f.active && !decide (k = .opn ∧ f.latest = .leak) && decide (r.sup ≠ .fault) } := by
      intro k
      rw [acceptedRecord, hfault, hsup, hpeak, Option.map_map]
      rfl
    rw [hpeak] at hfault
    have hfront : (scanMeasure (atReply s l x) n x).line n = front := rfl
    change y.fault = supervisedRecord (scanMeasure (atReply s l x) n x) n y acc at hrecord
    rw [hrecord]
    clear_value acc event minor major
    subst hmajor hevent hminor
    cases acc with
    | some k => simp only [supervisedRecord, hfront, hkept]
    | none => simp only [supervisedRecord, hfront, hfault]
  · exact (congrArg LineRec.fault (scanStep_others s l p x hm) :)

end Sys2Proof.Machine
end

section
/-! O16: the lines that a CALIBRATE skips and takes. -/

namespace Sys2Proof.Machine

/-! ### Control queues -/

/-- A frame that waits stays in its queue when a frame of another key, or of another link, is placed (R140). -/
theorem placeFrame_keeps {s : State} {l m : LinkNo} {f g : Frame} (hf : f ∈ (s.link m).queue)
    (hk : m = l → keyOf f ≠ keyOf g) : f ∈ ((placeFrame s l g).link m).queue := by
  by_cases hm : m = l
  · subst hm
    by_cases hup : (s.link m).state = .up
    · rw [placeFrame_queue hup]
      exact mem_queuePlace_of_mem hf (hk rfl)
    · rw [placeFrame_notUp hup]
      exact hf
  · rw [placeFrame_link_other s hm]
    exact hf

theorem placeFrame_state (s : State) (l m : LinkNo) (f : Frame) :
    ((placeFrame s l f).link m).state = (s.link m).state :=
  (congrArg LinkRec.state (link_standing (congrArg Prod.snd (placeFrame_unsupervised s l f)) m) :)

/-- A line is its pair of its link. -/
theorem eq_of_linkOf_pairOf {m n : LineNo} (hl : linkOf m = linkOf n) (hp : pairOf m = pairOf n) : m = n := by
  have hl' : m.1 / 16 = n.1 / 16 := congrArg Fin.val hl
  have hp' : m.1 % 16 = n.1 % 16 := congrArg Fin.val hp
  exact Fin.ext (by omega)

/-! ### A line that is taken -/

/-- The context with which a line's calibration begins (R111). -/
def firstCal (k : SlotNo) (o : OrderRead) (period : Period) (r : LineRec) : CalCtx :=
  { slot := k, toActive := decide (r.service = .active), savedRange := r.cal.range, savedCode := r.cal.code,
    settleScans := ceilDiv (param8 o 0) period.ms, d := dwellOf (param8 o 1),
    trialRange := .coarse, trialCode := 64, kept := 0, decision := 1, step := .frameWait true true,
    s1 := none, sum := 0, settleCount := 0, dwellCount := 0 }

/-- The record of a line that a CALIBRATE takes (R111). -/
def LineRec.takenBy (k : SlotNo) (o : OrderRead) (period : Period) (r : LineRec) : LineRec :=
  { clearCounters r with
      sup := .suspended, service := .calibrating, rate := .full, quiet := 0, fault := restored r.fault,
      calCtx := some (firstCal k o period r) }

/-- The frames that a line's calibration begins with (R111). -/
def firstFrames (n : LineNo) : List Frame :=
  [.relay (pairOf n) .zero .calibration, .trim (pairOf n) .coarse 64 .calibration]

/-- A line that is taken has its record written and its two frames placed (R111). -/
theorem takeLine_eq (k : SlotNo) (o : OrderRead) (s : State) (n : LineNo) :
    takeLine k o s n
      = (firstFrames n).foldl (fun t f => placeFrame t (linkOf n) f) (s.modLine n (LineRec.takenBy k o s.period)) := by
  unfold takeLine
  dsimp only
  rw [suspendLine_eq, State.modLine_modLine]
  rfl

theorem takeLine_line (k : SlotNo) (o : OrderRead) (s : State) (n m : LineNo) :
    (takeLine k o s n).line m = if m = n then (s.line n).takenBy k o s.period else s.line m := by
  rw [takeLine_eq, ← State.line_modLine_ite]
  exact (placeFrame_line _ _ _ m).trans (placeFrame_line _ _ _ m)

theorem takeLine_state (k : SlotNo) (o : OrderRead) (s : State) (n : LineNo) (l : LinkNo) :
    ((takeLine k o s n).link l).state = (s.link l).state := by
  rw [takeLine_eq]
  exact (placeFrame_state _ _ l _).trans (placeFrame_state _ _ l _)

theorem takeLine_frame (k : SlotNo) (o : OrderRead) (s : State) (n : LineNo) :
    { takeLine k o s n with lines := s.lines, links := s.links } = s := by
  have hplace : ∀ (t : State) (f : Frame), { placeFrame t (linkOf n) f with lines := s.lines, links := s.links }
      = { t with lines := s.lines, links := s.links } := fun t f =>
    (congrArg (fun u : State => { u with lines := s.lines, links := s.links }) (placeFrame_frame t (linkOf n) f) :)
  rw [takeLine_eq]
  exact (hplace _ _).trans (hplace _ _)

/-- Both frames of a line of an UP link wait in the link's queue once it is taken. -/
theorem takeLine_queues {s : State} {n : LineNo} (hup : (s.link (linkOf n)).state = .up) (k : SlotNo)
    (o : OrderRead) : ∀ f ∈ firstFrames n, f ∈ ((takeLine k o s n).link (linkOf n)).queue := by
  have hup' : linkUp (s.modLine n (LineRec.takenBy k o s.period)) (linkOf n) = true := by
    simp [linkUp, hup]
  have hrelay := mem_placeFrame hup' (.relay (pairOf n) .zero .calibration)
  rw [takeLine_eq]
  intro f hf
  rcases List.mem_pair.1 hf with rfl | rfl
  · exact placeFrame_keeps hrelay fun _ => by simp [keyOf]
  · refine mem_placeFrame ?_ _
    rw [linkUp, placeFrame_state]
    exact hup'

/-- The frames of a line stay in their queue when another line is taken: their keys are of another pair. -/
theorem takeLine_keeps {s : State} {m n : LineNo} (hm : m ≠ n) (k : SlotNo) (o : OrderRead) {f : Frame}
    (hf : f ∈ firstFrames m) (hq : f ∈ (s.link (linkOf m)).queue) :
    f ∈ ((takeLine k o s n).link (linkOf m)).queue := by
  have hkey : ∀ g ∈ firstFrames n, linkOf m = linkOf n → keyOf f ≠ keyOf g := by
    intro g hg hl
    have hp : pairOf m ≠ pairOf n := fun hp => hm (eq_of_linkOf_pairOf hl hp)
    rcases List.mem_pair.1 hf with rfl | rfl <;> rcases List.mem_pair.1 hg with rfl | rfl <;> simp [keyOf, hp]
  rw [takeLine_eq]
  exact placeFrame_keeps (placeFrame_keeps hq (hkey _ List.mem_cons_self)) (hkey _ (by simp [firstFrames]))

/-! ### The lines that are taken -/

section TakeLines
variable (k : SlotNo) (o : OrderRead)

theorem takeLines_frame (ns : List LineNo) (s : State) :
    { ns.foldl (takeLine k o) s with lines := s.lines, links := s.links } = s :=
  List.foldlRecOn (motive := fun t : State => { t with lines := s.lines, links := s.links } = s) ns _ rfl
    fun t ht n _ =>
      ((congrArg (fun u : State => { u with lines := s.lines, links := s.links }) (takeLine_frame k o t n) :)).trans ht

theorem takeLines_line {ns : List LineNo} (hns : ns.Nodup) (s : State) (m : LineNo) :
    (ns.foldl (takeLine k o) s).line m = if m ∈ ns then (s.line m).takenBy k o s.period else s.line m := by
  induction ns generalizing s with
  | nil => simp
  | cons n ns ih =>
    obtain ⟨hn, hns⟩ := List.nodup_cons.1 hns
    have hperiod : (takeLine k o s n).period = s.period := (congrArg State.period (takeLine_frame k o s n) :)
    rw [List.foldl_cons, ih hns, hperiod, takeLine_line]
    by_cases hm : m = n
    · subst hm
      simp [hn]
    · simp [hm]

theorem takeLines_keeps {ns : List LineNo} {m : LineNo} (hm : m ∉ ns) {f : Frame} (hf : f ∈ firstFrames m)
    {s : State} (hq : f ∈ (s.link (linkOf m)).queue) :
    f ∈ ((ns.foldl (takeLine k o) s).link (linkOf m)).queue :=
  List.foldlRecOn (motive := fun t : State => f ∈ (t.link (linkOf m)).queue) ns _ hq fun _ ht n hn =>
    takeLine_keeps (fun e : m = n => hm (e ▸ hn)) k o hf ht

/-- The frames of every line taken wait in the queue of its link. -/
theorem takeLines_queues {ns : List LineNo} (hns : ns.Nodup) {s : State} {n : LineNo} (hn : n ∈ ns)
    (hup : (s.link (linkOf n)).state = .up) :
    ∀ f ∈ firstFrames n, f ∈ ((ns.foldl (takeLine k o) s).link (linkOf n)).queue := by
  induction ns generalizing s with
  | nil => cases hn
  | cons a ns ih =>
    obtain ⟨ha, hns⟩ := List.nodup_cons.1 hns
    intro f hf
    rw [List.foldl_cons]
    rcases List.mem_cons.1 hn with rfl | hn
    · exact takeLines_keeps k o ha hf (takeLine_queues hup k o f hf)
    · exact ih hns hn ((takeLine_state k o s a (linkOf n)).trans hup) f hf

end TakeLines

/-! ### The lines that are skipped -/

theorem absent_iff (s : State) (n : LineNo) :
    absent s n = true ↔ (s.link (linkOf n)).pairCount = 8 ∧ 8 ≤ n.1 % 16 := by
  rw [absent, Bool.and_eq_true, decide_eq_true_iff, decide_eq_true_iff, pairOf]

/-- Why a line is skipped: it is absent, OVERRIDE, or busy with its link, its service, a trace or a survey (R110). -/
theorem skipReason_eq (s : State) (n : LineNo) :
    skipReason s n
      = (let r := s.line n
         if (s.link (linkOf n)).pairCount = 8 ∧ 8 ≤ n.1 % 16 then some .badLine
         else if r.cal.status = .override then some .overridden
         else if (s.link (linkOf n)).state = .up
             ∧ (r.service = .parked ∨ (r.service = .active ∧ r.sup = .onHook))
             ∧ tracing s n = false ∧ r.survey.isSome = false then none
         else some .lineBusy) := by
  unfold skipReason
  dsimp only
  refine if_congr (absent_iff s n) rfl (if_congr Iff.rfl rfl ?_)
  rw [← ite_or, ← ite_or, ← ite_not]
  refine if_congr ?_ rfl rfl
  simp only [linkUp, decide_eq_true_eq, ← Bool.not_eq_true]
  tauto

theorem linkUp_of_taken {s : State} {mask : Nat} {n : LineNo} (h : n ∈ takenLines s mask) :
    (s.link (linkOf n)).state = .up := by
  have hskip : skipReason s n = none := of_decide_eq_true (List.mem_filter.mp h).2
  rw [skipReason_eq] at hskip
  dsimp only at hskip
  split at hskip
  · cases hskip
  split at hskip
  · cases hskip
  split at hskip
  · next hfree => exact hfree.1
  · cases hskip

theorem nodup_takenLines (s : State) (mask : Nat) : (takenLines s mask).Nodup :=
  (nodup_allLines.filter _).filter _

/-! ### The order, check by check -/

section Calibrate
variable {s : State} {k : SlotNo} {o : OrderRead}

theorem orderCalibrate_badParam (hrun : s.exch = .running)
    (h : maskLines (maskOf o) = [] ∨ param8 o 0 = 0 ∨ 3 < param8 o 1) :
    orderCalibrate s k o = answered s k .refused .badParam [] := by
  unfold orderCalibrate
  dsimp only
  split
  · exact refuse_empty hrun k _
  · next hmask =>
    rw [if_pos (h.resolve_left (by simp [hmask]))]
    exact refuse_empty hrun k _

/-- Past its checks the order is refused with the reason of the lowest line, or takes its lines (R110). -/
theorem orderCalibrate_checked {first : LineNo} {rest : List LineNo} (hmask : maskLines (maskOf o) = first :: rest)
    (h0 : param8 o 0 ≠ 0) (h1 : param8 o 1 ≤ 3) :
    orderCalibrate s k o
      = if takenLines s (maskOf o) = [] then
          refuse s k ((skipReason s first).getD .lineBusy) (tallyDetail (firstTally s (maskOf o)))
        else (takenLines s (maskOf o)).foldl (takeLine k o)
          (takeFlight s k (.calibrate (firstTally s (maskOf o)))) := by
  unfold orderCalibrate
  dsimp only
  rw [hmask]
  dsimp only
  rw [if_neg (by omega)]
  exact if_congr List.length_eq_zero_iff rfl rfl

/-- With no line taken the order is refused with the reason of the lowest line and the counts of the skips (R110). -/
theorem orderCalibrate_skips (hrun : s.exch = .running) {first : LineNo} {y : Reason}
    (hmask : (maskLines (maskOf o)).head? = some first) (h0 : param8 o 0 ≠ 0) (h1 : param8 o 1 ≤ 3)
    (ht : takenLines s (maskOf o) = []) (hy : skipReason s first = some y) :
    orderCalibrate s k o
      = answered s k .refused y [0, 0, 0, 0, skipped s (maskOf o) .badLine, skipped s (maskOf o) .overridden,
          skipped s (maskOf o) .lineBusy] := by
  obtain ⟨rest, hmask⟩ := List.head?_eq_some_iff.1 hmask
  rw [orderCalibrate_checked hmask h0 h1, if_pos ht, hy, refuse_answered hrun k _ (by simp [tallyDetail])]
  simp only [tallyDetail, firstTally, ht, List.length_nil, Option.getD_some]

theorem orderCalibrate_takes (h0 : param8 o 0 ≠ 0) (h1 : param8 o 1 ≤ 3) (ht : takenLines s (maskOf o) ≠ []) :
    orderCalibrate s k o
      = (takenLines s (maskOf o)).foldl (takeLine k o) (takeFlight s k (.calibrate (firstTally s (maskOf o)))) := by
  obtain ⟨first, rest, hmask⟩ : ∃ first rest, maskLines (maskOf o) = first :: rest :=
    List.exists_cons_of_ne_nil fun hmask => ht (by rw [takenLines, hmask]; rfl)
  rw [orderCalibrate_checked hmask h0 h1, if_neg ht]

end Calibrate

theorem dwellOf_eq {code : Nat} (h : code ≤ 3) : dwellOf code = [4, 8, 16, 32].getD code 0 := by
  interval_cases code <;> rfl

/-- Settles O16: the lines of the mask are judged one by one, and those taken have their contexts and frames. -/
theorem calibratesTakeTheirLines : Obligations.CalibratesTakeTheirLines := by
  intro s k o hrun hk mask why taken count
  have hd : dispatch none s k o = .ok (orderCalibrate s k o) := by
    unfold dispatch
    rw [hk]
    rfl
  have hwhy : why = skipReason s := funext fun n => (skipReason_eq s n).symm
  have htaken : taken = takenLines s (maskOf o) := by
    simp only [taken, hwhy]
    rfl
  have hcount : count = skipped s (maskOf o) := by
    simp only [count, hwhy]
    rfl
  rw [hd, hcount, htaken, hwhy]
  refine ⟨fun h => by rw [orderCalibrate_badParam hrun h],
    fun h0 h1 ht n y hn hy => by rw [orderCalibrate_skips hrun hn h0 h1 ht hy], fun h0 h1 ht => ?_⟩
  obtain ⟨hle, hlt⟩ := ceilDiv_bounds h0 s.period.ms_pos
  have hengine := orderCalibrate_engine s k o
  rw [orderCalibrate_takes h0 h1 ht] at hengine ⊢
  have hframe := takeLines_frame k o (takenLines s (maskOf o)) (takeFlight s k (.calibrate (firstTally s (maskOf o))))
  have hline := takeLines_line k o (nodup_takenLines s (maskOf o))
    (takeFlight s k (.calibrate (firstTally s (maskOf o))))
  refine ⟨_, ceilDiv (param8 o 0) s.period.ms, rfl, hle, hlt, (congrArg State.slots hframe :), fun n hn => ?_,
    fun n hn => ?_, (congrArg State.rcvs hframe :), hengine⟩
  · have hq := takeLines_queues k o (nodup_takenLines s (maskOf o))
      (s := takeFlight s k (.calibrate (firstTally s (maskOf o)))) hn (linkUp_of_taken (s := s) hn)
    refine ⟨?_, hq _ List.mem_cons_self, hq _ (by simp [firstFrames])⟩
    rw [hline, if_pos hn, ← dwellOf_eq h1]
    rfl
  · rw [hline, if_neg hn]
    rfl

end Sys2Proof.Machine
end

section
/-! O36 and O43: the decisions of a calibration, and the replies to its TRIMs and to those of the record. -/

namespace Sys2Proof.Machine

/-! ### Lines and pairs -/

@[simp] theorem pairOf_lineAt (l : LinkNo) (p : PairNo) : pairOf (lineAt l p) = p := by
  apply Fin.ext
  simp only [pairOf, lineAt]
  omega

@[simp] theorem placeTrim_line (s : State) (n : LineNo) (range : TrimRange) (code : TrimCode) (o : TrimOwner)
    (m : LineNo) : (placeTrim s n range code o).line m = s.line m := placeFrame_line s _ _ m

@[simp] theorem placeRelay_line (s : State) (n : LineNo) (cfg : RelayCfg) (o : RelayOwner) (m : LineNo) :
    (placeRelay s n cfg o).line m = s.line m := placeFrame_line s _ _ m

@[simp] theorem restoreTrim_line (s : State) (n m : LineNo) : (restoreTrim s n).line m = s.line m :=
  placeTrim_line s n _ _ _ m

theorem placeRelay_slots (s : State) (n : LineNo) (cfg : RelayCfg) (o : RelayOwner) :
    (placeRelay s n cfg o).slots = s.slots := placeFrame_slots s _ _

theorem restoreTrim_slots (s : State) (n : LineNo) : (restoreTrim s n).slots = s.slots := placeFrame_slots s _ _

theorem markRecord_slots (s : State) (n : LineNo) (c : CalCtx) (st : CalStatus) :
    (markRecord s n c st).slots = s.slots := rfl

theorem toRestoring_slots (s : State) (n : LineNo) : (toRestoring s n).slots = s.slots := rfl

/-- What follows in a step leaves, but for marks, the one line that was updated so, and the others as they were. -/
theorem linkStep_lines (a : State) {s v : State} (l : LinkNo) {n : LineNo} {g : LineRec → LineRec}
    (hv : ∀ m, v.line m = (s.modLine n g).line m) :
    ((markChanges a (advanceLink v l)).line n).bare = (g (s.line n)).bare
      ∧ ∀ m, m ≠ n → ((markChanges a (advanceLink v l)).line m).bare = (s.line m).bare := by
  refine ⟨?_, fun m hm => ?_⟩
  · rw [markChanges_line_bare, advanceLink_line, hv, State.line_modLine_same]
  · rw [markChanges_line_bare, advanceLink_line, hv, State.line_modLine_other s hm]

/-! ### The tally of an order -/

/-- The end of a line for its order rests on the slots and the engine's part alone. -/
theorem lineFinished_slots {s t : State} (hs : t.slots = s.slots) (he : t.engine = s.engine) (k : SlotNo)
    (f : Tally → Tally) (o : OrderOutcome) (r : Reason) :
    (lineFinished t k f o r).slots = (lineFinished s k f o r).slots := by
  have hk : t.slot k = s.slot k := by rw [State.slot, State.slot, hs]
  have hexch : t.exch = s.exch := congrArg Engine.exch he
  unfold lineFinished
  rw [hk]
  split
  · dsimp only
    split
    · simp only [finish, endOrder, State.modSlot, hexch, hs, hk]
      split <;> rfl
    · simp only [State.modSlot, hs, hk]
  · exact hs

theorem lineFinished_frame (s : State) (k : SlotNo) (f : Tally → Tally) (o : OrderOutcome) (r : Reason) :
    { lineFinished s k f o r with slots := s.slots } = s := by
  unfold lineFinished
  split
  · dsimp only
    split
    · unfold finish endOrder
      split <;> rfl
    · rfl
  · rfl

@[simp] theorem lineFinished_line (s : State) (k : SlotNo) (f : Tally → Tally) (o : OrderOutcome) (r : Reason)
    (m : LineNo) : (lineFinished s k f o r).line m = s.line m :=
  (congrArg (fun t : State => t.line m) (lineFinished_frame s k f o r) :)

@[simp] theorem lineFinished_link (s : State) (k : SlotNo) (f : Tally → Tally) (o : OrderOutcome) (r : Reason)
    (l : LinkNo) : (lineFinished s k f o r).link l = s.link l :=
  (congrArg (fun t : State => t.link l) (lineFinished_frame s k f o r) :)

section Tally
variable {s : State} {k : SlotNo} {y : Tally}

/-- While lines of an order are unfinished its tally goes on (R120). -/
theorem lineFinished_counts (hf : (s.slot k).flight = some (.calibrate y)) {f : Tally → Tally} (o : OrderOutcome)
    (r : Reason) (h : (f y).valid + (f y).failed + (f y).interrupted < (f y).taken) :
    (lineFinished s k f o r).slot k = { s.slot k with flight := some (.calibrate (f y)) } := by
  unfold lineFinished
  rw [hf]
  dsimp only
  rw [if_neg (Nat.not_le.2 h), State.slot_modSlot_same]

/-- The last line of an order ends it (R120). -/
theorem lineFinished_ends (hf : (s.slot k).flight = some (.calibrate y)) (he : s.exch = .running ∨ s.exch = .stopping)
    {f : Tally → Tally} (o : OrderOutcome) (r : Reason)
    (h : (f y).taken ≤ (f y).valid + (f y).failed + (f y).interrupted) :
    (lineFinished s k f o r).slot k
      = { s.slot k with
          flight := none,
          due := some { outcome := o, reason := r, detail := detail (tallyDetail (f y)), result := none } } := by
  unfold lineFinished
  rw [hf]
  dsimp only
  rw [if_pos h]
  exact endOrder_slot he k _

end Tally

/-! ### The end of a line -/

/-- A calibrating line's record as its calibration ends with a calibration record: its context waits in RESTORING for
the line's release (R115 to R117). -/
def LineRec.calEnded (cal : CalRec) (r : LineRec) : LineRec :=
  { r with cal := cal, calCtx := r.calCtx.map fun c => { c with step := .restoring } }

/-- The calibration record after a failure of a line (R116). -/
def CalCtx.failure (c : CalCtx) (cause : FailCause) (t : Word) (r : CalRec) : CalRec :=
  { r with status := .failed cause, s1 := c.s1.getD r.s1, time := t }

/-- The calibration record after the commit of a line (R115). -/
def CalCtx.success (c : CalCtx) (t : Word) (r : CalRec) : CalRec :=
  { range := c.trialRange, code := c.trialCode, status := .valid, s1 := c.s1.getD r.s1, time := t }

/-- The calibration record that the reply which ends a line leaves (R115, R116). -/
def CalCtx.outcome (c : CalCtx) (ack : Bool) (t : Word) (r : CalRec) : CalRec :=
  if ack then c.success t r else c.failure .frontEndRefused t r

/-- The tally of an order takes a VALID or a FAILED line (R120). -/
def Tally.counted (ok : Bool) (t : Tally) : Tally :=
  if ok then { t with valid := t.valid + 1 } else { t with failed := t.failed + 1 }

section End
variable (s : State) (n : LineNo) (c : CalCtx)

/-- Where a line's calibration record has taken an outcome, the TRIM with its trim, the saved one, waits on an UP link
once it is queued again (R115, R116). -/
theorem restoreTrim_queues (st : CalStatus) (hup : (s.link (linkOf n)).state = .up) :
    Frame.trim (pairOf n) (s.line n).cal.range (s.line n).cal.code .record
      ∈ ((restoreTrim (markRecord s n c st) n).link (linkOf n)).queue := by
  obtain ⟨hrange, hcode⟩ : (s.line n).cal.range = ((markRecord s n c st).line n).cal.range
      ∧ (s.line n).cal.code = ((markRecord s n c st).line n).cal.code := by
    simp only [markRecord, State.line_modLine_same, and_self]
  have hup' : linkUp (markRecord s n c st) (linkOf n) = true := decide_eq_true hup
  rw [hrange, hcode]
  exact mem_placeFrame hup' _

theorem failLine_eq (cause : FailCause) :
    failLine s n c cause
      = lineFinished
          (toRestoring (placeRelay (restoreTrim (markRecord s n c (.failed cause)) n) n .normal .calibration) n)
          c.slot (Tally.counted false) .done .none := rfl

theorem commitAnswered_ack :
    commitAnswered s n c true
      = lineFinished (toRestoring (s.modLine n fun r => { r with cal := c.success s.time r.cal }) n) c.slot
          (Tally.counted true) .done .none := rfl

theorem commitAnswered_nak :
    commitAnswered s n c false
      = lineFinished (toRestoring (restoreTrim (markRecord s n c (.failed .frontEndRefused)) n) n) c.slot
          (Tally.counted false) .done .none := rfl

theorem failLine_line (cause : FailCause) (m : LineNo) :
    (failLine s n c cause).line m
      = (s.modLine n fun r => r.calEnded (c.failure cause s.time r.cal)).line m := by
  simp only [failLine_eq, lineFinished_line, toRestoring, modCal, markRecord, State.line_modLine_ite, placeRelay_line,
    restoreTrim_line, if_true]
  split <;> rfl

theorem failLine_slots (cause : FailCause) :
    (failLine s n c cause).slots = (lineFinished s c.slot (Tally.counted false) .done .none).slots := by
  rw [failLine_eq]
  apply lineFinished_slots
  · simp only [toRestoring_slots, placeRelay_slots, restoreTrim_slots, markRecord_slots]
  · simp only [toRestoring_engine, placeRelay_engine, restoreTrim_engine, markRecord_engine]

/-- A failed line's TRIM of the saved trim and its RELAY NORMAL wait on an UP link (R116). -/
theorem failLine_queues (cause : FailCause) (hup : (s.link (linkOf n)).state = .up) :
    Frame.trim (pairOf n) (s.line n).cal.range (s.line n).cal.code .record
        ∈ ((failLine s n c cause).link (linkOf n)).queue
      ∧ Frame.relay (pairOf n) .normal .calibration ∈ ((failLine s n c cause).link (linkOf n)).queue := by
  rw [failLine_eq, lineFinished_link, toRestoring, modCal, State.link_modLine]
  refine ⟨placeFrame_keeps (restoreTrim_queues s n c _ hup) fun _ => by simp [keyOf], mem_placeFrame ?_ _⟩
  rw [linkUp, restoreTrim, placeTrim, placeFrame_state]
  exact decide_eq_true hup

theorem commitAnswered_line (ack : Bool) (m : LineNo) :
    (commitAnswered s n c ack).line m
      = (s.modLine n fun r => r.calEnded (c.outcome ack s.time r.cal)).line m := by
  cases ack
  · simp only [commitAnswered_nak, lineFinished_line, toRestoring, modCal, markRecord, State.line_modLine_ite,
      restoreTrim_line, if_true]
    split <;> rfl
  · simp only [commitAnswered_ack, lineFinished_line, toRestoring, modCal, State.line_modLine_ite, if_true]
    split <;> rfl

theorem commitAnswered_slots (ack : Bool) :
    (commitAnswered s n c ack).slots = (lineFinished s c.slot (Tally.counted ack) .done .none).slots := by
  cases ack
  · rw [commitAnswered_nak]
    apply lineFinished_slots
    · simp only [toRestoring_slots, restoreTrim_slots, markRecord_slots]
    · simp only [toRestoring_engine, restoreTrim_engine, markRecord_engine]
  · rw [commitAnswered_ack]
    apply lineFinished_slots
    · rfl
    · simp only [toRestoring_engine, modLine_engine]

/-- After a refused commit the TRIM of the saved trim waits on an UP link (R115). -/
theorem commitAnswered_queues (hup : (s.link (linkOf n)).state = .up) :
    Frame.trim (pairOf n) (s.line n).cal.range (s.line n).cal.code .record
      ∈ ((commitAnswered s n c false).link (linkOf n)).queue := by
  rw [commitAnswered_nak, lineFinished_link]
  exact restoreTrim_queues s n c _ hup

end End

/-! ### O36: the end of a decision -/

/-- A line's record with a calibration context. -/
def LineRec.withCal (c : CalCtx) (r : LineRec) : LineRec := { r with calCtx := some c }

/-- The context as a decision begins (R113, R114). -/
def CalCtx.starting (c : CalCtx) : CalCtx :=
  { c with step := .frameWait false true, sum := 0, settleCount := 0, dwellCount := 0 }

/-- The context of the first decision on a bit, after decision 1 (R113). -/
def CalCtx.ranged (c : CalCtx) : CalCtx :=
  CalCtx.starting
    { c with s1 := some c.sum, trialRange := if c.sum.natAbs ≤ 20 * c.d then .fine else .coarse,
             trialCode := 64, kept := 0, decision := 2 }

/-- The context of the decision on the next bit (R114). -/
def CalCtx.nextBit (c : CalCtx) : CalCtx :=
  CalCtx.starting
    { c with kept := keptCode c, decision := c.decision + 1,
             trialCode := withBit (keptCode c) (7 - c.decision) }

/-- A line's record after the decision of a context at a time (R113, R114). -/
def LineRec.decided (c : CalCtx) (t : Word) (r : LineRec) : LineRec :=
  if c.decision = 1 then
    if 100 * c.d < c.sum.natAbs then
      (r.withCal { c with s1 := some c.sum }).calEnded (CalCtx.failure { c with s1 := some c.sum } .outOfRange t r.cal)
    else r.withCal c.ranged
  else if c.decision < 8 then r.withCal c.nextBit
  else r.withCal { c with kept := keptCode c, trialCode := keptCode c, step := .commit }

section Decided
variable {c : CalCtx} (t : Word)

theorem LineRec.decided_fails (h1 : c.decision = 1) (hS : 100 * c.d < c.sum.natAbs) :
    LineRec.decided c t = fun r => (r.withCal { c with s1 := some c.sum }).calEnded
      (CalCtx.failure { c with s1 := some c.sum } .outOfRange t r.cal) :=
  funext fun r => by rw [LineRec.decided, if_pos h1, if_pos hS]

theorem LineRec.decided_ranged (h1 : c.decision = 1) (hS : ¬100 * c.d < c.sum.natAbs) :
    LineRec.decided c t = LineRec.withCal c.ranged :=
  funext fun r => by rw [LineRec.decided, if_pos h1, if_neg hS]

theorem LineRec.decided_bit (h1 : c.decision ≠ 1) (h8 : c.decision < 8) :
    LineRec.decided c t = LineRec.withCal c.nextBit :=
  funext fun r => by rw [LineRec.decided, if_neg h1, if_pos h8]

theorem LineRec.decided_last (h1 : c.decision ≠ 1) (h8 : ¬c.decision < 8) :
    LineRec.decided c t = LineRec.withCal { c with kept := keptCode c, trialCode := keptCode c, step := .commit } :=
  funext fun r => by rw [LineRec.decided, if_neg h1, if_neg h8]

end Decided

theorem startDecision_line (s : State) (n : LineNo) (c : CalCtx) (m : LineNo) :
    (startDecision s n c).line m = (s.modLine n (LineRec.withCal c.starting)).line m :=
  placeTrim_line _ n _ _ _ m

/-- The end of a decision changes its line's record, and no other (R113, R114). -/
theorem decisionEnds_line (s : State) (n : LineNo) (c : CalCtx) (m : LineNo) :
    (decisionEnds s n c).line m = (s.modLine n (LineRec.decided c s.time)).line m := by
  by_cases h1 : c.decision = 1
  · rw [decisionEnds, if_pos h1, rangeDecision]
    by_cases hS : 100 * c.d < c.sum.natAbs
    · rw [LineRec.decided_fails s.time h1 hS, if_pos hS]
      exact (failLine_line _ n _ _ m).trans (congrArg (State.line · m) (State.modLine_modLine s n _ _))
    · rw [LineRec.decided_ranged s.time h1 hS, if_neg hS]
      exact startDecision_line s n _ m
  · rw [decisionEnds, if_neg h1, bitDecision]
    by_cases h8 : c.decision < 8
    · rw [LineRec.decided_bit s.time h1 h8, if_pos h8]
      exact startDecision_line s n _ m
    · rw [LineRec.decided_last s.time h1 h8, if_neg h8]
      exact (placeRelay_line _ n _ _ m).trans (placeTrim_line _ n _ _ _ m)

/-- A context with the sample of a dwell scan summed (R112). -/
def CalCtx.summed (c : CalCtx) (x : Sample) : CalCtx :=
  { c with sum := c.sum + x.i.toInt, dwellCount := c.dwellCount + 1 }

/-- The scan that brings the count of a dwell to d ends the decision, with its sample summed (R112). -/
theorem calCounts_last (s : State) (n : LineNo) {c : CalCtx} {x : Sample} (hs : c.step = .dwell)
    (hd : c.d ≤ c.dwellCount + 1) : calCounts s n c x = decisionEnds s n (c.summed x) := by
  unfold calCounts
  split
  · next h => cases hs.symm.trans h
  · exact if_pos hd
  · next h => cases hs.symm.trans h
  · next h => cases hs.symm.trans h
  · next h => cases hs.symm.trans h

/-- The case of a decision's last scan: the reply matches, its line is CALIBRATING, and the scan is ACCEPTED, without
TESTRANGE, and brings the count of the dwell to d (R112). -/
structure DecisionCase (s : State) (l : LinkNo) (p : PairNo) (x : Sample) (c : CalCtx) : Prop where
  exchange : (s.link l).exchange = some (.sample p)
  calibrating : (s.line (lineAt l p)).service = .calibrating
  outcome : replyOutcome (atReply s l x) (lineAt l p) x = .accepted x
  dwell : c.step = .dwell
  range : x.testRange = false
  last : c.d ≤ c.dwellCount + 1

theorem decisionCase_spec {s : State} {l : LinkNo} {p : PairNo} {x : Sample} {c : CalCtx}
    (h : replyCase decisionDue .calibrating s l p x = true) (hc : (s.line (lineAt l p)).calCtx = some c) :
    DecisionCase s l p x c := by
  simp only [replyCase, Bool.and_eq_true, decide_eq_true_eq, atReply_line] at h
  obtain ⟨⟨hex, hv⟩, hd⟩ := h
  unfold decisionDue at hd
  rw [atReply_line, hc] at hd
  split at hd
  · next c' y hsc hout =>
    obtain rfl := Option.some.inj hsc
    obtain rfl := replyOutcome_sample hout
    simp only [Bool.and_eq_true, decide_eq_true_eq, Bool.not_eq_true'] at hd
    obtain ⟨⟨hstep, hrange⟩, hlast⟩ := hd
    exact ⟨hex, hv, hout, hstep, hrange, hlast⟩
  · cases hd

/-- The scan of such a case ends the decision (R112). -/
theorem DecisionCase.scan {s : State} {l : LinkNo} {p : PairNo} {x : Sample} {c : CalCtx}
    (h : DecisionCase s l p x c) (hc : (s.line (lineAt l p)).calCtx = some c) :
    takeSample (replyTaken s l) (lineAt l p) x = decisionEnds (atReply s l x) (lineAt l p) (c.summed x) := by
  have hv : ((atReply s l x).line (lineAt l p)).service = .calibrating := by rw [atReply_line, h.calibrating]
  rw [takeSample_eq, h.outcome, routeScan.eq_def, hv]
  dsimp only
  unfold calScan
  rw [atReply_line, hc]
  dsimp only
  rw [h.range, if_neg Bool.false_ne_true]
  exact calCounts_last _ _ h.dwell h.last

/-- Settles O36: the scan that ends a decision leaves its line's record decided, and no other line changed. -/
theorem decisionsJudgeTheSum : Obligations.DecisionsJudgeTheSum := by
  intro l p x s c n S kept hdue hc
  have hcase := decisionCase_spec hdue hc
  have hstep := (stepMarked_replyCase hdue).trans (exec_sampleReply x hcase.exchange)
  have hengine := scanStep_engine s l p x
  rw [hcase.scan hc] at hstep hengine
  have htime : (atReply s l x).time = s.time := congrArg Engine.time (atReply_engine s l x)
  obtain ⟨hline, hothers⟩ := linkStep_lines s l (decisionEnds_line (atReply s l x) n (c.summed x))
  rw [atReply_line, htime] at hline
  simp only [atReply_line] at hothers
  generalize markChanges s (advanceLink (decisionEnds (atReply s l x) n (c.summed x)) l) = t
    at hstep hengine hline hothers
  have hcal : (t.line n).cal = (LineRec.decided (c.summed x) s.time (s.line n)).cal := (congrArg LineRec.cal hline :)
  have hctx : (t.line n).calCtx = (LineRec.decided (c.summed x) s.time (s.line n)).calCtx :=
    (congrArg LineRec.calCtx hline :)
  refine ⟨t, hstep, fun h1 hS => ?_, fun h1 hS => ?_, fun h2 h8 => ?_, fun h8 => ?_, hothers, hengine⟩
  · rw [LineRec.decided_fails s.time (c := c.summed x) h1 hS] at hcal hctx
    exact ⟨hcal, congrArg (Option.map CalCtx.step) hctx⟩
  · rw [LineRec.decided_ranged s.time (c := c.summed x) h1 (Nat.not_lt.2 hS)] at hcal hctx
    exact ⟨hcal, hctx⟩
  · rw [LineRec.decided_bit s.time (c := c.summed x) (show c.decision ≠ 1 by omega) h8] at hcal hctx
    exact ⟨hcal, hctx⟩
  · rw [LineRec.decided_last s.time (c := c.summed x) (show c.decision ≠ 1 by omega)
      (show ¬c.decision < 8 by omega)] at hcal hctx
    exact ⟨hcal, congrArg (Option.map fun y => (y.trialRange, y.trialCode, y.step)) hctx⟩

/-! ### O43: the reply to a TRIM -/

section TrimReply
variable {s : State} {l : LinkNo} {p : PairNo} {range : TrimRange} {code : TrimCode} {o : TrimOwner} {ack : Bool}

theorem exec_trimReply (h : (s.link l).exchange = some (.trim p range code o)) :
    exec (.trimReply l ack) s
      = .next (markChanges s (advanceLink (trimOwner (replyTaken s l) (lineAt l p) o ack) l)) := by
  show Host.Outcome.next (markChanges s (trimAnswered s l ack)) = _
  rw [trimAnswered, h]

/-- A reply that its owner takes by an update of the line, in its step. -/
theorem trimReply_step (hx : (s.link l).exchange = some (.trim p range code o)) {g : LineRec → LineRec}
    (hv : ∀ m, (trimOwner (replyTaken s l) (lineAt l p) o ack).line m = (s.modLine (lineAt l p) g).line m) :
    let t := markChanges s (advanceLink (trimOwner (replyTaken s l) (lineAt l p) o ack) l)
    exec (.trimReply l ack) s = .next t ∧ (t.line (lineAt l p)).bare = (g (s.line (lineAt l p))).bare
      ∧ (∀ m, m ≠ lineAt l p → (t.line m).bare = (s.line m).bare) ∧ t.engine = s.engine := by
  obtain ⟨hline, hothers⟩ := linkStep_lines s l hv
  refine ⟨exec_trimReply hx, hline, hothers, ?_⟩
  rw [markChanges_engine, advanceLink_engine, trimOwner_engine, replyTaken_engine]

end TrimReply

/-! ### The record's own TRIM -/

/-- The calibration record after a NAK to its TRIM (R109). -/
def LineRec.trimRefused (t : Word) (r : LineRec) : LineRec :=
  { r with cal := { r.cal with status := .failed .frontEndRefused, time := t } }

theorem recordTrimAnswered_line (s : State) (n : LineNo) (ack : Bool) (m : LineNo) :
    (recordTrimAnswered s n ack).line m = (s.modLine n (if ack then id else LineRec.trimRefused s.time)).line m := by
  cases ack
  · rfl
  · rw [State.line_modLine_ite]
    split
    · next h => rw [h]; rfl
    · rfl

/-- The reply to the record's TRIM ends the failure run of its link (R138). -/
theorem recordReply_failRun (s : State) (l : LinkNo) (n : LineNo) (ack : Bool) :
    ((markChanges s (advanceLink (recordTrimAnswered (replyTaken s l) n ack) l)).link l).failRun = 0 := by
  have hlink : (recordTrimAnswered (replyTaken s l) n ack).link l = (replyTaken s l).link l := by cases ack <;> rfl
  have htaken : ((replyTaken s l).link l).failRun = 0 := by rw [replyTaken, State.link_modLink_same]
  rw [markChanges_link]
  refine Eq.trans (congrArg LinkRec.failRun (advanceLink_standing _ l l) :) ?_
  exact (congrArg LinkRec.failRun hlink).trans htaken

/-! ### The TRIMs of a calibration -/

section CalTrim
variable {s : State} {n : LineNo} {c : CalCtx}

/-- A calibrating line's record after the ACK to a TRIM, a RELAY being awaited still or not (R112). -/
def LineRec.trimAcked (relay : Bool) (r : LineRec) : LineRec :=
  { r with calCtx := r.calCtx.map fun c => frameAcked c relay false }

theorem calTrimAnswered_acked (hc : (s.line n).calCtx = some c) {relay : Bool} (hs : c.step = .frameWait relay true) :
    calTrimAnswered s n true = s.modLine n (LineRec.trimAcked relay) := by
  unfold calTrimAnswered
  rw [hc]
  dsimp only
  rw [hs]
  rfl

/-- The reply ends the line: any reply to the commit, or a NAK to a TRIM that a decision waits for (R115, R116). -/
def trimEnds (c : CalCtx) (ack : Bool) : Prop :=
  c.step = .commit ∨ (ack = false ∧ ∃ relay, c.step = .frameWait relay true)

theorem calTrimAnswered_ends (hc : (s.line n).calCtx = some c) {ack : Bool} (he : trimEnds c ack) :
    calTrimAnswered s n ack
      = if c.step = .commit then commitAnswered s n c ack else failLine s n c .frontEndRefused := by
  unfold calTrimAnswered
  rw [hc]
  dsimp only
  rcases he with hs | ⟨rfl, relay, hs⟩
  · rw [hs, if_pos rfl]
  · rw [hs, if_neg (by simp)]
    rfl

theorem calTrimAnswered_ends_line (hc : (s.line n).calCtx = some c) {ack : Bool} (he : trimEnds c ack) (m : LineNo) :
    (calTrimAnswered s n ack).line m = (s.modLine n fun r => r.calEnded (c.outcome ack s.time r.cal)).line m := by
  rw [calTrimAnswered_ends hc he]
  split
  · exact commitAnswered_line s n c ack m
  · next hs =>
    obtain ⟨rfl, -⟩ := he.resolve_left hs
    exact failLine_line s n c .frontEndRefused m

theorem calTrimAnswered_ends_slots (hc : (s.line n).calCtx = some c) {ack : Bool} (he : trimEnds c ack) :
    (calTrimAnswered s n ack).slots = (lineFinished s c.slot (Tally.counted ack) .done .none).slots := by
  rw [calTrimAnswered_ends hc he]
  split
  · exact commitAnswered_slots s n c ack
  · next hs =>
    obtain ⟨rfl, -⟩ := he.resolve_left hs
    exact failLine_slots s n c .frontEndRefused

/-- After a NAK the TRIM of the saved trim is queued again, and after one to a decision's TRIM the RELAY NORMAL too
(R115, R116). -/
theorem calTrimAnswered_ends_queues (hc : (s.line n).calCtx = some c) (he : trimEnds c false)
    (hup : (s.link (linkOf n)).state = .up) :
    Frame.trim (pairOf n) (s.line n).cal.range (s.line n).cal.code .record
        ∈ ((calTrimAnswered s n false).link (linkOf n)).queue
      ∧ (c.step ≠ .commit →
          Frame.relay (pairOf n) .normal .calibration ∈ ((calTrimAnswered s n false).link (linkOf n)).queue) := by
  rw [calTrimAnswered_ends hc he]
  split
  · next hs => exact ⟨commitAnswered_queues s n c hup, fun hno => absurd hs hno⟩
  · obtain ⟨htrim, hrelay⟩ := failLine_queues s n c .frontEndRefused hup
    exact ⟨htrim, fun _ => hrelay⟩

end CalTrim

/-- The replies to the record's TRIM (R109; log 41). -/
theorem recordReplies {s : State} {l : LinkNo} {p : PairNo} {range : TrimRange} {code : TrimCode}
    (hx : (s.link l).exchange = some (.trim p range code .record)) :
    let n := lineAt l p
    let r := s.line n
    ∃ t u, exec (.trimReply l true) s = .next t ∧ exec (.trimReply l false) s = .next u
      ∧ (t.line n).bare = r.bare
      ∧ (u.line n).bare = { r with cal := { r.cal with status := .failed .frontEndRefused, time := s.time } }.bare
      ∧ (∀ m, m ≠ n → (t.line m).bare = (s.line m).bare ∧ (u.line m).bare = (s.line m).bare)
      ∧ (t.link l).failRun = 0 ∧ (u.link l).failRun = 0
      ∧ t.engine = s.engine ∧ u.engine = s.engine := by
  intro n r
  obtain ⟨hexec, hline, hothers, hengine⟩ := trimReply_step (ack := true) hx
    (recordTrimAnswered_line (replyTaken s l) n true)
  obtain ⟨hexec', hline', hothers', hengine'⟩ := trimReply_step (ack := false) hx
    (recordTrimAnswered_line (replyTaken s l) n false)
  exact ⟨_, _, hexec, hexec', hline, hline', fun m hm => ⟨hothers m hm, hothers' m hm⟩,
    recordReply_failRun s l n true, recordReply_failRun s l n false, hengine, hengine'⟩

/-- The reply that ends a line, in its step (R115, R116, R120). -/
theorem endingReply {s : State} {l : LinkNo} {p : PairNo} {range : TrimRange} {code : TrimCode} {c : CalCtx}
    {ack : Bool} {y : Tally} (hx : (s.link l).exchange = some (.trim p range code .calibration))
    (hc : (s.line (lineAt l p)).calCtx = some c) (he : trimEnds c ack)
    (hf : (s.slot c.slot).flight = some (.calibrate y)) (hup : (s.link l).state = .up)
    (hexch : s.exch = .running ∨ s.exch = .stopping) :
    let n := lineAt l p
    let r := s.line n
    let z := y.counted ack
    ∃ t, exec (.trimReply l ack) s = .next t
      ∧ (t.line n).bare = (r.calEnded (c.outcome ack s.time r.cal)).bare
      ∧ (ack = false →
          Frame.trim p r.cal.range r.cal.code .record ∈ (t.link l).queue
          ∨ (t.link l).exchange = some (.trim p r.cal.range r.cal.code .record))
      ∧ (ack = false → c.step ≠ .commit →
          Frame.relay p .normal .calibration ∈ (t.link l).queue
          ∨ (t.link l).exchange = some (.relay p .normal .calibration))
      ∧ (z.valid + z.failed + z.interrupted < z.taken →
          (t.slot c.slot).flight = some (.calibrate z) ∧ (t.slot c.slot).due = (s.slot c.slot).due)
      ∧ (z.taken ≤ z.valid + z.failed + z.interrupted →
          (t.slot c.slot).flight = none
          ∧ (t.slot c.slot).due = some
            { outcome := .done, reason := .none, detail := detail (tallyDetail z), result := none })
      ∧ (∀ m, m ≠ n → (t.line m).bare = (s.line m).bare) ∧ t.engine = s.engine := by
  intro n r z
  have hc' : ((replyTaken s l).line n).calCtx = some c := hc
  have hf' : ((replyTaken s l).slot c.slot).flight = some (.calibrate y) := hf
  have hup' : ((replyTaken s l).link (linkOf n)).state = .up := by
    rw [replyTaken_link_state, linkOf_lineAt, hup]
  obtain ⟨hexec, hline, hothers, hengine⟩ :=
    trimReply_step (o := .calibration) hx (calTrimAnswered_ends_line hc' he)
  have hslot : ∀ k, (markChanges s (advanceLink (calTrimAnswered (replyTaken s l) n ack) l)).slot k
      = (lineFinished (replyTaken s l) c.slot (Tally.counted ack) .done .none).slot k := fun k => by
    rw [markChanges_slot, advanceLink_slot, State.slot, calTrimAnswered_ends_slots hc' he, State.slot]
  have hqueues (h : ack = false) := calTrimAnswered_ends_queues hc' (h ▸ he : trimEnds c false) hup'
  rw [linkOf_lineAt, pairOf_lineAt] at hqueues
  refine ⟨_, hexec, hline, fun h => ?_, fun h hs => ?_, fun h => ?_, fun h => ?_, hothers, hengine⟩
  · subst h
    rw [markChanges_link]
    exact advanceLink_queued l (hqueues rfl).1
  · subst h
    rw [markChanges_link]
    exact advanceLink_queued l ((hqueues rfl).2 hs)
  · have hk := (hslot c.slot).trans (lineFinished_counts hf' .done .none h)
    exact ⟨(congrArg SlotRec.flight hk :), (congrArg SlotRec.due hk :)⟩
  · have hk := (hslot c.slot).trans (lineFinished_ends hf' hexch .done .none h)
    exact ⟨(congrArg SlotRec.flight hk :), (congrArg SlotRec.due hk :)⟩

/-- Settles O43: the reply goes to the record, to the decision that waits, or to the end of the line. -/
theorem trimRepliesActOnTheRecord : Obligations.TrimRepliesActOnTheRecord := by
  intro l p range code s n r
  refine ⟨recordReplies, fun c hx hc => ?_⟩
  have hacked : ∀ relay, c.step = .frameWait relay true → ∃ t, exec (.trimReply l true) s = .next t
      ∧ (t.line n).bare = { r with calCtx := some (frameAcked c relay false) }.bare
      ∧ (∀ m, m ≠ n → (t.line m).bare = (s.line m).bare) ∧ t.engine = s.engine := fun relay hs => by
    have hacked : r.trimAcked relay = { r with calCtx := some (frameAcked c relay false) } := by
      rw [LineRec.trimAcked, hc]
      rfl
    rw [← hacked]
    exact ⟨_, trimReply_step (o := .calibration) hx fun m =>
      (congrArg (State.line · m) (calTrimAnswered_acked (s := replyTaken s l) (n := n) hc hs) :)⟩
  refine ⟨hacked false, hacked true, fun ack y he hf hup hexch => ?_⟩
  have hend := endingReply hx hc he hf hup hexch
  have hrec : r.calEnded (c.outcome ack s.time r.cal)
      = { r with calCtx := some { c with step := .restoring }, cal := c.outcome ack s.time r.cal } := by
    rw [LineRec.calEnded, hc]
    rfl
  exact hrec ▸ hend

end Sys2Proof.Machine
end

section
/-! O53: the times of a profile in scans and blocks (R124), and the fifteen constraints of a valid profile (R125). -/

namespace Sys2Proof.Machine

/-! ### Conversions -/

/-- The least number of units that lasts a time is at least 1, and no more than the time has milliseconds. -/
theorem ceilDiv_range {a b : Nat} (ha : 1 ≤ a) (hb : 0 < b) : 1 ≤ ceilDiv a b ∧ ceilDiv a b ≤ a := by
  obtain ⟨hup, hlow⟩ := ceilDiv_bounds (Nat.pos_iff_ne_zero.mp ha) hb
  have h1 : 1 ≤ ceilDiv a b := by
    rw [Nat.one_le_iff_ne_zero]
    intro h0
    rw [h0, Nat.zero_mul] at hup
    omega
  have hmul : ceilDiv a b - 1 ≤ (ceilDiv a b - 1) * b := Nat.le_mul_of_pos_right _ hb
  exact ⟨h1, by omega⟩

/-- No time that a profile's two bytes hold is cut off at 65,535 scans (R124). -/
theorem toScans_eq_ceilDiv (p : Period) {ms : Nat} (h1 : 1 ≤ ms) (h2 : ms ≤ 65535) :
    toScans p ms = ceilDiv ms p.ms := by
  obtain ⟨hlow, hup⟩ := ceilDiv_range h1 p.ms_pos
  rw [toScans, Nat.max_eq_left hlow, Nat.min_eq_left (hup.trans h2)]

theorem toScans_zero (p : Period) : toScans p 0 = 1 := by cases p <;> rfl

/-- Every scan period divides a second. -/
theorem Period.ms_dvd_second (p : Period) : p.ms ∣ 1000 := by cases p <;> decide

theorem secondsToScans_mul (p : Period) (sec : Nat) : secondsToScans p sec * p.ms = sec * 1000 :=
  Nat.div_mul_cancel (p.ms_dvd_second.mul_left sec)

theorem toBlocks_zero : toBlocks 0 = 1 := rfl

theorem toBlocks_eq_ceilDiv {ms : Nat} (h : 1 ≤ ms) : toBlocks ms = ceilDiv ms 10 :=
  Nat.max_eq_left (ceilDiv_range h (by decide)).1

/-! ### Constraints -/

theorem validAt_iff_constraints (p : Period) (f : Profile) :
    validAt p f = true ↔ ∀ c ∈ constraints p f, c.2 = true := by
  simp only [validAt, firstFailing, Option.isNone_iff_eq_none, Option.map_eq_none_iff, List.find?_eq_none,
    Bool.not_eq_true', Bool.not_eq_false]

/-- Settles O53: each conversion by the least number of units that lasts as long, the table by evaluation, and the
validity constraint by constraint. -/
theorem timesConvertToScans : Obligations.TimesConvertToScans := by
  refine ⟨fun p ms h1 h2 => ?_, toScans_zero, secondsToScans_mul, fun ms => ?_, by decide, fun p f => ?_⟩
  · obtain ⟨hup, hlow⟩ := ceilDiv_bounds (Nat.pos_iff_ne_zero.mp h1) p.ms_pos
    obtain ⟨hone, hmax⟩ := ceilDiv_range h1 p.ms_pos
    rw [toScans_eq_ceilDiv p h1 h2]
    exact ⟨hup, hlow, hone, hmax.trans h2⟩
  · rcases Nat.eq_zero_or_pos ms with rfl | h
    · rw [toBlocks_zero]
      omega
    · obtain ⟨hup, hlow⟩ := ceilDiv_bounds (Nat.pos_iff_ne_zero.mp h) (b := 10) (by decide)
      rw [toBlocks_eq_ceilDiv h]
      exact ⟨(ceilDiv_range h (by decide)).1, hup, fun _ => hlow⟩
  · intro within
    rw [validAt_iff_constraints]
    simp only [constraints, within, List.forall_mem_cons, List.not_mem_nil, false_implies, implies_true, and_true,
      Bool.and_eq_true, inRange_iff, decide_eq_true_eq]
    simp only [convert]
    omega

end Sys2Proof.Machine
end

section
/-! SUPPORT. The record of a line that enters SETTLING or UNSENSED in its place (R25, R45), or is parked (R131), but for
its receiver; and the ACTIVE lines that a new scan period settles again (R133). -/

namespace Sys2Proof.Machine

variable {s t : State} {n : LineNo}

/-! ### The records -/

/-- A line's record after its entry to SETTLING (R25, R7, R92). -/
def LineRec.settled (r : LineRec) : LineRec :=
  { clearCounters r with
      sup := .settling, pulseSeen := false, seedPending := true, candidate := none, run := 0, accepted := .none,
      rate := .full, quiet := 0, fault := restored r.fault }

/-- A line's record after its entry to UNSENSED (R45, R7, R92). -/
def LineRec.unsensed (r : LineRec) : LineRec :=
  { clearCounters r with
      sup := .unsensed, pulseSeen := false, candidate := none, run := 0, rate := .full, quiet := 0,
      fault := restored r.fault }

/-- A line's record after the park steps (R131). -/
def LineRec.parked (r : LineRec) : LineRec :=
  { clearCounters r with
      sup := .none, service := .parked, candidate := none, run := 0, accepted := .none, rate := .full, quiet := 0,
      fault := restored r.fault }

/-- A line's record after its entry to SETTLING, or to UNSENSED while its link is not UP (R25). -/
def LineRec.entered (up : Bool) (r : LineRec) : LineRec := if up then r.settled else r.unsensed

/-- A line's record after a new scan period was taken: an ACTIVE line not UNSENSED enters SETTLING (R133). -/
def LineRec.resettled (up : Bool) (r : LineRec) : LineRec :=
  if r.service = .active ∧ r.sup ≠ .unsensed then r.entered up else r

theorem LineRec.resettled_congr {a b : LineRec} (h : a.noRcv = b.noRcv) (up : Bool) :
    (a.resettled up).noRcv = (b.resettled up).noRcv := by
  rw [eq_of_noRcv h]
  unfold resettled entered
  cases up <;> split <;> rfl

/-! ### Leaving a call -/

/-- What a line surrenders to the pool leaves the state of every link as it is. -/
theorem linkUp_leaveCall (s : State) (n : LineNo) (was : Sup) (l : LinkNo) :
    linkUp (leaveCall s n was) l = linkUp s l :=
  (congrArg (fun r : LinkRec => decide (r.state = .up))
    (link_standing (congrArg Prod.snd (leaveCall_unsupervised s n was)) l) :)

/-- A line that leaves a call under a record goes over to that record, but for its receiver. -/
theorem leaveCall_record {r : LineRec} (h : s.line n = r) (was : Sup) :
    ((leaveCall s n was).line n).noRcv = r.noRcv := by
  rw [leaveCall_noRcv, h]

theorem enterSettling_record (s : State) (n : LineNo) :
    ((enterSettling s n).line n).noRcv = ((s.line n).entered (linkUp s (linkOf n))).noRcv := by
  unfold enterSettling LineRec.entered
  split
  · refine leaveCall_record ?_ _
    simp only [restoreFault, setFull, State.line_modLine_same]
    rfl
  · unfold enterUnsensed
    refine leaveCall_record ?_ _
    simp only [restoreFault, setFull, State.line_modLine_same]
    rfl

theorem parkLine_record (s : State) (n : LineNo) : ((parkLine s n).line n).noRcv = (s.line n).parked.noRcv := by
  unfold parkLine
  refine leaveCall_record ?_ _
  simp only [unschedule, restoreFault, setFull, State.line_modLink, State.line_modLine_same]
  rfl

/-! ### A new scan period -/

theorem resettle_record (s : State) (n : LineNo) :
    ((resettle s n).line n).noRcv = ((s.line n).resettled (linkUp s (linkOf n))).noRcv := by
  unfold resettle LineRec.resettled
  split
  · exact enterSettling_record s n
  · rfl

theorem resettle_noRcv (s : State) (n : LineNo) {m : LineNo} (h : m ≠ n) :
    ((resettle s n).line m).noRcv = (s.line m).noRcv := by
  unfold resettle
  split
  · exact enterSettling_noRcv s n h
  · rfl

theorem linkUp_resettle (s : State) (n : LineNo) (l : LinkNo) : linkUp (resettle s n) l = linkUp s l := by
  unfold resettle enterSettling enterUnsensed
  dsimp only
  split
  · split
    · exact linkUp_leaveCall _ n _ l
    · exact linkUp_leaveCall _ n _ l
  · rfl

/-- Each of the lines that a new scan period takes in turn is settled again once, and no other changes but for its
receiver (R133). -/
theorem resettle_foldl_record (l : List LineNo) (hl : l.Nodup) (s : State) (m : LineNo) :
    ((l.foldl resettle s).line m).noRcv
      = (if m ∈ l then (s.line m).resettled (linkUp s (linkOf m)) else s.line m).noRcv := by
  induction l generalizing s with
  | nil => rfl
  | cons n l ih =>
    obtain ⟨hn, hl⟩ := List.nodup_cons.mp hl
    rw [List.foldl_cons, ih hl, linkUp_resettle]
    by_cases hm : m = n
    · subst hm
      rw [if_neg hn, if_pos List.mem_cons_self, resettle_record]
    · have hline := resettle_noRcv s n hm
      simp only [List.mem_cons, hm, false_or]
      split
      · exact LineRec.resettled_congr hline _
      · exact hline

end Sys2Proof.Machine
end

section
/-! O6: RUN goes from 0 to 1 in STOPPING or STOPPED, and the scan period is decided (R133). -/

namespace Sys2Proof.Machine

variable {s t : State}

/-! ### What the writes of STARTING leave alone -/

/-- A line's record without what the writing of its image moves (R162 to R165). -/
def LineRec.unpublished (r : LineRec) : LineRec :=
  { r with queue := [], written := 0, taken := 0, update := 0, image := ImageFields.reset, measWritten := 0,
           changePending := false, pacePending := false }

/-- A state without the exchange area and what the writing of slots, images and header moves. -/
def State.unpublished (s : State) : State :=
  { s with mem := [], slots := Vector.replicate 16 SlotRec.reset, lines := s.lines.map LineRec.unpublished,
           headerUpdate := 0, headerPending := false, changeCount := 0 }

theorem line_unpublished (h : t.unpublished = s.unpublished) (n : LineNo) :
    (t.line n).unpublished = (s.line n).unpublished := by
  have hn := congrArg (fun v : State => v.lines[n.1]'n.2) h
  simpa [State.unpublished, State.line] using hn

theorem modLine_unpublished (s : State) (n : LineNo) {f : LineRec → LineRec}
    (hf : (f (s.line n)).unpublished = (s.line n).unpublished) : (s.modLine n f).unpublished = s.unpublished := by
  have h : (s.lines.set n.1 (f (s.line n)) n.2).map LineRec.unpublished = s.lines.map LineRec.unpublished := by
    ext i hi : 1
    by_cases e : n.1 = i
    · subst e; simpa [State.line] using hf
    · simp [e]
  exact congrArg (fun v => { s.unpublished with lines := v }) h

/-- A series of accesses that writes slots, images and header only, so that u is left of the state without them, and
that no access breaks off but one at a bad address. -/
def BusRes.Publishes (bad : Option Word) (u : State) : BusRes → Prop
  | .ok s => s.unpublished = u
  | .err s _ => bad ≠ none ∧ s.unpublished = u

section Publishes
variable {bad : Option Word} {u : State}

theorem BusRes.Publishes.andThen {r : BusRes} (hr : r.Publishes bad u) {f : State → BusRes}
    (hf : ∀ s : State, s.unpublished = u → (f s).Publishes bad u) : (r.andThen f).Publishes bad u := by
  cases r with
  | ok s => exact hf s hr
  | err s a => exact hr

theorem publishes_busEach {α : Type} {f : State → α → BusRes}
    (hf : ∀ (s : State) x, s.unpublished = u → (f s x).Publishes bad u) (l : List α) {s : State}
    (h : s.unpublished = u) : (busEach f l s).Publishes bad u := by
  induction l generalizing s with
  | nil => exact h
  | cons x l ih => exact (hf s x h).andThen fun s hs => ih hs

theorem accessFails_bad {s : State} {off n : Nat} {a : Word} (h : accessFails bad s off n = some a) : bad ≠ none := by
  rintro rfl
  cases h

theorem busWrite_publishes (h : s.unpublished = u) (off : Nat) (bytes : List Byte) :
    (busWrite bad s off bytes).Publishes bad u := by
  unfold busWrite
  split
  · next ha => exact ⟨accessFails_bad ha, h⟩
  · exact h

theorem busWriteField_publishes (h : s.unpublished = u) (off n : Nat) (v : Int) :
    (busWriteField bad s off n v).Publishes bad u := busWrite_publishes h off _

theorem busReadField_publishes (h : s.unpublished = u) {off n : Nat} {k : Nat → BusRes}
    (hk : ∀ v, (k v).Publishes bad u) : (busReadField bad s off n k).Publishes bad u := by
  unfold busReadField busRead
  split
  · next ha => exact ⟨accessFails_bad ha, h⟩
  · exact hk _

theorem busWriteFields_publishes (l : List (Nat × Int)) (h : s.unpublished = u) (off : Nat) :
    (busWriteFields bad off l s).Publishes bad u := by
  induction l generalizing s off with
  | nil => exact h
  | cons x l ih => exact (busWriteField_publishes h off _ _).andThen fun s hs => ih hs _

theorem writeEntries_publishes (n : LineNo) (l : List DigitEntry) (h : s.unpublished = u) (w : Count) :
    (writeEntries bad n w l s).Publishes bad u := by
  induction l generalizing s w with
  | nil => exact h
  | cons e l ih => exact (busWriteFields_publishes _ h _).andThen fun s hs => ih hs _

theorem writeMeasures_publishes (n : LineNo) (h : s.unpublished = u) : (writeMeasures bad n s).Publishes bad u := by
  refine (busWriteFields_publishes _ h _).andThen fun s hs => ?_
  refine (busWriteField_publishes hs _ _ _).andThen fun s hs => ?_
  exact (modLine_unpublished s n rfl).trans hs

theorem adoptSlot_publishes (h : s.unpublished = u) (k : SlotNo) : (adoptSlot bad s k).Publishes bad u := by
  refine busReadField_publishes h fun issue => busReadField_publishes h fun comp => ?_
  dsimp only
  split
  · exact h
  refine (busWriteField_publishes (s := s.modSlot k _) h _ _ _).andThen fun s hs => ?_
  refine (busWriteField_publishes hs _ _ _).andThen fun s hs => ?_
  refine (busWrite_publishes hs _ _).andThen fun s hs => ?_
  refine (busWriteField_publishes hs _ _ _).andThen fun s hs => ?_
  exact (busWriteField_publishes hs _ _ _).andThen fun s hs => hs

theorem fullBody_publishes (h : s.unpublished = u) (n : LineNo) : (fullBody bad n s).Publishes bad u := by
  refine (publishes_busEach (fun s g hs => busWrite_publishes hs _ _) _ h).andThen fun s hs => ?_
  refine (writeEntries_publishes n _ hs _).andThen fun s hs => ?_
  refine (busWriteField_publishes hs _ _ _).andThen fun s hs => ?_
  refine (publishes_busEach (fun s i hs => busWriteField_publishes hs _ _ _) _ hs).andThen fun s hs => ?_
  refine (writeMeasures_publishes n hs).andThen fun s hs => ?_
  refine (busWriteField_publishes hs _ _ _).andThen fun s hs => ?_
  exact (modLine_unpublished s n rfl).trans hs

theorem adoptLine_publishes (h : s.unpublished = u) (n : LineNo) : (adoptLine bad s n).Publishes bad u := by
  refine busReadField_publishes h fun v => ?_
  refine (busWriteField_publishes ((modLine_unpublished s n ?_).trans h) _ _ _).andThen fun s hs =>
    fullBody_publishes hs n
  rfl

theorem writeHeader_publishes (h : s.unpublished = u) (stopped : Bool) :
    (writeHeader bad stopped s).Publishes bad u := by
  refine (busWriteField_publishes h _ _ _).andThen fun s hs => ?_
  refine (publishes_busEach (fun s f hs => busWriteField_publishes hs _ _ _) _
    (s := { s with headerPending := false }) hs).andThen fun s hs => ?_
  refine (busWrite_publishes hs _ _).andThen fun s hs => ?_
  exact (busWriteField_publishes hs _ _ _).andThen fun s hs => hs

/-- STARTING's adoptions and writes leave all but what they write as the latches left it (R173). -/
theorem enterStarting_publishes (bad : Option Word) (s : State) :
    (enterStarting bad s).Publishes bad (latch s).unpublished := by
  refine (publishes_busEach (fun s k hs => adoptSlot_publishes hs k) allSlots rfl).andThen fun s hs => ?_
  refine (publishes_busEach (fun s n hs => adoptLine_publishes hs n) allLines hs).andThen fun s hs => ?_
  exact writeHeader_publishes (s := { s with changeCount := s.changeCount + 1 }) hs false

end Publishes

/-- STARTING is entered whole where no address is bad. -/
theorem enterStarting_ok (s : State) : ∃ t, enterStarting none s = .ok t ∧ t.unpublished = (latch s).unpublished := by
  have h := enterStarting_publishes none s
  cases hr : enterStarting none s with
  | ok t => exact ⟨t, rfl, by rw [hr] at h; exact h⟩
  | err t a =>
    rw [hr] at h
    exact absurd rfl h.1

theorem halt_ctrl (s : State) (addr : Word) : (halt s addr).ctrl = s.ctrl := by
  have hu : (unmove s).ctrl = s.ctrl := by
    unfold unmove
    split <;> rfl
  refine (congrArg Engine.ctrl (markChanges_engine s (haltEffect s addr)) :).trans ?_
  unfold haltEffect
  extract_lets s1 s2 s3
  have h3 : s3.engine = s2.engine := abortAll_engine s2 .none .halted
  clear_value s3
  exact (congrArg Engine.ctrl h3 :).trans hu

/-- A bad address in STARTING leaves CTRL as it was written. -/
theorem enterStarting_ctrl (bad : Option Word) (s : State) : (enterStarting bad s).settle.ctrl = s.ctrl := by
  have h := enterStarting_publishes bad s
  cases hr : enterStarting bad s with
  | ok t =>
    rw [hr] at h
    exact (congrArg State.ctrl h :)
  | err t a =>
    rw [hr] at h
    exact (halt_ctrl t a).trans (congrArg State.ctrl h.2 :)

/-! ### The decision -/

section Decision

theorem periodDecision_same (h : namedPeriod s.ctrl = s.period) : periodDecision s = s := if_pos h

theorem periodDecision_held (h : namedPeriod s.ctrl ≠ s.period) (hf : periodForbidden s (namedPeriod s.ctrl) = true) :
    periodDecision s = { s with periodHeld := true } := by
  rw [periodDecision, if_neg h, if_pos hf]

/-- The named period taken, the profiles converted and tested at it (R133). -/
def State.atPeriod (s : State) (p : Period) : State :=
  { s with period := p, profiles := s.profiles.map fun e => install p e.ms }

theorem periodDecision_taken (h : namedPeriod s.ctrl ≠ s.period)
    (hf : periodForbidden s (namedPeriod s.ctrl) = false) :
    periodDecision s = allLines.foldl resettle (s.atPeriod (namedPeriod s.ctrl)) := by
  rw [periodDecision, if_neg h, if_neg (by rw [hf]; decide)]
  rfl

theorem resettleAll_engine (s : State) : (allLines.foldl resettle s).engine = s.engine :=
  engine_foldl resettle_engine allLines s

/-- The decision touches no register, no exchange state and no memory. -/
theorem periodDecision_keeps (s : State) :
    (periodDecision s).ctrl = s.ctrl ∧ (periodDecision s).exch = s.exch ∧ (periodDecision s).mem = s.mem := by
  by_cases h : namedPeriod s.ctrl = s.period
  · rw [periodDecision_same h]
    exact ⟨rfl, rfl, rfl⟩
  · cases hf : periodForbidden s (namedPeriod s.ctrl) with
    | true =>
      rw [periodDecision_held h hf]
      exact ⟨rfl, rfl, rfl⟩
    | false =>
      rw [periodDecision_taken h hf]
      have he := resettleAll_engine (s.atPeriod (namedPeriod s.ctrl))
      generalize List.foldl _ _ _ = t at he ⊢
      exact ⟨(congrArg Engine.ctrl he :), (congrArg Engine.exch he :), (congrArg Engine.mem he :)⟩

theorem atPeriod_profile (s : State) (p : Period) (f : ProfNo) :
    (s.atPeriod p).profile f = install p (s.profile f).ms := by
  simp [State.profile, State.atPeriod]

/-- A line's record after a new period was taken, but for its receiver (R133). -/
theorem resettleAll_record (s : State) (p : Period) (n : LineNo) :
    ((allLines.foldl resettle (s.atPeriod p)).line n).noRcv
      = ((s.line n).resettled (linkUp s (linkOf n))).noRcv := by
  rw [resettle_foldl_record allLines nodup_allLines, if_pos (mem_allLines n)]
  rfl

theorem periodDecision_decides (s : State) : periodDecided s (periodDecision s) (namedPeriod s.ctrl) := by
  refine ⟨fun h => ?_, fun h hf => ?_, fun h hf => ?_⟩
  · rw [periodDecision_same h]
    exact ⟨⟨rfl, rfl, fun n => rfl⟩, rfl⟩
  · rw [periodDecision_held h hf]
    exact ⟨⟨rfl, rfl, fun n => rfl⟩, rfl⟩
  · have he := resettleAll_engine (s.atPeriod (namedPeriod s.ctrl))
    have hline := resettleAll_record s (namedPeriod s.ctrl)
    rw [periodDecision_taken h hf]
    generalize List.foldl _ _ _ = t at he hline ⊢
    refine ⟨(congrArg Engine.period he :), (congrArg Engine.periodHeld he :), fun f => ?_, fun n hn => ?_,
      fun n hv hs hup => ?_⟩
    · rw [← atPeriod_profile]
      exact (congrArg (fun e : Engine => e.profiles[f.1]'f.2) he :)
    · have hn : ¬((s.line n).service = .active ∧ (s.line n).sup ≠ .unsensed) := by tauto
      rw [eq_of_noRcv (hline n), LineRec.resettled, if_neg hn]
    · rw [eq_of_noRcv (hline n), LineRec.resettled, if_pos ⟨hv, hs⟩, hup]
      exact ⟨rfl, rfl, rfl, rfl, rfl, rfl, rfl, rfl⟩

/-- The decision is seen in the period, the profiles, PERIOD_HELD and the lines, whatever is written of them. -/
theorem periodDecided_congr {u : State} {p : Period} (h : periodDecided s t p) (hp : u.period = t.period)
    (hf : u.profiles = t.profiles) (hh : u.periodHeld = t.periodHeld)
    (hl : ∀ n, (u.line n).unpublished = (t.line n).unpublished) : periodDecided s u p := by
  have hprof : ∀ f, u.profile f = t.profile f := fun f => by rw [State.profile, State.profile, hf]
  have hsup : ∀ n, (u.line n).sup = (t.line n).sup := fun n => (congrArg LineRec.sup (hl n) :)
  obtain ⟨h1, h2, h3⟩ := h
  simp only [periodDecided, hp, hf, hh, hprof, hsup]
  refine ⟨h1, h2, fun hne hok => ?_⟩
  obtain ⟨hperiod, hheld, hprofs, hkept, hmoved⟩ := h3 hne hok
  refine ⟨hperiod, hheld, hprofs, hkept, fun n hv hs hup => ?_⟩
  have ha : (u.line n).accepted = (t.line n).accepted := (congrArg LineRec.accepted (hl n) :)
  have hc : (u.line n).candidate = (t.line n).candidate := (congrArg LineRec.candidate (hl n) :)
  have hseed : (u.line n).seedPending = (t.line n).seedPending := (congrArg LineRec.seedPending (hl n) :)
  have hpulses : (u.line n).pulses = (t.line n).pulses := (congrArg LineRec.pulses (hl n) :)
  have hret : (u.line n).ret = (t.line n).ret := (congrArg LineRec.ret (hl n) :)
  have hrate : (u.line n).rate = (t.line n).rate := (congrArg LineRec.rate (hl n) :)
  have hfault : (u.line n).fault = (t.line n).fault := (congrArg LineRec.fault (hl n) :)
  rw [ha, hc, hseed, hpulses, hret, hrate, hfault]
  exact hmoved n hv hs hup

end Decision

/-! ### The write of CTRL -/

/-- The state in which a write of CTRL that sets RUN takes effect. -/
def runWritten (v : Word) (b : Bus) (s : State) : State :=
  { withCtl b s with ctrl := runSetValue v &&& 0x00001737#32 }

theorem run_runWritten (v : Word) (b : Bus) (s : State) : run (runWritten v b s) = true := by
  simp [run, runWritten, runSetValue]

theorem exec_runSet {b : Bus} (hb : b.wf = true) (v : Word) (s : State) :
    exec (.runSet v b) s = .next (runChanged b.bad (run s) (runWritten v b s)).settle := by
  have hreset : (runSetValue v).getLsbD 31 = false := by simp [runSetValue]
  show (if b.wf then Host.Outcome.next (writeCtrl b.bad (runSetValue v) (withCtl b s)).settle else _) = _
  rw [if_pos hb, writeCtrl, hreset]
  rfl

/-- The state with the decision made and its marks set. -/
def decidedState (u : State) : State := markChanges u (periodDecision u)

theorem decidedState_keeps (u : State) :
    (decidedState u).ctrl = u.ctrl ∧ (decidedState u).exch = u.exch ∧ (decidedState u).mem = u.mem := by
  have he := markChanges_engine u (periodDecision u)
  obtain ⟨hctrl, hexch, hmem⟩ := periodDecision_keeps u
  exact ⟨(congrArg Engine.ctrl he :).trans hctrl, (congrArg Engine.exch he :).trans hexch,
    (congrArg Engine.mem he :).trans hmem⟩

theorem decidedState_decides (u : State) : periodDecided u (decidedState u) (namedPeriod u.ctrl) := by
  have he := markChanges_engine u (periodDecision u)
  refine periodDecided_congr (periodDecision_decides u) (congrArg Engine.period he :) (congrArg Engine.profiles he :)
    (congrArg Engine.periodHeld he :) fun n => ?_
  rw [decidedState, markChanges_line]
  rfl

theorem decidedState_same {u : State} (h : namedPeriod u.ctrl = u.period) : decidedState u = u := by
  rw [decidedState, periodDecision_same h, markChanges_self]

theorem decidedState_held {u : State} (h : namedPeriod u.ctrl ≠ u.period)
    (hf : periodForbidden u (namedPeriod u.ctrl) = true) : decidedState u = { u with periodHeld := true } := by
  rw [decidedState, periodDecision_held h hf]
  exact markChanges_unseen (fun n => imageChanged_of_same rfl (fun _ => rfl) n) rfl rfl

theorem runChanged_stopping {u : State} (bad : Option Word) (he : u.exch = .stopping) (hr : run u = true) :
    runChanged bad false u = .ok (decidedState u) := by
  simp only [runChanged, he, hr]
  rfl

theorem runChanged_stopped {u : State} (bad : Option Word) (he : u.exch = .stopped) (hr : run u = true) :
    runChanged bad false u = enterStarting bad (decidedState u) := by
  simp only [runChanged, he, hr]
  rfl

/-- Settles O6: from STOPPING the decision is all that happens; from STOPPED the writes of STARTING follow, which leave
what was decided. -/
theorem runSetDecidesThePeriod : Obligations.RunSetDecidesThePeriod := by
  intro v b s hb hx hrun u p
  have hr : run u = true := run_runWritten v b s
  obtain ⟨hctrl, hexch, hmem⟩ := decidedState_keeps u
  have hdec : periodDecided s (decidedState u) p := decidedState_decides u
  rw [exec_runSet hb, hrun]
  refine ⟨_, rfl, ?_⟩
  rcases hx with hx | hx
  · rw [show runChanged b.bad false (runWritten v b s) = .ok (decidedState u) from runChanged_stopping b.bad hx hr,
      settle_ok]
    exact ⟨hctrl, fun _ => hdec, fun _ => ⟨hexch.trans hx, hmem, hdec, decidedState_same, decidedState_held⟩,
      fun h => absurd (hx.symm.trans h) (by decide)⟩
  · rw [show runChanged b.bad false (runWritten v b s) = enterStarting b.bad (decidedState u) from
      runChanged_stopped b.bad hx hr]
    have hstarted : b.bad = none → periodDecided s (enterStarting b.bad (decidedState u)).settle p
        ∧ (enterStarting b.bad (decidedState u)).settle.exch = .starting := by
      intro hbad
      obtain ⟨t, ht, hpub⟩ := enterStarting_ok (decidedState u)
      rw [hbad, ht, settle_ok]
      exact ⟨periodDecided_congr hdec (congrArg State.period hpub :) (congrArg State.profiles hpub :)
        (congrArg State.periodHeld hpub :) fun n => (line_unpublished hpub n :), (congrArg State.exch hpub :)⟩
    exact ⟨(enterStarting_ctrl b.bad _).trans hctrl, fun hbad => (hstarted hbad).1,
      fun h => absurd (hx.symm.trans h) (by decide), fun _ hbad => (hstarted hbad).2⟩

end Sys2Proof.Machine
end

section
/-! SUPPORT. What the moves of the pool, and the ends of orders at an ASSIGN, leave alone: the generator, of the links
all but their control queues, and of a slot all but the order in flight and its completion; an order ended ABORTED,
LINE_CHANGED stays ended so (R84, R128 to R132). -/

namespace Sys2Proof.Machine

variable {s t u : State} {n : LineNo}

/-! ### Slots -/

/-- The order of a slot has ended ABORTED, LINE_CHANGED. -/
def SlotRec.lineChanged (r : SlotRec) : Prop :=
  r.flight = none ∧ r.due.map (fun d => (d.outcome, d.reason)) = some (.aborted, .lineChanged)

/-- A slot goes over to another record with the same copies of its counts, ended ABORTED, LINE_CHANGED if it was. -/
structure SlotRec.Follows (a b : SlotRec) : Prop where
  accepted : b.accepted = a.accepted
  completion : b.completion = a.completion
  ended : a.lineChanged → b.lineChanged

theorem SlotRec.Follows.refl (a : SlotRec) : a.Follows a := ⟨rfl, rfl, id⟩

theorem SlotRec.Follows.trans {a b c : SlotRec} (h : a.Follows b) (g : b.Follows c) : a.Follows c :=
  ⟨g.accepted.trans h.accepted, g.completion.trans h.completion, g.ended ∘ h.ended⟩

/-- The record of a slot whose order is in flight may take any completion. -/
theorem SlotRec.Follows.of_flight {a b : SlotRec} (h : a.flight ≠ none) (ha : b.accepted = a.accepted)
    (hc : b.completion = a.completion) : a.Follows b := ⟨ha, hc, fun e => absurd e.1 h⟩

def SlotsFollow (s t : State) : Prop := ∀ k, (s.slot k).Follows (t.slot k)

theorem SlotsFollow.refl (s : State) : SlotsFollow s s := fun k => .refl (s.slot k)

theorem SlotsFollow.trans (h : SlotsFollow s t) (g : SlotsFollow t u) : SlotsFollow s u := fun k => (h k).trans (g k)

theorem SlotsFollow.of_slots (h : t.slots = s.slots) : SlotsFollow s t := fun k => by
  rw [State.slot, State.slot, h]
  exact .refl _

theorem modSlot_follows {k : SlotNo} {f : SlotRec → SlotRec} (h : (s.slot k).Follows (f (s.slot k))) :
    SlotsFollow s (s.modSlot k f) := fun j => by
  rw [State.slot_modSlot_ite]
  split
  · next e => exact e ▸ h
  · exact .refl _

theorem endOrder_follows {k : SlotNo} {c : Completion}
    (h : (s.slot k).flight ≠ none ∨ c.outcome = .aborted ∧ c.reason = .lineChanged) :
    SlotsFollow s (endOrder s k c) := by
  unfold endOrder
  split
  · refine modSlot_follows ?_
    rcases h with h | ⟨ho, hr⟩
    · exact .of_flight h rfl rfl
    · exact ⟨rfl, rfl, fun _ => ⟨rfl, by simp [ho, hr]⟩⟩
  · exact modSlot_follows ⟨rfl, rfl, fun e => ⟨rfl, e.2⟩⟩

theorem endOrder_frame (s : State) (k : SlotNo) (c : Completion) : { endOrder s k c with slots := s.slots } = s := by
  unfold endOrder
  split <;> rfl

theorem endOrder_lineChanged (hx : s.exch = .running) (k : SlotNo) {c : Completion}
    (h : c.outcome = .aborted ∧ c.reason = .lineChanged) : ((endOrder s k c).slot k).lineChanged := by
  rw [endOrder_slot (.inl hx)]
  exact ⟨rfl, by simp [h.1, h.2]⟩

theorem lineFinished_follows (s : State) (k : SlotNo) (f : Tally → Tally) (o : OrderOutcome) (r : Reason) :
    SlotsFollow s (lineFinished s k f o r) := by
  unfold lineFinished
  split
  · next hf =>
    have hflight : (s.slot k).flight ≠ none := by rw [hf]; simp
    dsimp only
    split
    · exact endOrder_follows (.inl hflight)
    · exact modSlot_follows (.of_flight hflight rfl rfl)
  · exact .refl s

/-! ### Links -/

/-- The links without their control queues. -/
def State.unqueued (s : State) : Vector LinkRec 4 := s.links.map fun r => { r with queue := [] }

theorem link_unqueued (h : t.unqueued = s.unqueued) (l : LinkNo) :
    { t.link l with queue := [] } = ({ s.link l with queue := [] } : LinkRec) := by
  have hl := congrArg (fun v => v[l.1]) h
  simpa [State.unqueued, State.link] using hl

theorem modLink_unqueued (s : State) (l : LinkNo) (f : List Frame → List Frame) :
    (s.modLink l fun r => { r with queue := f r.queue }).unqueued = s.unqueued := by
  unfold State.unqueued State.modLink
  ext i hi : 1
  by_cases e : l.1 = i
  · subst e
    simp [State.link]
  · simp [e]

@[simp] theorem placeFrame_unqueued (s : State) (l : LinkNo) (f : Frame) :
    (placeFrame s l f).unqueued = s.unqueued := by
  unfold placeFrame
  split
  · exact modLink_unqueued s l (queuePlace f)
  · rfl

@[simp] theorem placeFrame_gen (s : State) (l : LinkNo) (f : Frame) : (placeFrame s l f).gen = s.gen :=
  (congrArg State.gen (placeFrame_frame s l f) :)

/-! ### The pool -/

/-- A move of the pool: the generator stands, the links but for their control queues, and the slots follow. -/
structure PoolMove (s t : State) : Prop where
  gen : t.gen = s.gen
  links : t.unqueued = s.unqueued
  slots : SlotsFollow s t

theorem PoolMove.refl (s : State) : PoolMove s s := ⟨rfl, rfl, .refl s⟩

theorem PoolMove.trans (h : PoolMove s t) (g : PoolMove t u) : PoolMove s u :=
  ⟨g.gen.trans h.gen, g.links.trans h.links, h.slots.trans g.slots⟩

/-- Lines, receivers and the waiting list may move. -/
theorem PoolMove.of_eq (hg : t.gen = s.gen) (hl : t.links = s.links) (hs : t.slots = s.slots) : PoolMove s t :=
  ⟨hg, by rw [State.unqueued, State.unqueued, hl], .of_slots hs⟩

theorem placeFrame_move (s : State) (l : LinkNo) (f : Frame) : PoolMove s (placeFrame s l f) :=
  ⟨placeFrame_gen s l f, placeFrame_unqueued s l f, .of_slots (placeFrame_slots s l f)⟩

theorem modLine_move (s : State) (n : LineNo) (f : LineRec → LineRec) : PoolMove s (s.modLine n f) := .of_eq rfl rfl rfl

theorem lineFinished_move (s : State) (k : SlotNo) (f : Tally → Tally) (o : OrderOutcome) (r : Reason) :
    PoolMove s (lineFinished s k f o r) :=
  ⟨(congrArg State.gen (lineFinished_frame s k f o r) :), (congrArg State.unqueued (lineFinished_frame s k f o r) :),
    lineFinished_follows s k f o r⟩

theorem withdrawFrame_move (s : State) (l : LinkNo) (f : Frame) : PoolMove s (withdrawFrame s l f) :=
  ⟨rfl, modLink_unqueued s l (List.erase · f), .of_slots rfl⟩

theorem setReceiver_move (s : State) (n : LineNo) (k : Option RcvNo) : PoolMove s (setReceiver s n k) :=
  .of_eq (setReceiver_gen s n k) (setReceiver_links s n k) (setReceiver_slots s n k)

/-- A LISTEN whose context changes stays in flight; other slots stay as they are. -/
theorem modListen_move (s : State) (k : SlotNo) (f : ListenCtx → ListenCtx) : PoolMove s (modListen s k f) := by
  refine ⟨rfl, rfl, modSlot_follows ⟨rfl, rfl, fun h => ⟨?_, h.2⟩⟩⟩
  rw [h.1]

theorem grant_move (s : State) (e : WaitEntry) (k : RcvNo) : PoolMove s (grant s e k) := by
  have hg : PoolMove s (granting s e k) := by
    unfold granting
    cases e.tag with
    | none => exact .of_eq rfl rfl rfl
    | some j =>
      refine PoolMove.trans ?_ (modListen_move _ j _)
      exact .of_eq rfl rfl rfl
  rw [grant_eq]
  exact (hg.trans (setReceiver_move _ _ _)).trans (placeFrame_move _ _ _)

theorem grantLoop_move (fuel : Nat) (s : State) : PoolMove s (grantLoop fuel s) := by
  induction fuel generalizing s with
  | zero => exact .refl s
  | succ fuel ih =>
    unfold grantLoop
    split
    · next e rest k _ _ =>
      refine (PoolMove.trans ?_ (grant_move _ e k)).trans (ih _)
      exact .of_eq rfl rfl rfl
    · exact .refl s

theorem setRcv_move (s : State) (k : RcvNo) (r : RcvState) : PoolMove s (s.setRcv k r) := .of_eq rfl rfl rfl

theorem releaseRcv_move (s : State) (k : RcvNo) (out : Bool) : PoolMove s (releaseRcv s k out) := by
  have hfree : ∀ m, PoolMove s (setReceiver s m none) := fun m => setReceiver_move s m none
  unfold releaseRcv
  split
  · next e tap ph _ =>
    dsimp only
    split
    · cases ph with
      | queued => exact ((hfree e.line).trans (withdrawFrame_move _ _ _)).trans (setRcv_move _ k _)
      | sent => exact (hfree e.line).trans (setRcv_move _ k _)
      | guarding since => exact ((hfree e.line).trans (setRcv_move _ k _)).trans (placeFrame_move _ _ _)
    · exact (hfree e.line).trans (setRcv_move _ k _)
  · next e tap _ =>
    dsimp only
    split
    · exact ((hfree e.line).trans (setRcv_move _ k _)).trans (placeFrame_move _ _ _)
    · exact (hfree e.line).trans (setRcv_move _ k _)
  · exact .refl s

theorem release_move (s : State) (k : RcvNo) : PoolMove s (release s k) :=
  (releaseRcv_move s k false).trans (grantLoop_move 8 _)

theorem finishListen_move (s : State) (k : SlotNo) (o : OrderOutcome) (r : Reason) :
    PoolMove s (finishListen s k o r) := by
  unfold finishListen
  split
  · next c hc =>
    have hflight : (s.slot k).flight ≠ none := by
      unfold listenOf at hc
      split at hc
      · next hf => rw [hf]; simp
      · cases hc
    have hframe := endOrder_frame s k { outcome := o, reason := r, detail := detail (listenDetail s c), result := none }
    exact ⟨(congrArg State.gen hframe :), (congrArg State.unqueued hframe :), endOrder_follows (.inl hflight)⟩
  · exact .refl s

theorem surrender_move (s : State) (n : LineNo) : PoolMove s (surrender s n) := by
  have hrelease : PoolMove s (match (s.line n).receiver with | some k => release s k | none => s) := by
    split
    · exact release_move s _
    · exact .refl s
  have hremove : ∀ v, PoolMove v (removeWaiting v n) := fun v => .of_eq rfl rfl rfl
  unfold surrender
  dsimp only
  split
  · exact (hrelease.trans (hremove _)).trans (finishListen_move _ _ _ _)
  · exact hrelease.trans (hremove _)

theorem leaveCall_move (s : State) (n : LineNo) (was : Sup) : PoolMove s (leaveCall s n was) := by
  unfold leaveCall
  split
  · exact surrender_move s n
  · exact .refl s

/-- A line that leaves its call after lines alone have changed. -/
theorem leaveCall_move_of_eq (hg : t.gen = s.gen) (hl : t.links = s.links) (hs : t.slots = s.slots) (n : LineNo)
    (was : Sup) : PoolMove s (leaveCall t n was) :=
  (PoolMove.of_eq hg hl hs).trans (leaveCall_move t n was)

theorem enterSettling_move (s : State) (n : LineNo) : PoolMove s (enterSettling s n) := by
  unfold enterSettling enterUnsensed
  dsimp only
  split
  · refine leaveCall_move_of_eq ?_ ?_ ?_ n _ <;> rfl
  · refine leaveCall_move_of_eq ?_ ?_ ?_ n _ <;> rfl

theorem unschedule_links (h : t.links = s.links) (n : LineNo) : (unschedule t n).links = (unschedule s n).links := by
  simp only [unschedule, State.modLink, State.link, h]

/-- Parking a line unschedules it besides (R131). -/
theorem parkLine_move (s : State) (n : LineNo) : PoolMove (unschedule s n) (parkLine s n) := by
  unfold parkLine
  refine leaveCall_move_of_eq ?_ (unschedule_links ?_ n) ?_ n _ <;> rfl

end Sys2Proof.Machine
end

section
/-! SUPPORT. The parts of an ASSIGN (R128 to R132): the end of the line's trace, and what it does by the line's service
to the line's record, the generator, the links and the slots. -/

namespace Sys2Proof.Machine

variable {s : State} {n : LineNo}

/-! ### The trace of the line -/

/-- The trace of a line, before RESTORING. -/
def tracedBy (s : State) (n : LineNo) (c : TraceCtx) : Prop := s.gen.ctx = .trace c ∧ c.line = n ∧ c.step ≠ .restoring

/-- The state in which a trace has ended ABORTED, but for its context (R154). -/
def traceAborted (s : State) (c : TraceCtx) (r : Reason) : State :=
  placeRelay (finishTrace (silence s) c .aborted r 2) c.line .normal .trace

theorem abortTraceOn_traced {c : TraceCtx} (h : tracedBy s n c) (r : Reason) :
    abortTraceOn s n r = { traceAborted s c r with
      gen := { (traceAborted s c r).gen with ctx := .trace { c with step := .restoring } } } := by
  obtain ⟨hctx, rfl, hstep⟩ := h
  simp only [abortTraceOn, tracing, endTrace, hctx, hstep, decide_true, if_true, if_false]
  rfl

theorem abortTraceOn_untraced (h : ∀ c, ¬tracedBy s n c) (r : Reason) : abortTraceOn s n r = s := by
  unfold abortTraceOn tracing endTrace
  cases hctx : s.gen.ctx with
  | none => rfl
  | check c => rfl
  | trace c =>
    by_cases hline : c.line = n
    · have hstep : c.step = .restoring := by_contra fun hs => h c ⟨hctx, hline, hs⟩
      simp [hstep]
    · simp [hline]

/-- The end of a trace, slots and generator apart, places a frame. -/
theorem traceAborted_move (s : State) (c : TraceCtx) :
    (traceAborted s c .lineChanged).lines = s.lines ∧ (traceAborted s c .lineChanged).unqueued = s.unqueued
      ∧ (traceAborted s c .lineChanged).gen.output = .silent ∧ SlotsFollow s (traceAborted s c .lineChanged) := by
  have hframe := endOrder_frame (silence s) c.slot
    { outcome := .aborted, reason := .lineChanged,
      detail := detail (2 :: detail16 (silence s) (toneSeconds (silence s) c.step)), result := none }
  refine ⟨(placeFrame_lines _ _ _).trans (congrArg State.lines hframe :),
    (placeFrame_unqueued _ _ _).trans (congrArg State.unqueued hframe :), ?_, ?_⟩
  · exact (congrArg GenRec.output (placeFrame_gen _ _ _)).trans (congrArg (fun t : State => t.gen.output) hframe :)
  · exact (endOrder_follows (s := silence s) (.inr ⟨rfl, rfl⟩)).trans (.of_slots (placeFrame_slots _ _ _))

theorem abortTraceOn_keeps (s : State) (n : LineNo) :
    (abortTraceOn s n .lineChanged).lines = s.lines ∧ (abortTraceOn s n .lineChanged).unqueued = s.unqueued
      ∧ SlotsFollow s (abortTraceOn s n .lineChanged) := by
  by_cases h : ∃ c, tracedBy s n c
  · obtain ⟨c, hc⟩ := h
    obtain ⟨hl, hq, -, hs⟩ := traceAborted_move s c
    rw [abortTraceOn_traced hc]
    exact ⟨hl, hq, hs⟩
  · rw [abortTraceOn_untraced (fun c hc => h ⟨c, hc⟩)]
    exact ⟨rfl, rfl, .refl s⟩

theorem abortTraceOn_ends (hx : s.exch = .running) {c : TraceCtx} (h : tracedBy s n c) :
    (abortTraceOn s n .lineChanged).gen.output = .silent
      ∧ ((abortTraceOn s n .lineChanged).slot c.slot).lineChanged := by
  rw [abortTraceOn_traced h]
  refine ⟨(traceAborted_move s c).2.2.1, ?_⟩
  show ((traceAborted s c .lineChanged).slot c.slot).lineChanged
  rw [traceAborted, placeRelay, placeFrame_slot]
  exact endOrder_lineChanged (s := silence s) hx c.slot ⟨rfl, rfl⟩

/-! ### The profile, and the end of the trace -/

/-- A line's record under another profile. -/
def LineRec.under (p : ProfNo) (r : LineRec) : LineRec := { r with profile := p }

/-- An ASSIGN before it turns to the line's service (R128). -/
def assigned (s : State) (n : LineNo) (p : ProfNo) : State :=
  abortTraceOn (s.modLine n (LineRec.under p)) n .lineChanged

section Assigned
variable {p : ProfNo}

theorem assigned_line (s : State) (n : LineNo) (p : ProfNo) : (assigned s n p).line n = (s.line n).under p := by
  have hl := (abortTraceOn_keeps (s.modLine n (LineRec.under p)) n).1
  rw [State.line, assigned, hl]
  exact State.line_modLine_same s n _

theorem assigned_noRcv (s : State) {n m : LineNo} (h : m ≠ n) (p : ProfNo) :
    ((assigned s n p).line m).noRcv = (s.line m).noRcv := by
  rw [assigned, abortTraceOn_noRcv, State.line_modLine_other s h]

theorem assigned_unqueued (s : State) (n : LineNo) (p : ProfNo) : (assigned s n p).unqueued = s.unqueued :=
  (abortTraceOn_keeps (s.modLine n (LineRec.under p)) n).2.1

theorem assigned_follows (s : State) (n : LineNo) (p : ProfNo) : SlotsFollow s (assigned s n p) :=
  (abortTraceOn_keeps (s.modLine n (LineRec.under p)) n).2.2

theorem assigned_engine (s : State) (n : LineNo) (p : ProfNo) : (assigned s n p).engine = s.engine :=
  abortTraceOn_engine (s.modLine n (LineRec.under p)) n .lineChanged

theorem assigned_untraced (h : tracing s n = false) : assigned s n p = s.modLine n (LineRec.under p) :=
  if_neg (by rw [show tracing (s.modLine n (LineRec.under p)) n = tracing s n from rfl, h]; decide)

theorem assigned_test (s : State) (n : LineNo) (p : ProfNo) (l : LinkNo) :
    ((assigned s n p).link l).test = (s.link l).test :=
  (congrArg LinkRec.test (link_unqueued (assigned_unqueued s n p) l) :)

theorem linkUp_assigned (s : State) (n : LineNo) (p : ProfNo) (l : LinkNo) : linkUp (assigned s n p) l = linkUp s l :=
  (congrArg (fun r : LinkRec => decide (r.state = .up)) (link_unqueued (assigned_unqueued s n p) l) :)

end Assigned

/-! ### The survey of the line -/

theorem abortSurvey_line (s : State) (n : LineNo) (r : Reason) :
    (abortSurvey s n r).line n = { s.line n with survey := none } := by
  unfold abortSurvey
  split
  · rw [State.line_modLine_same, finish, endOrder_line]
  · next h =>
    rw [← h]

theorem abortSurvey_move (s : State) (n : LineNo) : PoolMove s (abortSurvey s n .lineChanged) := by
  unfold abortSurvey
  split
  · next c _ =>
    have hframe := endOrder_frame s c.slot
      { outcome := .aborted, reason := .lineChanged, detail := detail (detail16 s c.accepted), result := none }
    exact ⟨(congrArg State.gen hframe :), (congrArg State.unqueued hframe :), endOrder_follows (.inr ⟨rfl, rfl⟩)⟩
  · exact .refl s

theorem abortSurvey_ends (hx : s.exch = .running) {c : SurveyCtx} (h : (s.line n).survey = some c) :
    ((abortSurvey s n .lineChanged).slot c.slot).lineChanged := by
  unfold abortSurvey
  rw [h]
  exact endOrder_lineChanged hx c.slot ⟨rfl, rfl⟩

/-! ### The calibration of the line -/

/-- A calibration record INTERRUPTED as its line is parked (R118). -/
def CalCtx.parked (c : CalCtx) (t : Word) (r : CalRec) : CalRec :=
  { r with status := .interrupted .lineChanged, s1 := c.s1.getD r.s1, time := t }

section Calibrating
variable {c : CalCtx}

theorem abortLine_line (hc : (s.line n).calCtx = some c) (hs : c.step ≠ .restoring) (o : OrderOutcome) (r : Reason) :
    (abortLine s n .lineChanged o r).line n = (s.line n).calEnded (c.parked s.time (s.line n).cal) := by
  unfold abortLine
  rw [hc]
  dsimp only
  rw [if_neg hs, lineFinished_line, toRestoring, modCal, State.line_modLine_same, placeRelay_line, restoreTrim_line,
    markRecord, State.line_modLine_same]
  rfl

theorem abortLine_restoring (hc : (s.line n).calCtx = some c) (hs : c.step = .restoring) (o : OrderOutcome)
    (r : Reason) : abortLine s n .lineChanged o r = s := by
  unfold abortLine
  rw [hc]
  exact if_pos hs

theorem abortLine_move (s : State) (n : LineNo) (o : OrderOutcome) (r : Reason) :
    PoolMove s (abortLine s n .lineChanged o r) := by
  unfold abortLine toRestoring modCal placeRelay restoreTrim placeTrim markRecord
  split
  · next c _ =>
    dsimp only
    split
    · exact .refl s
    · refine PoolMove.trans ?_ (lineFinished_move _ _ _ _ _)
      refine PoolMove.trans ?_ (modLine_move _ n _)
      refine PoolMove.trans ?_ (placeFrame_move _ _ _)
      refine PoolMove.trans ?_ (placeFrame_move _ _ _)
      exact modLine_move s n _
  · exact .refl s

/-- A calibrating line that is assigned ACTIVE (R132). -/
theorem assignCalibrating_active (hc : (s.line n).calCtx = some c) :
    (assignCalibrating s n true).line n = { s.line n with calCtx := some { c with toActive := true } } := by
  rw [assignCalibrating, if_pos rfl, modCal, State.line_modLine_same, hc]
  rfl

/-- A calibrating line that is assigned PARKED while it is released (R132, R118). -/
theorem assignCalibrating_restoring (hc : (s.line n).calCtx = some c) (hs : c.step = .restoring) :
    (assignCalibrating s n false).line n = { s.line n with calCtx := some { c with toActive := false } } := by
  have hline : (modCal s n fun c => { c with toActive := false }).line n
      = { s.line n with calCtx := some { c with toActive := false } } := by
    rw [modCal, State.line_modLine_same, hc]
    rfl
  rw [← hline, assignCalibrating, if_neg (by decide), abortLine_restoring (congrArg LineRec.calCtx hline) hs]

/-- A calibrating line that is assigned PARKED before that (R132, R118). -/
theorem assignCalibrating_parks (hc : (s.line n).calCtx = some c) (hs : c.step ≠ .restoring) :
    (assignCalibrating s n false).line n
      = { s.line n with cal := c.parked s.time (s.line n).cal,
                        calCtx := some { c with toActive := false, step := .restoring } } := by
  have hline : (modCal s n fun c => { c with toActive := false }).line n
      = { s.line n with calCtx := some { c with toActive := false } } := by
    rw [modCal, State.line_modLine_same, hc]
    rfl
  rw [assignCalibrating, if_neg (by decide), abortLine_line (congrArg LineRec.calCtx hline) hs, hline]
  rfl

theorem assignCalibrating_move (s : State) (n : LineNo) (active : Bool) :
    PoolMove s (assignCalibrating s n active) := by
  have hcal : PoolMove s (modCal s n fun c => { c with toActive := active }) := modLine_move s n _
  unfold assignCalibrating
  dsimp only
  split
  · exact hcal
  · exact hcal.trans (abortLine_move _ n _ _)

end Calibrating

/-! ### The insulation test of the line -/

section Testing
variable {c : TestCtx}

/-- A line's test under another return service. -/
def testTo (s : State) (n : LineNo) (active : Bool) : State :=
  modTest s (linkOf n) fun c => if c.line = n then { c with toActive := active } else c

theorem testTo_test (hc : (s.link (linkOf n)).test = some c) (hn : c.line = n) (active : Bool) :
    ((testTo s n active).link (linkOf n)).test = some { c with toActive := active } := by
  rw [testTo, modTest, State.link_modLink_same, hc]
  exact congrArg some (if_pos hn)

theorem assignTesting_active (s : State) (n : LineNo) : assignTesting s n true = testTo s n true := rfl

theorem assignTesting_park (hc : (s.link (linkOf n)).test = some c) (hn : c.line = n) :
    assignTesting s n false = if c.step = .restoring then testTo s n false
      else endTest (testTo s n false) { c with toActive := false } .none .aborted .lineChanged := by
  have htest := testTo_test hc hn false
  rw [testTo] at htest
  simp only [assignTesting, Bool.false_eq_true, if_false, htest, hn, if_true, abortTest]
  rfl

theorem endTest_follows (s : State) (c : TestCtx) (v : Verdict) :
    SlotsFollow s (endTest s c v .aborted .lineChanged) :=
  (endOrder_follows (.inr ⟨rfl, rfl⟩)).trans (.of_slots (placeFrame_slots _ _ _))

theorem endTest_gen (s : State) (c : TestCtx) (v : Verdict) (o : OrderOutcome) (r : Reason) :
    (endTest s c v o r).gen = s.gen :=
  (placeFrame_gen _ _ _).trans (congrArg State.gen (endOrder_frame s c.slot _) :)

/-- An ASSIGN of a TESTING line changes no line and leaves the generator (R132). -/
theorem assignTesting_keeps (s : State) (n : LineNo) (active : Bool) :
    (assignTesting s n active).lines = s.lines ∧ (assignTesting s n active).gen = s.gen
      ∧ SlotsFollow s (assignTesting s n active) := by
  have hto : SlotsFollow s (testTo s n active) := .of_slots rfl
  have habort : ∀ l, (abortTest (testTo s n active) l .lineChanged).lines = s.lines
      ∧ (abortTest (testTo s n active) l .lineChanged).gen = s.gen
      ∧ SlotsFollow s (abortTest (testTo s n active) l .lineChanged) := by
    intro l
    unfold abortTest
    split
    · split
      · exact ⟨rfl, rfl, hto⟩
      · exact ⟨endTest_lines _ _ _ _ _, endTest_gen _ _ _ _ _, hto.trans (endTest_follows _ _ _)⟩
    · exact ⟨rfl, rfl, hto⟩
  unfold assignTesting
  dsimp only
  split
  · exact ⟨rfl, rfl, hto⟩
  split
  · split
    · exact habort (linkOf n)
    · exact ⟨rfl, rfl, hto⟩
  · exact ⟨rfl, rfl, hto⟩

end Testing

end Sys2Proof.Machine
end

section
/-! O12: an ASSIGN acts by the line's service (R128 to R132). -/

namespace Sys2Proof.Machine

variable {s : State} {n : LineNo} {p : ProfNo}

/-! ### The line's service -/

/-- What an ASSIGN does to a line of a service (R129 to R132). -/
def assignServed (v : Service) (s : State) (n : LineNo) (active : Bool) : State :=
  match v with
  | .parked => assignParked s n active
  | .active => assignActive s n active
  | .calibrating => assignCalibrating s n active
  | .testing => assignTesting s n active

theorem assignLine_eq (s : State) (n : LineNo) (p : ProfNo) (active : Bool) :
    assignLine s n p active = assignServed (s.line n).service (assigned s n p) n active := by
  have hv : (s.line n).service = ((assigned s n p).line n).service := by rw [assigned_line]; rfl
  rw [hv]
  rfl

/-- Made ACTIVE, and ceased to be scheduled. -/
def madeActive (s : State) (n : LineNo) : State := unschedule (s.modLine n fun r => { r with service := .active }) n

theorem assignParked_active (s : State) (n : LineNo) : assignParked s n true = enterSettling (madeActive s n) n := rfl

theorem assignActive_parks (s : State) (n : LineNo) :
    assignActive s n false = parkLine (abortSurvey s n .lineChanged) n := rfl

theorem madeActive_line (s : State) (n : LineNo) : (madeActive s n).line n = { s.line n with service := .active } := by
  rw [madeActive, unschedule, State.line_modLink, State.line_modLine_same]

theorem linkUp_unschedule (s : State) (n : LineNo) (l : LinkNo) : linkUp (unschedule s n) l = linkUp s l := by
  simp only [linkUp, unschedule, State.link_modLink_ite]
  split
  · next h => rw [h]
  · rfl

/-- A line that ceases to be scheduled has no SAMPLE left to send (R129, R131). -/
theorem unschedule_toSample (s : State) (n : LineNo) : pairOf n ∉ ((unschedule s n).link (linkOf n)).toSample := by
  simp [unschedule]

/-- A move of the pool leaves the SAMPLEs that a link has to send. -/
theorem PoolMove.toSample {s t : State} (h : PoolMove s t) (l : LinkNo) : (t.link l).toSample = (s.link l).toSample :=
  (congrArg LinkRec.toSample (link_unqueued h.links l) :)

/-! ### Whatever the service -/

/-- The generator stands and the slots follow. -/
theorem assignServed_spares (v : Service) (s : State) (n : LineNo) (active : Bool) :
    (assignServed v s n active).gen = s.gen ∧ SlotsFollow s (assignServed v s n active) := by
  cases v with
  | parked =>
    cases active with
    | false => exact ⟨rfl, .refl s⟩
    | true =>
      have hm := enterSettling_move (madeActive s n) n
      exact ⟨hm.gen, (SlotsFollow.of_slots rfl).trans hm.slots⟩
  | active =>
    cases active with
    | true => exact ⟨rfl, .refl s⟩
    | false =>
      have ha := abortSurvey_move s n
      have hm := parkLine_move (abortSurvey s n .lineChanged) n
      exact ⟨hm.gen.trans ha.gen, ha.slots.trans ((SlotsFollow.of_slots rfl).trans hm.slots)⟩
  | calibrating =>
    have hm := assignCalibrating_move s n active
    exact ⟨hm.gen, hm.slots⟩
  | testing => exact (assignTesting_keeps s n active).2

theorem assignLine_follows (s : State) (n : LineNo) (p : ProfNo) (active : Bool) :
    SlotsFollow s (assignLine s n p active) := by
  rw [assignLine_eq]
  exact (assigned_follows s n p).trans (assignServed_spares _ _ n active).2

/-- A trace of the line has ended, the generator silent (R128). -/
theorem assignLine_ends (hx : s.exch = .running) {c : TraceCtx} (h : tracedBy s n c) (p : ProfNo) (active : Bool) :
    (assignLine s n p active).gen.output = .silent ∧ ((assignLine s n p active).slot c.slot).lineChanged := by
  obtain ⟨hgen, hslot⟩ := abortTraceOn_ends (s := s.modLine n (LineRec.under p)) hx (c := c) h
  obtain ⟨hg, hs⟩ := assignServed_spares (s.line n).service (assigned s n p) n active
  rw [assignLine_eq, hg]
  exact ⟨hgen, (hs c.slot).ended hslot⟩

/-- No other line changes but in its receiver. -/
theorem assignLine_noRcv (s : State) {m : LineNo} (h : m ≠ n) (p : ProfNo) (active : Bool) :
    ((assignLine s n p active).line m).noRcv = (s.line m).noRcv := by
  rw [assignLine_eq, ← assigned_noRcv s h p]
  generalize assigned s n p = t
  cases (s.line n).service with
  | parked =>
    cases active with
    | false => rfl
    | true =>
      rw [assignServed, assignParked_active, enterSettling_noRcv _ n h, madeActive, unschedule_noRcv,
        State.line_modLine_other t h]
  | active =>
    cases active with
    | true => rfl
    | false => rw [assignServed, assignActive_parks, parkLine_noRcv _ n h, abortSurvey_noRcv t n _ h]
  | calibrating =>
    unfold assignServed assignCalibrating
    cases active with
    | true => exact modCal_noRcv t n _ h
    | false => exact (abortLine_noRcv _ n _ _ _ h).trans (modCal_noRcv t n _ h)
  | testing =>
    rw [assignServed, State.line, (assignTesting_keeps t n active).1]
    rfl

/-! ### Each service -/

/-- A PARKED line made ACTIVE (R129). -/
theorem assignLine_activates (h : (s.line n).service = .parked) :
    ((assignLine s n p true).line n).noRcv
        = ({ (s.line n).under p with service := .active }.entered (linkUp s (linkOf n))).noRcv
      ∧ pairOf n ∉ ((assignLine s n p true).link (linkOf n)).toSample := by
  rw [assignLine_eq, h, assignServed, assignParked_active]
  constructor
  · rw [enterSettling_record, madeActive_line, assigned_line, madeActive, linkUp_unschedule]
    exact congrArg (fun up => (LineRec.entered up _).noRcv) (linkUp_assigned s n p (linkOf n))
  · rw [(enterSettling_move _ n).toSample]
    exact unschedule_toSample _ n

/-- An ASSIGN that leaves the service as it is, of a line without a trace (R129, R130). -/
theorem assignLine_stays {active : Bool}
    (h : (s.line n).service = .parked ∧ active = false ∨ (s.line n).service = .active ∧ active = true)
    (ht : tracing s n = false) : assignLine s n p active = s.modLine n (LineRec.under p) := by
  rw [assignLine_eq, assigned_untraced ht]
  rcases h with ⟨hv, rfl⟩ | ⟨hv, rfl⟩
  · rw [hv]; rfl
  · rw [hv]; rfl

/-- An ACTIVE line that is parked, but for its receiver (R131). -/
theorem assignLine_parks (h : (s.line n).service = .active) :
    ((assignLine s n p false).line n).noRcv = { (s.line n).under p with survey := none }.parked.noRcv
      ∧ pairOf n ∉ ((assignLine s n p false).link (linkOf n)).toSample := by
  rw [assignLine_eq, h, assignServed, assignActive_parks]
  constructor
  · rw [parkLine_record, abortSurvey_line, assigned_line]
  · rw [(parkLine_move _ n).toSample]
    exact unschedule_toSample _ n

/-- Its survey ends ABORTED, LINE_CHANGED (R131). -/
theorem assignLine_surveyed (hx : s.exch = .running) (h : (s.line n).service = .active) {c : SurveyCtx}
    (hc : (s.line n).survey = some c) : ((assignLine s n p false).slot c.slot).lineChanged := by
  have hrun : (assigned s n p).exch = .running := (congrArg Engine.exch (assigned_engine s n p) :).trans hx
  have hsurvey : ((assigned s n p).line n).survey = some c := by rw [assigned_line]; exact hc
  rw [assignLine_eq, h, assignServed, assignActive_parks]
  exact ((parkLine_move _ n).slots c.slot).ended (abortSurvey_ends hrun hsurvey)

/-- A line that is parked has nothing of the pool (R49, R131). -/
theorem assignLine_outOfPool (hs : ServicesSound s) (hp : PoolSound s) (h : (s.line n).service = .active) :
    ((assignLine s n p false).line n).receiver = none ∧ ∀ e ∈ (assignLine s n p false).waiting, e.line ≠ n := by
  have hsound : CallsSound True s := ⟨servicesSound_iff.mp hs, fun _ => poolSound_iff.mp hp⟩
  have hafter := (assignLine_sound hsound n p false).pool trivial
  have hparked : ((assignLine s n p false).line n).service = .parked :=
    (congrArg LineRec.service (assignLine_parks h).1 :)
  obtain ⟨hrcv, hwait⟩ := hafter.apart (n := n) fun hin => by
    have hact : ((assignLine s n p false).line n).service = .active := hin.1
    rw [hparked] at hact
    cases hact
  rw [calls_waiters] at hwait
  exact ⟨hrcv, fun e he heq => hwait (List.mem_map.mpr ⟨e, he, heq⟩)⟩

section Calibrating
variable {c : CalCtx}

theorem assigned_calCtx (hc : (s.line n).calCtx = some c) : ((assigned s n p).line n).calCtx = some c := by
  rw [assigned_line]
  exact hc

theorem assignLine_cal_active (hv : (s.line n).service = .calibrating) (hc : (s.line n).calCtx = some c) :
    (assignLine s n p true).line n = { (s.line n).under p with calCtx := some { c with toActive := true } } := by
  rw [assignLine_eq, hv, assignServed, assignCalibrating_active (assigned_calCtx hc), assigned_line]

theorem assignLine_cal_restoring (hv : (s.line n).service = .calibrating) (hc : (s.line n).calCtx = some c)
    (hs : c.step = .restoring) :
    (assignLine s n p false).line n = { (s.line n).under p with calCtx := some { c with toActive := false } } := by
  rw [assignLine_eq, hv, assignServed, assignCalibrating_restoring (assigned_calCtx hc) hs, assigned_line]

theorem assignLine_cal_parks (hv : (s.line n).service = .calibrating) (hc : (s.line n).calCtx = some c)
    (hs : c.step ≠ .restoring) :
    (assignLine s n p false).line n
      = { (s.line n).under p with cal := c.parked s.time (s.line n).cal,
                                  calCtx := some { c with toActive := false, step := .restoring } } := by
  have htime : (assigned s n p).time = s.time := (congrArg Engine.time (assigned_engine s n p) :)
  rw [assignLine_eq, hv, assignServed, assignCalibrating_parks (assigned_calCtx hc) hs, assigned_line, htime]
  rfl

end Calibrating

section Testing
variable {c : TestCtx}

theorem assignLine_testing_line (hv : (s.line n).service = .testing) (active : Bool) :
    (assignLine s n p active).line n = (s.line n).under p := by
  rw [assignLine_eq, hv, assignServed, State.line, (assignTesting_keeps (assigned s n p) n active).1]
  exact assigned_line s n p

theorem assignLine_test_active (hv : (s.line n).service = .testing) (hc : (s.link (linkOf n)).test = some c)
    (hn : c.line = n) :
    ((assignLine s n p true).link (linkOf n)).test = some { c with toActive := true } := by
  rw [assignLine_eq, hv, assignServed, assignTesting_active]
  exact testTo_test ((assigned_test s n p _).trans hc) hn true

theorem assignLine_test_parks (hv : (s.line n).service = .testing) (hc : (s.link (linkOf n)).test = some c)
    (hn : c.line = n) :
    ((assignLine s n p false).link (linkOf n)).test = some { c with toActive := false, step := .restoring } := by
  have htest : ((assigned s n p).link (linkOf n)).test = some c := (assigned_test s n p _).trans hc
  rw [assignLine_eq, hv, assignServed, assignTesting_park htest hn]
  split
  · next hs => rw [testTo_test htest hn, ← hs]
  · subst hn
    exact endTest_test _ _ _ _ _

/-- A test before RESTORING ends ABORTED, LINE_CHANGED (R132, R104). -/
theorem assignLine_test_ends (hx : s.exch = .running) (hv : (s.line n).service = .testing)
    (hc : (s.link (linkOf n)).test = some c) (hn : c.line = n) (hs : c.step ≠ .restoring) :
    ((assignLine s n p false).slot c.slot).lineChanged := by
  have hrun : (testTo (assigned s n p) n false).exch = .running :=
    (congrArg Engine.exch (assigned_engine s n p) :).trans hx
  rw [assignLine_eq, hv, assignServed, assignTesting_park ((assigned_test s n p _).trans hc) hn, if_neg hs,
    endTest_slot (c := { c with toActive := false }) (.inl hrun)]
  exact ⟨rfl, rfl⟩

end Testing

/-! ### What any ASSIGN keeps of the line -/

/-- A line's profile and its digits. -/
def LineRec.carried (r : LineRec) : ProfNo × List DigitEntry × Nat := (r.profile, r.queue, r.lost)

theorem carried_of_noRcv {a b : LineRec} (h : a.noRcv = b.noRcv) : a.carried = b.carried :=
  (congrArg LineRec.carried h :)

theorem entered_carried (up : Bool) (r : LineRec) : (r.entered up).carried = r.carried := by
  cases up <;> rfl

theorem abortLine_carried (s : State) (n : LineNo) (cause : IntCause) (o : OrderOutcome) (r : Reason) :
    ((abortLine s n cause o r).line n).carried = (s.line n).carried := by
  unfold abortLine
  split
  · dsimp only
    split
    · rfl
    · rw [lineFinished_line, toRestoring, modCal, State.line_modLine_same, placeRelay_line, restoreTrim_line,
        markRecord, State.line_modLine_same]
      rfl
  · rfl

theorem assignServed_carried (v : Service) (s : State) (n : LineNo) (active : Bool) :
    ((assignServed v s n active).line n).carried = (s.line n).carried := by
  cases v with
  | parked =>
    cases active with
    | false => rfl
    | true =>
      rw [assignServed, assignParked_active, carried_of_noRcv (enterSettling_record _ n), entered_carried,
        madeActive_line]
      rfl
  | active =>
    cases active with
    | true => rfl
    | false =>
      rw [assignServed, assignActive_parks, carried_of_noRcv (parkLine_record _ n), abortSurvey_line]
      rfl
  | calibrating =>
    have hcal : ((modCal s n fun c => { c with toActive := active }).line n).carried = (s.line n).carried := by
      rw [modCal, State.line_modLine_same]
      rfl
    cases active with
    | true => exact hcal
    | false => exact (abortLine_carried _ n _ _ _).trans hcal
  | testing => rw [assignServed, State.line, (assignTesting_keeps s n active).1]; rfl

/-- The profile is the one named, and the digits stay (R128, R131). -/
theorem assignLine_carried (s : State) (n : LineNo) (p : ProfNo) (active : Bool) :
    ((assignLine s n p active).line n).carried = (p, (s.line n).queue, (s.line n).lost) := by
  rw [assignLine_eq, assignServed_carried, assigned_line]
  rfl

/-! ### The order, check by check -/

section Order
variable {k : SlotNo} {o : OrderRead}

theorem dispatch_assign (h : kindOf o = 1) : dispatch none s k o = .ok (orderAssign s k o) := by
  unfold dispatch
  rw [h]
  rfl

theorem orderAssign_absent (hrun : s.exch = .running) (hp : presentLine s (lineOf o) = none) :
    orderAssign s k o = answered s k .refused .badLine [] := by
  rw [orderAssign, hp]
  exact refuse_empty hrun k _

theorem orderAssign_badParam (hrun : s.exch = .running) (hp : presentLine s (lineOf o) = some n)
    (h : 8 ≤ param8 o 0 ∨ 1 < param8 o 1) :
    orderAssign s k o = answered s k .refused .badParam (assignDetail s n) := by
  rw [orderAssign, hp]
  dsimp only
  split
  · rw [if_pos (by omega)]
    exact refuse_answered hrun k _ (by simp [assignDetail])
  · exact refuse_answered hrun k _ (by simp [assignDetail])

theorem orderAssign_named (hp : presentLine s (lineOf o) = some n) (hprof : param8 o 0 = p.1) (hv : param8 o 1 ≤ 1) :
    orderAssign s k o =
      if param8 o 1 = 1 ∧ (s.profile p).valid = false then
        refuse s k .profileInvalid (assignDetail s n ++ [(firstFailing s.period (s.profile p).ms).getD 0])
      else complete (assignLine s n p (decide (param8 o 1 = 1))) k
        (assignDetail (assignLine s n p (decide (param8 o 1 = 1))) n) := by
  have hlt : param8 o 0 < 8 := hprof ▸ p.2
  have hpe : (⟨param8 o 0, hlt⟩ : ProfNo) = p := Fin.ext hprof
  rw [orderAssign, hp]
  dsimp only
  rw [dif_pos hlt, if_neg (by omega), hpe]
  simp only [decide_eq_true_eq, Bool.not_eq_true]

theorem orderAssign_invalid (hrun : s.exch = .running) (hp : presentLine s (lineOf o) = some n)
    (hprof : param8 o 0 = p.1) (hv : param8 o 1 = 1) (hbad : (s.profile p).valid = false) {c : Nat}
    (hc : firstFailing s.period (s.profile p).ms = some c) :
    orderAssign s k o = answered s k .refused .profileInvalid (assignDetail s n ++ [c]) := by
  rw [orderAssign_named hp hprof (by omega), if_pos ⟨hv, hbad⟩, hc]
  exact refuse_answered hrun k _ (by simp [assignDetail])

theorem orderAssign_done (hrun : s.exch = .running) (hp : presentLine s (lineOf o) = some n)
    (hprof : param8 o 0 = p.1) (hv : param8 o 1 = 0 ∨ param8 o 1 = 1 ∧ (s.profile p).valid = true) :
    orderAssign s k o
      = answered (assignLine s n p (decide (param8 o 1 = 1))) k .done .none
          (assignDetail (assignLine s n p (decide (param8 o 1 = 1))) n) := by
  have hx : (assignLine s n p (decide (param8 o 1 = 1))).exch = .running :=
    (congrArg Engine.exch (assignLine_engine s n p _) :).trans hrun
  have hok : ¬(param8 o 1 = 1 ∧ (s.profile p).valid = false) := by
    rintro ⟨h1, hbad⟩
    rcases hv with h0 | ⟨-, hgood⟩
    · omega
    · rw [hbad] at hgood
      cases hgood
  rw [orderAssign_named hp hprof (by omega), if_neg hok]
  exact complete_running hx k (by simp [assignDetail])

end Order

/-! ### The parts of the obligation -/

/-- A completion leaves a slot as it leaves the slot that this one follows. -/
theorem answered_follows {t : State} {k : SlotNo} (h : (s.slot k).Follows (t.slot k)) (o : OrderOutcome) (r : Reason)
    (d : List Nat) : (answered t k o r d).slot k = (answered s k o r d).slot k := by
  simp only [answered, State.slot_modSlot_same, h.accepted, h.completion]

/-- An order ended in another slot stays ended. -/
theorem answered_ended {j k : SlotNo} (hj : j ≠ k) (h : (s.slot j).lineChanged) (o : OrderOutcome) (r : Reason)
    (d : List Nat) :
    ((answered s k o r d).slot j).due.map (fun d => (d.outcome, d.reason)) = some (.aborted, .lineChanged) := by
  rw [answered, State.slot_modSlot_other s hj]
  exact h.2

theorem activated_fields (hv : (s.line n).service = .parked) :
    let w := assignLine s n p true
    (w.line n).service = .active ∧ (w.line n).fault = restored (s.line n).fault
      ∧ (w.line n).sup = (if (s.link (linkOf n)).state = .up then .settling else .unsensed)
      ∧ (w.line n).rate = .full ∧ pairOf n ∉ (w.link (linkOf n)).toSample
      ∧ ((s.link (linkOf n)).state = .up → (w.line n).seedPending = true ∧ (w.line n).accepted = .none) := by
  obtain ⟨hrec, hsample⟩ := assignLine_activates (p := p) hv
  intro w
  by_cases hup : (s.link (linkOf n)).state = .up
  · rw [show linkUp s (linkOf n) = true from decide_eq_true hup] at hrec
    rw [if_pos hup]
    exact ⟨(congrArg LineRec.service hrec :), (congrArg LineRec.fault hrec :), (congrArg LineRec.sup hrec :),
      (congrArg LineRec.rate hrec :), hsample,
      fun _ => ⟨(congrArg LineRec.seedPending hrec :), (congrArg LineRec.accepted hrec :)⟩⟩
  · rw [show linkUp s (linkOf n) = false from decide_eq_false hup] at hrec
    rw [if_neg hup]
    exact ⟨(congrArg LineRec.service hrec :), (congrArg LineRec.fault hrec :), (congrArg LineRec.sup hrec :),
      (congrArg LineRec.rate hrec :), hsample, fun h => absurd h hup⟩

/-- A profile written leaves what the detail shows of the line. -/
theorem answered_under (s : State) (n : LineNo) (p : ProfNo) (k : SlotNo) :
    answered (s.modLine n (LineRec.under p)) k .done .none (assignDetail (s.modLine n (LineRec.under p)) n)
      = answered (s.modLine n fun x => { x with profile := p }) k .done .none (assignDetail s n) := by
  simp only [assignDetail, State.line_modLine_same]
  rfl

/-- The work on a CALIBRATING line takes the new return service; a park interrupts it (R132, R118). -/
theorem assignLine_cal_fields {c : CalCtx} (hv : (s.line n).service = .calibrating) (hc : (s.line n).calCtx = some c)
    (active : Bool) :
    let w := (assignLine s n p active).line n
    w.service = .calibrating
      ∧ (active = true → w.calCtx = some { c with toActive := true })
      ∧ (active = false → w.calCtx = some { c with toActive := false, step := .restoring })
      ∧ (active = true ∨ c.step = .restoring → w.cal = (s.line n).cal)
      ∧ (active = false → c.step ≠ .restoring → w.cal = c.parked s.time (s.line n).cal) := by
  cases active with
  | true =>
    rw [assignLine_cal_active hv hc]
    exact ⟨hv, fun _ => rfl, nofun, fun _ => rfl, nofun⟩
  | false =>
    by_cases hs : c.step = .restoring
    · rw [assignLine_cal_restoring hv hc hs]
      exact ⟨hv, nofun, fun _ => by rw [← hs], fun _ => rfl, fun _ h => absurd hs h⟩
    · rw [assignLine_cal_parks hv hc hs]
      exact ⟨hv, nofun, fun _ => rfl, fun h => h.elim nofun (absurd · hs), fun _ _ => rfl⟩

/-- Settles O12: the checks in order, then the effect on the line by its service. -/
theorem assignActsByTheService : Obligations.AssignActsByTheService := by
  intro s k o hrun hkind hsound hpool
  rw [dispatch_assign hkind]
  refine ⟨fun hp => by rw [orderAssign_absent hrun hp], fun n hp => ?_⟩
  intro r shown
  refine ⟨fun h => by rw [orderAssign_badParam hrun hp h]; rfl, fun p hprof => ⟨fun c h1 hbad hc => ?_, fun hv => ?_⟩⟩
  · rw [orderAssign_invalid hrun hp hprof h1 hbad hc]
    rfl
  refine ⟨_, congrArg BusRes.ok (orderAssign_done hrun hp hprof hv), ?_⟩
  have ha1 : param8 o 1 = 1 → decide (param8 o 1 = 1) = true := decide_eq_true
  have ha0 : param8 o 1 = 0 → decide (param8 o 1 = 1) = false := fun h => decide_eq_false (by omega)
  generalize decide (param8 o 1 = 1) = active at ha1 ha0 ⊢
  have hcarried := assignLine_carried s n p active
  have hstays := assignLine_stays (s := s) (n := n) (p := p) (active := active)
  refine ⟨?_, answered_follows (assignLine_follows s n p active k) _ _ _, (congrArg (·.1) hcarried :),
    (congrArg (·.2.1) hcarried :), (congrArg (·.2.2) hcarried :),
    fun m hm => sameButReceiver_of_noRcv (assignLine_noRcv s hm p active), assignLine_engine s n p active,
    fun c hctx hline hstep hslot => ?_, fun hv h1 => ?_, fun hv h0 ht => ?_, fun hv h1 ht => ?_, fun hv h0 => ?_,
    fun c hc => ?_, fun c hc hn => ?_⟩
  · rw [answered, State.slot_modSlot_same]
  · obtain ⟨hgen, hend⟩ := assignLine_ends hrun ⟨hctx, hline, hstep⟩ p active
    exact ⟨hgen, answered_ended hslot hend _ _ _⟩
  · obtain rfl := ha1 h1
    exact activated_fields hv
  · rw [hstays (.inl ⟨hv, ha0 h0⟩) ht]
    exact answered_under s n p k
  · rw [hstays (.inr ⟨hv, ha1 h1⟩) ht]
    exact answered_under s n p k
  · obtain rfl := ha0 h0
    obtain ⟨hrec, hsample⟩ := assignLine_parks (p := p) hv
    obtain ⟨hrcv, hwait⟩ := assignLine_outOfPool (p := p) hsound hpool hv
    exact ⟨(congrArg LineRec.service hrec :), (congrArg LineRec.sup hrec :), (congrArg LineRec.b hrec :),
      (congrArg LineRec.make hrec :), (congrArg LineRec.firstDigit hrec :), (congrArg LineRec.dialEnd hrec :),
      (congrArg LineRec.pulses hrec :), (congrArg LineRec.ret hrec :), (congrArg LineRec.candidate hrec :),
      (congrArg LineRec.run hrec :), (congrArg LineRec.accepted hrec :), (congrArg LineRec.rate hrec :), hrcv, hwait,
      (congrArg LineRec.fault hrec :), (congrArg LineRec.survey hrec :), (congrArg LineRec.cal hrec :),
      (congrArg LineRec.aVt hrec :), (congrArg LineRec.aVr hrec :), (congrArg LineRec.aI hrec :), hsample,
      fun c hc hslot => answered_ended hslot (assignLine_surveyed hrun hv hc) _ _ _⟩
  · obtain ⟨hserv, hto1, hto0, hkept, hparked⟩ :=
      assignLine_cal_fields (p := p) (hsound.calibrating n (Option.isSome_of_eq_some hc)) hc active
    exact ⟨hserv, fun h1 => hto1 (ha1 h1), fun h0 => hto0 (ha0 h0), fun h => hkept (h.imp_left ha1),
      fun h0 => hparked (ha0 h0)⟩
  · have hv := hn ▸ (hsound.testing (linkOf n) c hc).2
    refine ⟨(congrArg LineRec.service (assignLine_testing_line hv active)).trans hv, fun h1 => ?_, fun h0 => ?_,
      fun h0 hs hslot => ?_⟩
    · obtain rfl := ha1 h1
      exact assignLine_test_active hv hc hn
    · obtain rfl := ha0 h0
      exact assignLine_test_parks hv hc hn
    · obtain rfl := ha0 h0
      exact answered_ended hslot (assignLine_test_ends hrun hv hc hn hs) _ _ _

end Sys2Proof.Machine
end

section
/-! SUPPORT. The links kept in order (R136, R137, R139, R140): calls, receivers and waiting lines keep to the links of a
set E, no TAP CLEAR ALL waits there, and the links of a set U are UP. With the links that are neither down nor newly UP
for both sets this is the invariant of the links; every operation keeps it for one pair of sets, but for the loss of a
link, which takes the link out of both. Here the records and the pool. -/

namespace Sys2Proof.Machine

/-! ### The invariant -/

/-- The links that a receiver is tied to: its tap's, and that of the line it serves. -/
def RcvState.ties : RcvState → List LinkNo
  | .free => []
  | .connecting e tap _ => [tap.link, linkOf e.line]
  | .listening e tap => [tap.link, linkOf e.line]
  | .releasing tap _ _ => [tap.link]
  | .checking _ => []
  | .stranded _ _ => []
  | .outOfService _ => []

/-- A receiver is tied to the link of its tap, and to that of the line it serves. -/
theorem mem_ties_iff {r : RcvState} {l : LinkNo} :
    l ∈ r.ties ↔ busyOn l r = true ∨ ∃ e, grantedEntry r = some e ∧ linkOf e.line = l := by
  cases r <;> simp [RcvState.ties, busyOn, grantedEntry, eq_comm]

/-- A link's record in order: its queue keyed; nothing under way while it is not UP; a TAP CLEAR ALL that waits stands
first, with nothing else under way and no TAP frame behind it. None waits if calls may run on the link (`e`), and the
link is UP if it must be (`u`). -/
structure LinkRec.Ordered (e u : Prop) (r : LinkRec) : Prop where
  keyed : queueKeyed r
  down : r.state ≠ .up →
    r.queue = [] ∧ r.retry = none ∧ (r.exchange = none ∨ r.exchange = some .probe) ∧ r.toSample = []
  clearing : Frame.tapClearAll ∈ r.queue →
    r.queue.head? = some .tapClearAll ∧ r.exchange = none ∧ r.retry = none ∧ r.toSample = []
    ∧ ∀ f ∈ r.queue, ∀ k, keyOf f ≠ some (.tap k)
  cleared : e → Frame.tapClearAll ∉ r.queue
  up : u → r.state = .up

/-- Calls, receivers and waiting lines keep to the links of E, and the links are in order. -/
def Confined (E U : LinkNo → Prop) (s : State) : Prop :=
  (∀ n, isCall (s.line n).sup = true → E (linkOf n)) ∧ (∀ k, ∀ l ∈ (s.rcv k).ties, E l)
    ∧ (∀ e ∈ s.waiting, E (linkOf e.line)) ∧ ∀ l, (s.link l).Ordered (E l) (U l)

variable {E U : LinkNo → Prop} {s t : State} {n : LineNo} {k : RcvNo} {l : LinkNo}

theorem Confined.calls (h : Confined E U s) (hn : isCall (s.line n).sup = true) : E (linkOf n) := h.1 n hn

theorem Confined.receivers (h : Confined E U s) {r : RcvState} (hk : s.rcv k = r) : ∀ l ∈ r.ties, E l :=
  hk ▸ h.2.1 k

theorem Confined.waiters (h : Confined E U s) : ∀ e ∈ s.waiting, E (linkOf e.line) := h.2.2.1

theorem Confined.links (h : Confined E U s) (l : LinkNo) : (s.link l).Ordered (E l) (U l) := h.2.2.2 l

/-- A state that differs outside the supervision states of the lines, the links, the receivers and the list. -/
theorem Confined.frame (h : Confined E U s) (hl : ∀ n, (t.line n).sup = (s.line n).sup) (hk : t.links = s.links)
    (hr : t.rcvs = s.rcvs) (hw : t.waiting = s.waiting) : Confined E U t := by
  refine ⟨fun n hn => h.calls (hl n ▸ hn), fun k => ?_, hw ▸ h.waiters, fun l => ?_⟩
  · rw [State.rcv, hr]
    exact h.receivers rfl
  · rw [State.link, hk]
    exact h.links l

theorem Confined.foldl {α : Type} {f : State → α → State} (hf : ∀ s y, Confined E U s → Confined E U (f s y))
    (l : List α) (h : Confined E U s) : Confined E U (l.foldl f s) :=
  List.foldlRecOn l f h fun s hs y _ => hf s y hs

/-- What is done only where it is due. -/
theorem Confined.ite {u : State} {c : Prop} [Decidable c] (hu : Confined E U u) (h : Confined E U s) :
    Confined E U (if c then u else s) := by
  split
  · exact hu
  · exact h

/-! ### Updates of the records -/

/-- A line may enter a call on a link of E. -/
theorem Confined.modLine (h : Confined E U s) (n : LineNo) {f : LineRec → LineRec}
    (hf : isCall (f (s.line n)).sup = true → E (linkOf n)) : Confined E U (s.modLine n f) := by
  refine ⟨fun m hm => ?_, h.2⟩
  rw [State.line_modLine_ite] at hm
  split at hm
  · next e => exact e ▸ hf hm
  · exact h.calls hm

theorem Confined.modLine_same (h : Confined E U s) (n : LineNo) {f : LineRec → LineRec}
    (hf : (f (s.line n)).sup = (s.line n).sup) : Confined E U (s.modLine n f) :=
  h.modLine n fun hn => h.calls (hf ▸ hn)

/-- A line outside a call. -/
theorem Confined.modLine_out (h : Confined E U s) (n : LineNo) {f : LineRec → LineRec}
    (hf : isCall (f (s.line n)).sup = false) : Confined E U (s.modLine n f) :=
  h.modLine n fun hn => absurd (hf.symm.trans hn) (by decide)

theorem Confined.modLink (h : Confined E U s) (l : LinkNo) {f : LinkRec → LinkRec}
    (hf : (f (s.link l)).Ordered (E l) (U l)) : Confined E U (s.modLink l f) := by
  refine ⟨h.1, h.2.1, h.2.2.1, fun m => ?_⟩
  rw [State.link_modLink_ite]
  split
  · next e => exact e ▸ hf
  · exact h.links m

/-- A receiver may be tied to links of E. -/
theorem Confined.setRcv (h : Confined E U s) (k : RcvNo) {r : RcvState} (hr : ∀ l ∈ r.ties, E l) :
    Confined E U (s.setRcv k r) := by
  refine ⟨h.1, fun j => ?_, h.2.2⟩
  rw [State.rcv_setRcv_ite]
  split
  · exact hr
  · exact h.receivers rfl

/-- A receiver tied as before. -/
theorem Confined.retie (h : Confined E U s) {r q : RcvState} (hk : s.rcv k = r) (hq : q.ties = r.ties) :
    Confined E U (s.setRcv k q) :=
  h.setRcv k (hq ▸ h.receivers hk)

theorem Confined.startListening (h : Confined E U s) (k : RcvNo) {r : RcvState} (hr : ∀ l ∈ r.ties, E l) :
    Confined E U (s.startListening k r) := by
  refine ⟨h.1, fun j => ?_, h.2.2⟩
  rw [State.rcv_startListening_ite]
  split
  · exact hr
  · exact h.receivers rfl

/-- Lines of links of E may wait. -/
theorem Confined.enlist (h : Confined E U s) {w : List WaitEntry} (hw : ∀ e ∈ w, E (linkOf e.line)) :
    Confined E U { s with waiting := w } := ⟨h.1, h.2.1, hw, h.2.2.2⟩

/-! ### Links -/

theorem keyOf_eq_clearAll {f : Frame} : keyOf f = some .clearAll ↔ f = .tapClearAll := by
  cases f <;> simp [keyOf]

section Record
variable {e u : Prop} {r : LinkRec}

/-- What a link has to send, and has sent, is the same. -/
theorem LinkRec.Ordered.congr (h : r.Ordered e u) {r' : LinkRec} (hs : r'.state = r.state) (hq : r'.queue = r.queue)
    (hy : r'.retry = r.retry) (hx : r'.exchange = r.exchange) (ht : r'.toSample = r.toSample) : r'.Ordered e u := by
  obtain ⟨hk, hd, hc, he, hu⟩ := h
  unfold queueKeyed at hk
  constructor
  · unfold queueKeyed
    rwa [hq]
  · rwa [hs, hq, hy, hx, ht]
  · rwa [hq, hx, hy, ht]
  · rwa [hq]
  · rwa [hs]

/-- The exchange of a link ends. -/
theorem LinkRec.Ordered.idle (h : r.Ordered e u) : { r with exchange := none }.Ordered e u :=
  ⟨h.keyed, fun hd => by obtain ⟨h1, h2, -, h4⟩ := h.down hd; exact ⟨h1, h2, .inl rfl, h4⟩,
    fun hc => by obtain ⟨h1, -, h3⟩ := h.clearing hc; exact ⟨h1, rfl, h3⟩, h.cleared, h.up⟩

/-- Fewer SAMPLE frames are left to send. -/
theorem LinkRec.Ordered.samples (h : r.Ordered e u) {l : List PairNo} (hl : r.toSample = [] → l = []) :
    { r with toSample := l }.Ordered e u :=
  ⟨h.keyed, fun hd => by obtain ⟨h1, h2, h3, h4⟩ := h.down hd; exact ⟨h1, h2, h3, hl h4⟩,
    fun hc => by obtain ⟨h1, h2, h3, h4, h5⟩ := h.clearing hc; exact ⟨h1, h2, h3, hl h4, h5⟩, h.cleared, h.up⟩

/-- While no TAP CLEAR ALL waits on an UP link its sending is free. -/
theorem LinkRec.Ordered.free (h : r.Ordered e u) (hup : r.state = .up) {q : List Frame} (hq : q.Sublist r.queue)
    (hc : Frame.tapClearAll ∉ q) {y x : Option Frame} {l : List PairNo} :
    { r with queue := q, retry := y, exchange := x, toSample := l }.Ordered e u :=
  ⟨⟨h.keyed.1.sublist (hq.map keyOf), fun f hf => h.keyed.2 f (hq.subset hf)⟩, fun hd => absurd hup hd,
    fun hm => absurd hm hc, fun _ => hc, fun _ => hup⟩

/-- A queue of other frames than a waiting TAP CLEAR ALL loses one of them. -/
theorem LinkRec.Ordered.erase (h : r.Ordered e u) {f : Frame} (hf : f ≠ .tapClearAll) :
    { r with queue := r.queue.erase f }.Ordered e u := by
  have hsub : (r.queue.erase f).Sublist r.queue := List.erase_sublist
  refine ⟨⟨h.keyed.1.sublist (hsub.map keyOf), fun g hg => h.keyed.2 g (hsub.subset hg)⟩, fun hd => ?_, fun hm => ?_,
    fun he hm => h.cleared he (hsub.subset hm), h.up⟩
  · obtain ⟨h1, h2⟩ := h.down hd
    exact ⟨by rw [h1]; rfl, h2⟩
  · obtain ⟨h1, h2, h3, h4, h5⟩ := h.clearing (hsub.subset hm)
    refine ⟨?_, h2, h3, h4, fun g hg => h5 g (hsub.subset hg)⟩
    obtain ⟨q, hq⟩ := List.head?_eq_some_iff.mp h1
    show (r.queue.erase f).head? = _
    rw [hq, List.erase_cons_tail (by simpa using hf.symm)]
    rfl

/-- A control frame is placed on an UP link; a TAP frame, on one that is not clearing its taps. -/
theorem LinkRec.Ordered.place (h : r.Ordered e u) (hup : r.state = .up) {f : Frame} (hk : keyOf f ≠ none)
    (hc : f ≠ .tapClearAll) (ht : ∀ k, keyOf f = some (.tap k) → e) :
    { r with queue := queuePlace f r.queue }.Ordered e u := by
  have hmem : Frame.tapClearAll ∈ queuePlace f r.queue → Frame.tapClearAll ∈ r.queue := fun hm =>
    (queuePlace_subset f r.queue _ hm).resolve_left fun hx => hc hx.symm
  refine ⟨⟨queuePlace_nodup f r.queue h.keyed.1, fun g hg => ?_⟩, fun hd => absurd hup hd, fun hm => ?_,
    fun he hm => h.cleared he (hmem hm), h.up⟩
  · rcases queuePlace_subset f r.queue g hg with rfl | hg
    · exact hk
    · exact h.keyed.2 g hg
  · obtain ⟨h1, h2, h3, h4, h5⟩ := h.clearing (hmem hm)
    refine ⟨?_, h2, h3, h4, fun g hg j hj => ?_⟩
    · obtain ⟨q, hq⟩ := List.head?_eq_some_iff.mp h1
      show (queuePlace f r.queue).head? = _
      have hne : keyOf Frame.tapClearAll ≠ keyOf f := fun hx => hc (keyOf_eq_clearAll.mp hx.symm)
      rw [hq, queuePlace, if_neg hne]
      rfl
    · rcases queuePlace_subset f r.queue g hg with rfl | hg
      · exact h.cleared (ht j hj) (hmem hm)
      · exact h5 g hg j hj

end Record

theorem placeFrame_confined (h : Confined E U s) {f : Frame} (hk : keyOf f ≠ none) (hc : f ≠ .tapClearAll)
    (ht : ∀ k, keyOf f = some (.tap k) → E l) : Confined E U (placeFrame s l f) := by
  unfold placeFrame
  split
  · next hup => exact h.modLink l ((h.links l).place (of_decide_eq_true hup) hk hc ht)
  · exact h

theorem placeTrim_confined (h : Confined E U s) (n : LineNo) (range : TrimRange) (code : TrimCode) (o : TrimOwner) :
    Confined E U (placeTrim s n range code o) :=
  placeFrame_confined h (by simp [keyOf]) (by simp) fun _ e => by simp [keyOf] at e

theorem placeRelay_confined (h : Confined E U s) (n : LineNo) (cfg : RelayCfg) (o : RelayOwner) :
    Confined E U (placeRelay s n cfg o) :=
  placeFrame_confined h (by simp [keyOf]) (by simp) fun _ e => by simp [keyOf] at e

theorem unschedule_confined (h : Confined E U s) (n : LineNo) : Confined E U (unschedule s n) :=
  h.modLink _ ((h.links _).samples fun e => by rw [e]; rfl)

/-! ### Marks and orders -/

theorem markImage_confined (h : Confined E U s) (n : LineNo) : Confined E U (markImage s n) := by
  rw [markImage_eq]
  exact h.modLine_same n (f := fun r => { r with changePending := true }) rfl

theorem markPace_confined (h : Confined E U s) (n : LineNo) : Confined E U (markPace s n) := by
  rw [markPace_eq]
  exact h.modLine_same n (f := fun r => { r with pacePending := true }) rfl

theorem markChanges_confined (h : Confined E U t) (s : State) : Confined E U (markChanges s t) :=
  h.frame (fun n => by rw [markChanges_line]) (markChanges_links s t) (markChanges_rcvs s t) (markChanges_waiting s t)

theorem Confined.eachLine {f : State → LineNo → State} (hf : ∀ s n, Confined E U s → Confined E U (f s n))
    (l : List LineNo) (h : Confined E U s) : Confined E U (eachLine f l s) :=
  Confined.foldl (fun s n hs => (markImage_confined (hf s n hs) n).ite (hf s n hs)) l h

theorem setReceiver_confined (h : Confined E U s) (n : LineNo) (k : Option RcvNo) :
    Confined E U (setReceiver s n k) := by
  unfold setReceiver
  split
  · exact h
  · exact markImage_confined (h.modLine_same n (f := fun r => { r with receiver := k }) rfl) n

/-! ### Grants and releases -/

theorem withdrawConnect_confined (h : Confined E U s) (l : LinkNo) (p : PairNo) (k : RcvNo) :
    Confined E U (withdrawFrame s l (.tapConnect p k)) :=
  h.modLink l ((h.links l).erase (by simp))

/-- A TAP frame goes to a link of E. -/
theorem placeTap_confined (h : Confined E U s) {f : Frame} (hk : keyOf f = some (.tap k)) (hl : E l) :
    Confined E U (placeFrame s l f) :=
  placeFrame_confined h (by simp [hk]) (by rintro rfl; simp [keyOf] at hk) fun _ _ => hl

theorem grant_confined (h : Confined E U s) {e : WaitEntry} (he : E (linkOf e.line)) (k : RcvNo) :
    Confined E U (grant s e k) := by
  have hties : ∀ l ∈ (RcvState.connecting e (tapOf e.line) .queued).ties, E l := by
    simp [RcvState.ties, tapOf, he]
  have h1 := h.setRcv k hties
  refine placeTap_confined (setReceiver_confined ?_ e.line (some k)) rfl he
  split
  · exact h1
  · exact h1

theorem grantLoop_confined (fuel : Nat) (h : Confined E U s) : Confined E U (grantLoop fuel s) := by
  induction fuel generalizing s with
  | zero => exact h
  | succ fuel ih =>
    unfold grantLoop
    split
    · next e rest k hw _ =>
      have hall := h.waiters
      rw [hw] at hall
      have hrest : Confined E U { s with waiting := rest } := h.enlist fun x hx => hall x (.tail _ hx)
      exact ih (grant_confined hrest (hall e (.head _)) k)
    · exact h

theorem grantTest_confined (h : Confined E U s) : Confined E U (grantTest s) := grantLoop_confined 8 h

/-- A line of a link of E joins the list. -/
theorem Confined.insertTail (h : Confined E U s) {e : WaitEntry} (he : E (linkOf e.line)) :
    Confined E U { s with waiting := insertTail e s.waiting } := by
  refine h.enlist fun x hx => ?_
  rcases List.mem_cons.mp ((insertTail_perm e s.waiting).mem_iff.mp hx) with rfl | hx
  · exact he
  · exact h.waiters x hx

theorem Confined.insertHead (h : Confined E U s) {e : WaitEntry} (he : E (linkOf e.line)) :
    Confined E U { s with waiting := insertHead e s.waiting } := by
  refine h.enlist fun x hx => ?_
  rcases List.mem_cons.mp ((insertHead_perm e s.waiting).mem_iff.mp hx) with rfl | hx
  · exact he
  · exact h.waiters x hx

theorem join_confined (h : Confined E U s) (hn : E (linkOf n)) : Confined E U (join s n) := by
  unfold join
  split
  · exact grantTest_confined (h.insertTail hn)
  · exact h

/-- A receiver that is let go is FREE, or OUT_OF_SERVICE. -/
theorem freedState_ties (out : Bool) : (freedState out).ties = [] := by cases out <;> rfl

/-- A receiver comes to be tied to no link. -/
theorem Confined.untie (h : Confined E U s) (k : RcvNo) {r : RcvState} (hr : r.ties = []) :
    Confined E U (s.setRcv k r) :=
  h.setRcv k fun l hl => by rw [hr] at hl; cases hl

theorem releaseRcv_confined (h : Confined E U s) (k : RcvNo) (out : Bool) :
    Confined E U (releaseRcv s k out) := by
  have hmove (n : LineNo) {r : RcvState} (hr : ∀ l ∈ r.ties, E l) :
      Confined E U ((setReceiver s n none).setRcv k r) := (setReceiver_confined h n none).setRcv k hr
  unfold releaseRcv
  split
  · next e tap ph hk =>
    obtain ⟨htap, -⟩ : E tap.link ∧ E (linkOf e.line) := by simpa [RcvState.ties] using h.receivers hk
    have htaps (p : ReleasePhase) : ∀ l ∈ (RcvState.releasing tap p out).ties, E l := by simp [RcvState.ties, htap]
    dsimp only
    split
    · split
      · exact (withdrawConnect_confined (setReceiver_confined h e.line none) _ _ _).untie k (freedState_ties out)
      · exact hmove e.line (htaps _)
      · exact placeTap_confined (hmove e.line (htaps _)) rfl htap
    · exact hmove e.line (by simp [RcvState.ties])
  · next e tap hk =>
    obtain ⟨htap, -⟩ : E tap.link ∧ E (linkOf e.line) := by simpa [RcvState.ties] using h.receivers hk
    dsimp only
    split
    · exact placeTap_confined (hmove e.line (by simp [RcvState.ties, htap])) rfl htap
    · exact hmove e.line (by simp [RcvState.ties])
  · exact h

theorem release_confined (h : Confined E U s) (k : RcvNo) : Confined E U (release s k) :=
  grantTest_confined (releaseRcv_confined h k false)

theorem removeWaiting_confined (h : Confined E U s) (n : LineNo) : Confined E U (removeWaiting s n) :=
  h.enlist fun e he => h.waiters e (List.mem_of_mem_filter he)

/-! ### Orders and LISTEN -/

theorem endOrder_confined (h : Confined E U s) (k : SlotNo) (c : Completion) : Confined E U (endOrder s k c) := by
  unfold endOrder
  split
  · exact h
  · exact h

theorem finish_confined (h : Confined E U s) (k : SlotNo) (o : OrderOutcome) (r : Reason) (d : List Nat) :
    Confined E U (finish s k o r d) := endOrder_confined h k _

theorem refuse_confined (h : Confined E U s) (k : SlotNo) (r : Reason) (d : List Nat) :
    Confined E U (refuse s k r d) := finish_confined h k _ r d

theorem complete_confined (h : Confined E U s) (k : SlotNo) (d : List Nat) : Confined E U (complete s k d) :=
  finish_confined h k _ _ d

theorem finishListen_confined (h : Confined E U s) (k : SlotNo) (o : OrderOutcome) (r : Reason) :
    Confined E U (finishListen s k o r) := by
  unfold finishListen
  split
  · exact finish_confined h k o r _
  · exact h

theorem surrender_confined (h : Confined E U s) (n : LineNo) : Confined E U (surrender s n) := by
  have hrel : Confined E U (match (s.line n).receiver with | some k => release s k | none => s) := by
    split
    · exact release_confined h _
    · exact h
  unfold surrender
  dsimp only
  split
  · exact finishListen_confined (removeWaiting_confined hrel n) _ _ _
  · exact removeWaiting_confined hrel n

theorem policyRelease_confined (h : Confined E U s) (n : LineNo) : Confined E U (policyRelease s n) := by
  unfold policyRelease
  split
  · exact h
  split
  · exact release_confined h _
  · exact removeWaiting_confined h n

theorem orderListen_confined (h : Confined E U s) (k : SlotNo) (o : OrderRead) :
    Confined E U (orderListen s k o) := by
  have hrefuse (r : Reason) : Confined E U (refuse s k r []) := refuse_confined h k r []
  unfold orderListen
  split
  · exact hrefuse _
  next n _ =>
    split
    · exact hrefuse _
    next hheld =>
      have hn : E (linkOf n) := h.calls (by rw [(not_not.mp hheld).2]; rfl)
      split
      · exact hrefuse _
      split
      · exact hrefuse _
      extract_lets seconds c s1 s2
      have h1 : Confined E U s1 := h
      refine grantTest_confined ?_
      show Confined E U (if _ then _ else _)
      split
      · refine h1.enlist fun e he => ?_
        obtain ⟨x, hx, rfl⟩ := List.mem_map.mp he
        split
        · exact h1.waiters x hx
        · exact h1.waiters x hx
      · exact h1.insertTail hn

theorem dropListen_confined (h : Confined E U s) (k : SlotNo) : Confined E U (dropListen s k) := by
  unfold dropListen
  split
  · exact release_confined h _
  · refine h.enlist fun e he => ?_
    obtain ⟨x, hx, hxe⟩ := List.mem_filterMap.mp he
    have hline : e.line = x.line := by
      split at hxe
      · split at hxe
        · cases hxe
        · cases hxe; rfl
      · cases hxe; rfl
    rw [hline]
    exact h.waiters x hx

theorem expireListen_confined (h : Confined E U s) (k : SlotNo) : Confined E U (expireListen s k) := by
  unfold expireListen
  split
  · exact finishListen_confined (dropListen_confined h k) _ _ _
  · exact finishListen_confined (dropListen_confined h k) _ _ _

theorem abortListen_confined (h : Confined E U s) (k : SlotNo) (r : Reason) : Confined E U (abortListen s k r) :=
  finishListen_confined (dropListen_confined h k) _ _ _

theorem countDigit_confined (h : Confined E U s) (k : RcvNo) : Confined E U (countDigit s k) := by
  unfold countDigit
  split
  · exact h
  · exact h

/-! ### Replies to TAP frames, guards and RECEIVER SERVICE -/

theorem tapTaken_confined (h : Confined E U s) (k : RcvNo) : Confined E U (tapTaken s k) := by
  unfold tapTaken
  split
  · next hk => exact h.retie hk rfl
  · exact h

theorem tapConnectAnswered_confined (h : Confined E U s) (k : RcvNo) (ack : Bool) :
    Confined E U (tapConnectAnswered s k ack) := by
  unfold tapConnectAnswered
  split
  · next e tap hk =>
    obtain ⟨-, he⟩ : E tap.link ∧ E (linkOf e.line) := by simpa [RcvState.ties] using h.receivers hk
    split
    · exact h.retie hk rfl
    · exact grantTest_confined ((setReceiver_confined (h.untie k rfl) e.line none).insertHead he)
  · next tap out hk =>
    split
    · have hsent : Confined E U (s.setRcv k (.releasing tap .awaitDisconnectAck out)) := h.retie hk rfl
      exact placeTap_confined hsent rfl (h.receivers hk _ (.head _))
    · exact h.untie k rfl
  · exact h

theorem tapDisconnectAnswered_confined (h : Confined E U s) (k : RcvNo) (ack : Bool) :
    Confined E U (tapDisconnectAnswered s k ack) := by
  unfold tapDisconnectAnswered
  split
  · split
    · exact grantTest_confined (h.untie k (freedState_ties _))
    · exact h.untie k rfl
  · exact h

theorem tapClearAnswered_confined (h : Confined E U s) (l : LinkNo) (ack : Bool) :
    Confined E U (tapClearAnswered s l ack) := by
  refine grantTest_confined (h.foldl (fun s k hs => ?_) allRcvs)
  split
  · refine hs.untie k ?_
    split
    · exact freedState_ties _
    · rfl
  · exact hs

theorem guardEnds_confined (h : Confined E U s) (k : RcvNo) : Confined E U (guardEnds s k) := by
  unfold guardEnds
  split
  · next hk =>
    split
    · exact h.startListening k (r := .listening _ _) fun l hl => h.receivers hk l hl
    · exact h
  · exact h

theorem serviceOut_confined (h : Confined E U s) (k : RcvNo) : Confined E U (serviceOut s k) := by
  have hbusy (e : WaitEntry) (he : E (linkOf e.line)) : Confined E U (serviceOutBusy s k e) :=
    grantTest_confined ((releaseRcv_confined h k true).insertHead he)
  unfold serviceOut
  split
  · exact h.untie k rfl
  · next hk => exact hbusy _ (h.receivers hk _ (.tail _ (.head _)))
  · next hk => exact hbusy _ (h.receivers hk _ (.tail _ (.head _)))
  · next hk => exact h.retie hk rfl
  · exact h.untie k rfl
  · exact h
  · exact h

theorem serviceIn_confined (h : Confined E U s) (k : RcvNo) : Confined E U (serviceIn s k) := by
  unfold serviceIn
  split
  · exact grantTest_confined (h.untie k rfl)
  · exact h

theorem orderReceiverService_confined (h : Confined E U s) (k : SlotNo) (o : OrderRead) :
    Confined E U (orderReceiverService s k o) := by
  unfold orderReceiverService
  split
  · dsimp only
    split
    · split
      · exact refuse_confined h k _ _
      · exact complete_confined (serviceOut_confined h _) k _
    split
    · exact complete_confined (serviceIn_confined h _) k _
    · exact refuse_confined h k _ _
  · exact refuse_confined h k _ _

end Sys2Proof.Machine
end

section
/-! SUPPORT. The links kept in order, continued: supervision and the tone generator. -/

namespace Sys2Proof.Machine

variable {E U : LinkNo → Prop} {s t : State} {n : LineNo} {k : RcvNo} {l : LinkNo}

/-! ### Supervision: entries to states -/

theorem setFull_confined (h : Confined E U s) (n : LineNo) : Confined E U (setFull s n) :=
  h.modLine_same n (f := fun r => { r with rate := .full, quiet := 0 }) rfl

theorem faultEvent_confined (h : Confined E U s) (n : LineNo) (kind : Cls) : Confined E U (faultEvent s n kind) :=
  h.modLine_same n (f := fun r =>
    { r with fault := some (recordFault kind s.time (measure (s.conv n).thr kind r) r.fault) }) rfl

theorem restoreFault_confined (h : Confined E U s) (n : LineNo) : Confined E U (restoreFault s n) :=
  h.modLine_same n (f := fun r => { r with fault := r.fault.map fun f => { f with active := false } }) rfl

theorem restoreMinor_confined (h : Confined E U s) (n : LineNo) : Confined E U (restoreMinor s n) :=
  h.modLine_same n (f := fun r =>
    { r with fault := r.fault.map fun f => if f.latest = .leak then { f with active := false } else f }) rfl

theorem queueEntry_confined (h : Confined E U s) (n : LineNo) (y : Symbol) (c : Source) (p : Nat) :
    Confined E U (queueEntry s n y c p) :=
  h.modLine_same n (pushEntry_sup _ _ _ _ _)

theorem leaveCall_confined (h : Confined E U s) (n : LineNo) (was : Sup) : Confined E U (leaveCall s n was) := by
  unfold leaveCall
  split
  · exact surrender_confined h n
  · exact h

theorem completeDigit_confined (h : Confined E U s) (n : LineNo) : Confined E U (completeDigit s n) := by
  unfold completeDigit
  extract_lets r p s1 s2 s3
  have h2 : Confined E U s2 := (queueEntry_confined h n _ _ _).modLine_same n rfl
  have h3 : Confined E U s3 := h2.modLine_same n rfl
  clear_value s2 s3
  split
  · exact h2
  split
  · exact policyRelease_confined h3 n
  · exact h3

/-- The completion of a digit where it is due. -/
theorem completeDigitIf_confined (h : Confined E U s) (n : LineNo) (c : Prop) [Decidable c] :
    Confined E U (if c then completeDigit s n else s) :=
  (completeDigit_confined h n).ite h

theorem enterOnHook_confined (h : Confined E U s) (n : LineNo) : Confined E U (enterOnHook s n) := by
  unfold enterOnHook
  extract_lets was eco s1 s2
  have h1 : Confined E U s1 := h.modLine_out n rfl
  exact leaveCall_confined ((faultEvent_confined h1 n .leak).ite h1) n was

theorem enterLockout_confined (h : Confined E U s) (n : LineNo) : Confined E U (enterLockout s n) :=
  leaveCall_confined (h.modLine_out n rfl) n _

theorem enterFault_confined (h : Confined E U s) (n : LineNo) (kind : Cls) :
    Confined E U (enterFault s n kind) :=
  leaveCall_confined (faultEvent_confined (setFull_confined (h.modLine_out n rfl) n) n kind) n _

theorem enterUnsensed_confined (h : Confined E U s) (n : LineNo) : Confined E U (enterUnsensed s n) :=
  leaveCall_confined (restoreFault_confined (setFull_confined (h.modLine_out n rfl) n) n) n _

theorem enterSettling_confined (h : Confined E U s) (n : LineNo) : Confined E U (enterSettling s n) := by
  unfold enterSettling
  split
  · exact leaveCall_confined (restoreFault_confined (setFull_confined (h.modLine_out n rfl) n) n) n _
  · exact enterUnsensed_confined h n

theorem parkLine_confined (h : Confined E U s) (n : LineNo) : Confined E U (parkLine s n) :=
  leaveCall_confined
    (unschedule_confined (restoreFault_confined (setFull_confined (h.modLine_out n rfl) n) n) n) n _

theorem suspendLine_confined (h : Confined E U s) (n : LineNo) (v : Service) : Confined E U (suspendLine s n v) :=
  restoreFault_confined (setFull_confined (h.modLine_out n rfl) n) n

theorem releaseLine_confined (h : Confined E U s) (n : LineNo) (toActive : Bool) :
    Confined E U (releaseLine s n toActive) := by
  unfold releaseLine
  split
  · exact enterSettling_confined (h.modLine_same n (f := fun r => { r with service := .active }) rfl) n
  · exact unschedule_confined (h.modLine_out n rfl) n

/-! ### Supervision: makes, breaks and digits -/

/-- The join of a line of a link of E under tone dialling (R28, R36, R48). -/
theorem joinIf_confined (h : Confined E U s) (hn : E (linkOf n)) (c : Prop) [Decidable c] :
    Confined E U (if c then join s n else s) :=
  (join_confined h hn).ite h

theorem seize_confined (h : Confined E U s) (hn : E (linkOf n)) (a : Nat) : Confined E U (seize s n a) :=
  joinIf_confined (setFull_confined (h.modLine n fun _ => hn) n) hn _

theorem flash_confined (h : Confined E U s) (hn : E (linkOf n)) : Confined E U (flash s n) :=
  joinIf_confined ((queueEntry_confined h n _ _ _).modLine n fun _ => hn) hn _

theorem endBreak_confined (h : Confined E U s) (hn : E (linkOf n)) : Confined E U (endBreak s n) :=
  h.modLine n fun _ => hn

theorem judgeMake_confined (h : Confined E U s) (hn : E (linkOf n)) (m : Nat) : Confined E U (judgeMake s n m) := by
  unfold judgeMake
  extract_lets p d s1 s2
  have h1 : Confined E U s1 := h.modLine_same n rfl
  have h2 : Confined E U s2 := completeDigitIf_confined h1 n _
  clear_value s2
  split
  · exact endBreak_confined h2 hn
  split
  · exact h2.modLine n fun _ => hn
  split
  · exact flash_confined h2 hn
  · exact endBreak_confined (queueEntry_confined h2 n _ _ _) hn

theorem acceptInCall_confined (h : Confined E U s) (hn : E (linkOf n)) (r : Ret) (c : Cls) (a : Nat) :
    Confined E U (acceptInCall s n r c a) := by
  unfold acceptInCall
  split
  · exact h.modLine n fun _ => hn
  split
  · exact enterFault_confined h n c
  · exact h

theorem transition_confined (h : Confined E U s) (hn : E (linkOf n)) (c : Cls) (a : Nat) :
    Confined E U (transition s n c a) := by
  have hfault : Confined E U (if isFaultCls c then enterFault s n c else s) := (enterFault_confined h n c).ite h
  unfold transition
  split
  case h_1 =>
    split
    · exact enterOnHook_confined h n
    split
    · exact h.modLine n fun _ => hn
    · exact hfault
  case h_2 =>
    split
    · exact seize_confined h hn a
    split
    · exact faultEvent_confined h n .leak
    · exact hfault
  case h_3 => exact acceptInCall_confined h hn _ c a
  case h_4 => exact acceptInCall_confined h hn _ c a
  case h_5 => exact acceptInCall_confined h hn _ c a
  case h_6 =>
    split
    · exact judgeMake_confined h hn a
    · exact hfault
  case h_7 =>
    split
    · exact h.modLine_same n rfl
    · exact hfault
  case h_8 =>
    split
    · exact enterFault_confined h n c
    split
    · exact enterOnHook_confined (restoreFault_confined h n) n
    split
    · exact enterLockout_confined (restoreFault_confined h n) n
    · exact h
  all_goals exact h

theorem takeAcceptance_confined (h : Confined E U s) (hn : E (linkOf n)) (old c : Cls) (a : Nat) :
    Confined E U (takeAcceptance s n old c a) := by
  unfold takeAcceptance
  extract_lets s1
  have h1 : Confined E U s1 := (restoreMinor_confined h n).ite h
  clear_value s1
  split
  · exact Confined.ite (h1.modLine_same n rfl) h1
  · exact transition_confined h1 hn c a

theorem testLimits_confined (h : Confined E U s) (hn : E (linkOf n)) : Confined E U (testLimits s n) := by
  unfold testLimits
  split
  · unfold limitsInBreak
    extract_lets s1
    have h1 : Confined E U s1 := completeDigitIf_confined h n _
    clear_value s1
    split
    · exact enterOnHook_confined h1 n
    · exact (enterLockout_confined h1 n).ite h1
  · unfold limitsInDialling
    extract_lets s1
    have h1 : Confined E U s1 := completeDigitIf_confined h n _
    clear_value s1
    refine Confined.ite ?_ h1
    unfold dialEndTimesOut
    extract_lets s2 s3
    have h3 : Confined E U s3 := (completeDigitIf_confined h1 n _).modLine n fun _ => hn
    exact (policyRelease_confined h3 n).ite h3
  · exact (enterLockout_confined h n).ite h
  · exact (enterOnHook_confined h n).ite h
  all_goals exact h

/-- A tone digit is delivered to a line in a call, which stays in one (R40). -/
theorem toneDigit_confined (h : Confined E U s) (n : LineNo) (y : Symbol) : Confined E U (toneDigit s n y) := by
  unfold toneDigit
  split
  · next hcall => exact (queueEntry_confined h n _ _ _).modLine n fun _ => h.calls hcall
  · exact h

theorem deliver_confined (h : Confined E U s) (k : RcvNo) (n : LineNo) (y : Symbol) :
    Confined E U (deliver s k n y) :=
  countDigit_confined (toneDigit_confined h n y) k

/-! ### TRACE -/

theorem finishTrace_confined (h : Confined E U s) (c : TraceCtx) (o : OrderOutcome) (r : Reason) (code : Nat) :
    Confined E U (finishTrace s c o r code) := finish_confined h _ _ _ _

theorem orderTrace_confined (h : Confined E U s) (k : SlotNo) (o : OrderRead) : Confined E U (orderTrace s k o) := by
  have hrefuse (r : Reason) : Confined E U (refuse s k r []) := refuse_confined h k r []
  unfold orderTrace
  split
  · exact hrefuse _
  split
  · exact hrefuse _
  split
  · exact hrefuse _
  split
  · exact hrefuse _
  split
  · exact hrefuse _
  · unfold takeTrace
    extract_lets seconds c s1 g s2 s3
    have h2 : Confined E U s2 := h
    exact placeRelay_confined (h2.modLine_same _ rfl) _ _ _

theorem endTrace_confined (h : Confined E U s) (o : OrderOutcome) (r : Reason) (code : Nat) :
    Confined E U (endTrace s o r code) := by
  unfold endTrace
  split
  · split
    · exact h
    · extract_lets s1 s2 s3
      have h3 : Confined E U s3 := placeRelay_confined (finishTrace_confined (s := silence s) h _ _ _ _) _ _ _
      clear_value s3
      exact h3
  · exact h

theorem abortTraceOn_confined (h : Confined E U s) (n : LineNo) (r : Reason) :
    Confined E U (abortTraceOn s n r) :=
  (endTrace_confined h _ _ _).ite h

theorem removeTrace_confined (h : Confined E U s) (c : TraceCtx) : Confined E U (removeTrace s c) := by
  have h1 : Confined E U { silence s with gen := { (silence s).gen with ctx := .none } } := h
  exact h1.modLine_same c.line rfl

theorem traceLinkLost_confined (h : Confined E U s) (l : LinkNo) : Confined E U (traceLinkLost s l) := by
  unfold traceLinkLost
  split
  · split
    · refine removeTrace_confined ?_ _
      split
      · exact h
      · exact finishTrace_confined h _ _ _ _
    · exact h
  · exact h

theorem traceRelayAnswered_confined (h : Confined E U s) (n : LineNo) (cfg : RelayCfg) (ack : Bool) :
    Confined E U (traceRelayAnswered s n cfg ack) := by
  unfold traceRelayAnswered
  split
  · split
    · exact h
    split
    · split
      · exact h
      split
      · exact h
      · exact endTrace_confined h _ _ _
    · exact h
    · exact (removeTrace_confined h _).ite h
  · exact h

theorem traceExpires_confined (h : Confined E U s) : Confined E U (traceExpires s) := by
  unfold traceExpires
  split
  · exact (endTrace_confined h _ _ _).ite h
  · exact h

theorem warble_confined (h : Confined E U s) : Confined E U (warble s) := by
  unfold warble
  split
  · split
    · split
      · exact h
      · exact h
    · exact h
    · exact h
  · exact h

/-! ### RECEIVER CHECK and the end of a block -/

theorem setCheckChannels_confined (h : Confined E U s) (c : CheckCtx) : Confined E U (setCheckChannels s c) := by
  unfold setCheckChannels
  dsimp only
  split
  · exact h
  · exact h

theorem takeCheck_confined (h : Confined E U s) (k : SlotNo) (o : OrderRead) (j : RcvNo) (digits : List Symbol)
    (prior : Option OutReason) : Confined E U (takeCheck s k o j digits prior) := by
  have hj : Confined E U ((takeFlight s k .check).startListening j (.checking prior)) :=
    Confined.startListening (s := takeFlight s k .check) h j (by simp [RcvState.ties])
  refine setCheckChannels_confined ?_ _
  exact hj

theorem orderReceiverCheck_confined (h : Confined E U s) (k : SlotNo) (o : OrderRead) :
    Confined E U (orderReceiverCheck s k o) := by
  have hrefuse (r : Reason) : Confined E U (refuse s k r []) := refuse_confined h k r []
  unfold orderReceiverCheck
  split
  · dsimp only
    split
    · exact hrefuse _
    split
    · exact hrefuse _
    split
    · exact hrefuse _
    split
    · exact hrefuse _
    · exact takeCheck_confined h k o _ _ _
  · exact hrefuse _

theorem ofPrior_ties (p : Option OutReason) : (ofPrior p).ties = [] := by cases p <;> rfl

theorem afterCheck_ties (c : CheckCtx) (p : Option OutReason) : (afterCheck c p).ties = [] := by
  unfold afterCheck
  split
  · rfl
  · exact ofPrior_ties p

theorem closeCheck_confined (h : Confined E U s) (c : CheckCtx) {r : RcvState} (hr : r.ties = []) :
    Confined E U (closeCheck s c r) := by
  refine grantTest_confined ?_
  exact Confined.untie (s := silence s) h c.rcv hr

theorem abortCheck_confined (h : Confined E U s) (r : Reason) : Confined E U (abortCheck s r) := by
  unfold abortCheck
  split
  · exact closeCheck_confined (finish_confined h _ _ _ _) _ (ofPrior_ties _)
  · exact h

theorem checkBlock_confined (h : Confined E U s) (c : CheckCtx) (accepted : Option Symbol) :
    Confined E U (checkBlock s c accepted) := by
  unfold checkBlock
  extract_lets c1 c2 g s1
  split
  · exact closeCheck_confined (complete_confined h _ _) _ (afterCheck_ties _ _)
  · exact setCheckChannels_confined (s := s1) h _

theorem blockEnds_confined (h : Confined E U s) (k : RcvNo) (v : BlockLevels) :
    Confined E U (blockEnds s k v) := by
  unfold blockEnds
  split
  · extract_lets a next
    have hnext : Confined E U next := h
    clear_value next
    split
    · split
      · exact deliver_confined hnext _ _ _
      · exact hnext
    · split
      · exact (checkBlock_confined hnext _ _).ite hnext
      · exact hnext
    · exact h
  · exact h

end Sys2Proof.Machine
end

section
/-! SUPPORT. The links kept in order, continued: insulation tests, calibrations, scans, profiles and orders that end. -/

namespace Sys2Proof.Machine

variable {E U : LinkNo → Prop} {s t : State} {n : LineNo} {k : RcvNo} {l : LinkNo}

/-! ### Insulation tests -/

/-- The test of a link is no part of its sending. -/
theorem Confined.modTestCtx (h : Confined E U s) (l : LinkNo) (f : LinkRec → Option TestCtx) :
    Confined E U (s.modLink l fun r => { r with test := f r }) :=
  h.modLink l ((h.links l).congr rfl rfl rfl rfl rfl)

theorem modTest_confined (h : Confined E U s) (l : LinkNo) (f : TestCtx → TestCtx) : Confined E U (modTest s l f) :=
  h.modTestCtx l fun r => r.test.map f

theorem startPhase_confined (h : Confined E U s) (c : TestCtx) (phase : Nat) : Confined E U (startPhase s c phase) :=
  placeRelay_confined (h.modTestCtx _ fun _ => _) _ _ _

theorem orderInsulationTest_confined (h : Confined E U s) (k : SlotNo) (o : OrderRead) :
    Confined E U (orderInsulationTest s k o) := by
  have hrefuse (r : Reason) : Confined E U (refuse s k r []) := refuse_confined h k r []
  unfold orderInsulationTest
  split
  · exact hrefuse _
  split
  · exact hrefuse _
  split
  · exact hrefuse _
  split
  · exact hrefuse _
  split
  · exact hrefuse _
  split
  · exact hrefuse _
  · exact startPhase_confined (suspendLine_confined (s := takeFlight s k _) h _ _) _ _

theorem completeTest_confined (h : Confined E U s) (c : TestCtx) (v : Verdict) (o : OrderOutcome) (r : Reason) :
    Confined E U (completeTest s c v o r) := endOrder_confined h _ _

theorem endTest_confined (h : Confined E U s) (c : TestCtx) (v : Verdict) (o : OrderOutcome) (r : Reason) :
    Confined E U (endTest s c v o r) :=
  (placeRelay_confined (completeTest_confined h c v o r) _ _ _).modTestCtx _ fun _ => _

theorem abortTest_confined (h : Confined E U s) (l : LinkNo) (r : Reason) : Confined E U (abortTest s l r) := by
  unfold abortTest
  split
  · split
    · exact h
    · exact endTest_confined h _ _ _ _
  · exact h

theorem removeTest_confined (h : Confined E U s) (l : LinkNo) (c : TestCtx) : Confined E U (removeTest s l c) :=
  releaseLine_confined (h.modTestCtx l fun _ => none) _ _

theorem testLinkLost_confined (h : Confined E U s) (l : LinkNo) : Confined E U (testLinkLost s l) := by
  unfold testLinkLost
  split
  · refine removeTest_confined ?_ _ _
    split
    · exact h
    · exact completeTest_confined h _ _ _ _
  · exact h

theorem testRelayAnswered_confined (h : Confined E U s) (n : LineNo) (cfg : RelayCfg) (ack : Bool) :
    Confined E U (testRelayAnswered s n cfg ack) := by
  unfold testRelayAnswered
  split
  · split
    · exact h
    split
    · split
      · exact h
      split
      · exact modTest_confined h _ _
      · exact endTest_confined h _ _ _ _
    · exact h
    · exact h
    · exact (removeTest_confined h _ _).ite h
  · exact h

theorem phaseEnds_confined (h : Confined E U s) (c : TestCtx) : Confined E U (phaseEnds s c) := by
  unfold phaseEnds
  dsimp only
  split
  · exact startPhase_confined h _ _
  split
  · exact (endTest_confined h _ _ _ _).ite (startPhase_confined h _ _)
  split
  · exact startPhase_confined h _ _
  · exact endTest_confined h _ _ _ _

theorem testCounts_confined (h : Confined E U s) (l : LinkNo) (c : TestCtx) (x : Sample) :
    Confined E U (testCounts s l c x) := by
  unfold testCounts
  split
  · exact (modTest_confined h l _).ite (modTest_confined h l _)
  · exact (phaseEnds_confined h _).ite (modTest_confined h l _)
  · exact h
  · exact h

theorem testScan_confined (h : Confined E U s) (n : LineNo) (out : ScanOutcome) :
    Confined E U (testScan s n out) := by
  unfold testScan
  split
  · split
    · exact h
    split
    · exact modTest_confined h _ _
    · exact modTest_confined h _ _
    · exact (testCounts_confined h _ _ _).ite (modTest_confined h _ _)
  · exact h

theorem assignTesting_confined (h : Confined E U s) (n : LineNo) (toActive : Bool) :
    Confined E U (assignTesting s n toActive) := by
  unfold assignTesting
  extract_lets s1
  have h1 : Confined E U s1 := modTest_confined h _ _
  clear_value s1
  split
  · exact h1
  split
  · exact (abortTest_confined h1 _ _).ite h1
  · exact h1

/-! ### Calibrations -/

theorem modCal_confined (h : Confined E U s) (n : LineNo) (f : CalCtx → CalCtx) : Confined E U (modCal s n f) :=
  h.modLine_same n (f := fun r => { r with calCtx := r.calCtx.map f }) rfl

theorem lineFinished_confined (h : Confined E U s) (k : SlotNo) (f : Tally → Tally) (o : OrderOutcome) (r : Reason) :
    Confined E U (lineFinished s k f o r) := by
  unfold lineFinished
  split
  · exact (finish_confined h k o r _).ite h
  · exact h

theorem markRecord_confined (h : Confined E U s) (n : LineNo) (c : CalCtx) (st : CalStatus) :
    Confined E U (markRecord s n c st) := h.modLine_same n rfl

theorem restoreTrim_confined (h : Confined E U s) (n : LineNo) : Confined E U (restoreTrim s n) :=
  placeTrim_confined h _ _ _ _

theorem toRestoring_confined (h : Confined E U s) (n : LineNo) : Confined E U (toRestoring s n) :=
  modCal_confined h n _

/-- The record takes its end, TRIM and RELAY NORMAL are placed, and the step is RESTORING (R116, R118). -/
theorem endCal_confined (h : Confined E U s) (n : LineNo) (c : CalCtx) (st : CalStatus) :
    Confined E U (toRestoring (placeRelay (restoreTrim (markRecord s n c st) n) n .normal .calibration) n) :=
  toRestoring_confined (placeRelay_confined (restoreTrim_confined (markRecord_confined h n c st) n) n _ _) n

theorem failLine_confined (h : Confined E U s) (n : LineNo) (c : CalCtx) (cause : FailCause) :
    Confined E U (failLine s n c cause) :=
  lineFinished_confined (endCal_confined h n c _) _ _ _ _

theorem abortLine_confined (h : Confined E U s) (n : LineNo) (cause : IntCause) (o : OrderOutcome) (r : Reason) :
    Confined E U (abortLine s n cause o r) := by
  unfold abortLine
  split
  · split
    · exact h
    · exact lineFinished_confined (endCal_confined h n _ _) _ _ _ _
  · exact h

theorem abortCalibrate_confined (h : Confined E U s) (k : SlotNo) (cause : IntCause) (r : Reason) :
    Confined E U (abortCalibrate s k cause r) :=
  h.foldl (fun _ n hs => (abortLine_confined hs n cause _ r).ite hs) allLines

theorem removeCal_confined (h : Confined E U s) (n : LineNo) (c : CalCtx) : Confined E U (removeCal s n c) :=
  releaseLine_confined (h.modLine_same n (f := fun r => { r with calCtx := none }) rfl) n _

theorem calLinkLost_confined (h : Confined E U s) (n : LineNo) : Confined E U (calLinkLost s n) := by
  unfold calLinkLost
  split
  · refine removeCal_confined ?_ n _
    split
    · exact h
    · exact lineFinished_confined (markRecord_confined h n _ _) _ _ _ _
  · exact h

theorem takeLine_confined (h : Confined E U s) (k : SlotNo) (o : OrderRead) (n : LineNo) :
    Confined E U (takeLine k o s n) := by
  unfold takeLine
  extract_lets r c s1 s2 s3
  have h1 : Confined E U s1 := h.modLine_same n rfl
  exact placeTrim_confined (placeRelay_confined (suspendLine_confined h1 n _) n _ _) n _ _ _

theorem orderCalibrate_confined (h : Confined E U s) (k : SlotNo) (o : OrderRead) :
    Confined E U (orderCalibrate s k o) := by
  unfold orderCalibrate
  dsimp only
  split
  · exact refuse_confined h k _ _
  split
  · exact refuse_confined h k _ _
  split
  · exact refuse_confined h k _ _
  · exact Confined.foldl (s := takeFlight s k _) (fun _ n hs => takeLine_confined hs k o n) _ h

theorem startDecision_confined (h : Confined E U s) (n : LineNo) (c : CalCtx) : Confined E U (startDecision s n c) :=
  placeTrim_confined (h.modLine_same n rfl) n _ _ _

theorem decisionEnds_confined (h : Confined E U s) (n : LineNo) (c : CalCtx) : Confined E U (decisionEnds s n c) := by
  unfold decisionEnds
  split
  · unfold rangeDecision
    exact (failLine_confined (h.modLine_same n rfl) n _ _).ite (startDecision_confined h n _)
  · unfold bitDecision
    exact (startDecision_confined h n _).ite
      (placeRelay_confined (placeTrim_confined (h.modLine_same n rfl) n _ _ _) n _ _)

theorem calScan_confined (h : Confined E U s) (n : LineNo) (out : ScanOutcome) : Confined E U (calScan s n out) := by
  unfold calScan
  split
  · split
    · exact h
    unfold calCounts
    split
    · exact (modCal_confined h n _).ite (modCal_confined h n _)
    · exact (decisionEnds_confined h n _).ite (modCal_confined h n _)
    all_goals exact h
  · exact h

theorem calRelayAnswered_confined (h : Confined E U s) (n : LineNo) (cfg : RelayCfg) (ack : Bool) :
    Confined E U (calRelayAnswered s n cfg ack) := by
  unfold calRelayAnswered
  split
  · split
    · split
      · exact h
      split
      · exact modCal_confined h n _
      · exact failLine_confined h n _ _
    · exact h
    · exact h
    · exact h
    · exact h
    · exact (removeCal_confined h n _).ite h
  · exact h

theorem commitAnswered_confined (h : Confined E U s) (n : LineNo) (c : CalCtx) (ack : Bool) :
    Confined E U (commitAnswered s n c ack) := by
  unfold commitAnswered
  split
  · exact lineFinished_confined (toRestoring_confined (h.modLine_same n rfl) n) _ _ _ _
  · exact lineFinished_confined
      (toRestoring_confined (restoreTrim_confined (markRecord_confined h n c _) n) n) _ _ _ _

theorem calTrimAnswered_confined (h : Confined E U s) (n : LineNo) (ack : Bool) :
    Confined E U (calTrimAnswered s n ack) := by
  unfold calTrimAnswered
  split
  · split
    · exact (modCal_confined h n _).ite (failLine_confined h n _ _)
    · exact commitAnswered_confined h n _ ack
    all_goals exact h
  · exact h

theorem recordTrimAnswered_confined (h : Confined E U s) (n : LineNo) (ack : Bool) :
    Confined E U (recordTrimAnswered s n ack) :=
  h.ite (h.modLine_same n rfl)

theorem orderSetTrim_confined (h : Confined E U s) (k : SlotNo) (o : OrderRead) :
    Confined E U (orderSetTrim s k o) := by
  unfold orderSetTrim
  split
  · exact refuse_confined h k _ _
  split
  · exact refuse_confined h k _ _
  split
  · exact refuse_confined h k _ _
  split
  · exact refuse_confined h k _ _
  · exact complete_confined (placeTrim_confined (h.modLine_same _ rfl) _ _ _ _) k _

theorem assignCalibrating_confined (h : Confined E U s) (n : LineNo) (toActive : Bool) :
    Confined E U (assignCalibrating s n toActive) := by
  have h1 : Confined E U (modCal s n fun c => { c with toActive := toActive }) := modCal_confined h n _
  exact h1.ite (abortLine_confined h1 n _ _ _)

/-! ### Scans -/

theorem quietScan_confined (h : Confined E U s) (n : LineNo) (raw : Cls) : Confined E U (quietScan s n raw) := by
  unfold quietScan
  split
  · exact setFull_confined h n
  · exact Confined.ite (h.modLine_same n rfl) h

theorem orderSurvey_confined (h : Confined E U s) (k : SlotNo) (o : OrderRead) : Confined E U (orderSurvey s k o) := by
  unfold orderSurvey
  split
  · exact refuse_confined h k _ _
  dsimp only
  split
  · exact refuse_confined h k _ _
  split
  · exact refuse_confined h k _ _
  split
  · exact refuse_confined h k _ _
  · exact setFull_confined (Confined.modLine_same (s := takeFlight s k _) h _ rfl) _

theorem surveyScan_confined (h : Confined E U s) (n : LineNo) (out : ScanOutcome) :
    Confined E U (surveyScan s n out) := by
  unfold surveyScan
  split
  · exact Confined.ite ((endOrder_confined h _ _).modLine_same n rfl) (h.modLine_same n rfl)
  · exact h

theorem abortSurvey_confined (h : Confined E U s) (n : LineNo) (r : Reason) :
    Confined E U (abortSurvey s n r) := by
  unfold abortSurvey
  split
  · exact (finish_confined h _ _ _ _).modLine_same n rfl
  · exact h

theorem scanMeasure_confined (h : Confined E U s) (n : LineNo) (x : Sample) : Confined E U (scanMeasure s n x) := by
  unfold scanMeasure
  extract_lets p s1 raw s2 s3
  have h1 : Confined E U s1 := h.modLine_same n rfl
  have h2 : Confined E U s2 := h1.modLine_same n (congrArg LineCall.sup (updateCandidate_call raw _))
  exact quietScan_confined (h2.modLine_same n rfl) n raw

theorem scanAccept_confined (h : Confined E U s) (hn : E (linkOf n)) : Confined E U (scanAccept s n) := by
  unfold scanAccept
  extract_lets old s1
  have h1 : Confined E U s1 := h.modLine_same n (congrArg LineCall.sup (advanceCounters_call old _))
  clear_value s1
  split
  · have h2 (c : Cls) : Confined E U (s1.modLine n (acceptClass c)) := h1.modLine_same n rfl
    exact takeAcceptance_confined ((abortTraceOn_confined (h2 _) n _).ite (h2 _)) hn _ _ _
  · exact h1

theorem activeScan_confined (h : Confined E U s) (hn : E (linkOf n)) (x : Sample) :
    Confined E U (activeScan s n x) :=
  surveyScan_confined (testLimits_confined (scanAccept_confined (scanMeasure_confined h n x) hn) hn) n _

/-- Only an ACCEPTED scan moves a call. -/
theorem routeScan_confined (h : Confined E U s) {out : ScanOutcome} (hn : ∀ x, out = .accepted x → E (linkOf n)) :
    Confined E U (routeScan s n out) := by
  unfold routeScan
  split
  · exact h
  · split
    · exact activeScan_confined h (hn _ rfl) _
    · exact surveyScan_confined h n _
    · exact surveyScan_confined h n _
  · exact calScan_confined h n out
  · exact testScan_confined h n out

theorem takeSample_confined (h : Confined E U s) (hn : E (linkOf n)) (x : Sample) : Confined E U (takeSample s n x) := by
  refine routeScan_confined ?_ fun _ _ => hn
  refine Confined.ite (h.modLink _ ?_) h
  exact (h.links _).congr rfl rfl rfl rfl rfl

theorem missScan_confined (h : Confined E U s) (n : LineNo) : Confined E U (missScan s n) :=
  routeScan_confined h fun _ e => nomatch e

/-! ### Profiles, services and the scan period -/

theorem assignLine_confined (h : Confined E U s) (n : LineNo) (p : ProfNo) (active : Bool) :
    Confined E U (assignLine s n p active) := by
  unfold assignLine
  extract_lets s1 s2
  have h2 : Confined E U s2 := abortTraceOn_confined (h.modLine_same n rfl) n .lineChanged
  clear_value s2
  split
  · exact (enterSettling_confined (unschedule_confined (h2.modLine_same n rfl) n) n).ite h2
  · exact h2.ite (parkLine_confined (abortSurvey_confined h2 n _) n)
  · exact assignCalibrating_confined h2 n active
  · exact assignTesting_confined h2 n active

theorem orderAssign_confined (h : Confined E U s) (k : SlotNo) (o : OrderRead) : Confined E U (orderAssign s k o) := by
  unfold orderAssign
  split
  · exact refuse_confined h k _ _
  split
  · dsimp only
    split
    · exact refuse_confined h k _ _
    split
    · exact refuse_confined h k _ _
    · exact complete_confined (assignLine_confined h _ _ _) k _
  · exact refuse_confined h k _ _

theorem loadProfile_confined (h : Confined E U s) (k : SlotNo) (p : ProfNo) (bytes : List Byte) :
    Confined E U (loadProfile s k p bytes) := by
  unfold loadProfile
  dsimp only
  split
  · exact refuse_confined h k _ _
  · exact complete_confined (s := s.setProfile p _) h k _

theorem economyLine_confined (h : Confined E U s) (n : LineNo) : Confined E U (economyLine s n) := by
  refine h.modLine_same n ?_
  split <;> rfl

theorem orderEconomy_confined (h : Confined E U s) (k : SlotNo) (o : OrderRead) :
    Confined E U (orderEconomy s k o) := by
  unfold orderEconomy
  split
  · exact complete_confined (s := { s with economy := false }) h k _
  split
  · exact complete_confined
      (Confined.foldl (s := { s with economy := true }) (fun _ n hs => economyLine_confined hs n) allLines h) k _
  · exact refuse_confined h k _ _

theorem orderClearFault_confined (h : Confined E U s) (k : SlotNo) (o : OrderRead) :
    Confined E U (orderClearFault s k o) := by
  unfold orderClearFault
  split
  · dsimp only
    split
    · exact complete_confined h k _
    split
    · exact refuse_confined h k _ _
    · exact complete_confined (h.modLine_same _ rfl) k _
  · exact refuse_confined h k _ _

theorem periodDecision_confined (h : Confined E U s) : Confined E U (periodDecision s) := by
  unfold periodDecision
  dsimp only
  split
  · exact h
  split
  · exact h
  · exact Confined.foldl (s := { s with period := _, profiles := _ })
      (fun _ n hs => (enterSettling_confined hs n).ite hs) allLines h

/-! ### Orders that end -/

theorem abortSlot_confined (h : Confined E U s) (k : SlotNo) (r : Reason) (cause : IntCause) :
    Confined E U (abortSlot s k r cause) := by
  unfold abortSlot
  split
  · exact abortSurvey_confined h _ r
  · exact abortCalibrate_confined h k cause r
  · exact abortTest_confined h _ r
  · exact abortListen_confined h k r
  · exact abortCheck_confined h r
  · exact endTrace_confined h _ _ _
  · exact h

theorem abortAll_confined (h : Confined E U s) (r : Reason) (cause : IntCause) :
    Confined E U (abortAll s r cause) :=
  h.foldl (fun _ k hs => abortSlot_confined hs k r cause) allSlots

theorem halt_confined (h : Confined E U s) (addr : Word) : Confined E U (halt s addr) := by
  refine markChanges_confined ?_ s
  unfold haltEffect
  extract_lets s1 s2 s3
  have h1 : Confined E U s1 := by
    show Confined E U (unmove s)
    unfold unmove
    split
    · exact h.modLine_same _ rfl
    · exact h
  have h2 : Confined E U s2 := h1
  have h3 : Confined E U s3 := abortAll_confined h2 .none .halted
  clear_value s3
  exact h3

end Sys2Proof.Machine
end

section
/-! SUPPORT. The links kept in order, continued: what a link sends, the start of a scan period, the loss of a link,
timeouts, replies and recovery. -/

namespace Sys2Proof.Machine

variable {E U : LinkNo → Prop} {s t : State} {n : LineNo} {k : RcvNo} {l : LinkNo}

/-! ### Other sets of links -/

section Record
variable {e u : Prop} {r : LinkRec}

theorem LinkRec.Ordered.mono (h : r.Ordered e u) {e' u' : Prop} (he : e' → e) (hu : u' → r.state = .up) :
    r.Ordered e' u' :=
  ⟨h.keyed, h.down, h.clearing, fun x => h.cleared (he x), hu⟩

/-- Nothing is under way on a link whose TAP CLEAR ALL waits: where something is, it is UP, and none waits. -/
theorem LinkRec.Ordered.sending (h : r.Ordered e u) {f : Frame} (hx : r.exchange = some f) (hf : f ≠ .probe) :
    r.state = .up ∧ Frame.tapClearAll ∉ r.queue := by
  constructor
  · by_contra hd
    obtain ⟨-, -, hp, -⟩ := h.down hd
    rcases hp with hp | hp
    · rw [hx] at hp; cases hp
    · exact hf (Option.some.inj (hx.symm.trans hp))
  · intro hc
    obtain ⟨-, hn, -⟩ := h.clearing hc
    rw [hx] at hn
    cases hn

/-- A link that is not UP sends a PROBE (R136). -/
theorem LinkRec.Ordered.probe (h : r.Ordered e u) (hd : r.state ≠ .up) :
    { r with exchange := some .probe }.Ordered e u := by
  obtain ⟨hq, hy, -, ht⟩ := h.down hd
  refine ⟨h.keyed, fun _ => ⟨hq, hy, .inr rfl, ht⟩, fun hc => ?_, h.cleared, h.up⟩
  rw [hq] at hc
  cases hc

end Record

/-- Any set of links that are UP will do for the second. -/
theorem Confined.ups (h : Confined E U s) {V : LinkNo → Prop} (hV : ∀ l, V l → (s.link l).state = .up) :
    Confined E V s :=
  ⟨h.1, h.2.1, h.2.2.1, fun l => (h.links l).mono id (hV l)⟩

/-! ### Sending -/

theorem frameTaken_confined (h : Confined E U s) (f : Frame) : Confined E U (frameTaken s f) := by
  unfold frameTaken
  split
  · exact tapTaken_confined h _
  all_goals exact h

/-- The SAMPLE frames of a period, none of them while a TAP CLEAR ALL waits. -/
theorem endControl_confined (h : Confined E U s) (hup : (s.link l).state = .up) : Confined E U (endControl s l) := by
  have ho := h.links l
  rw [endControl_eq]
  refine h.modLink l ?_
  by_cases hc : Frame.tapClearAll ∈ (s.link l).queue
  · obtain ⟨-, hx, -, ht, -⟩ := ho.clearing hc
    refine ho.congr rfl rfl rfl ?_ ?_
    · simp [LinkRec.nextSample, ht]
    · simp [LinkRec.nextSample, ht]
  · exact (ho.free hup (List.Sublist.refl _) hc).congr rfl rfl rfl rfl rfl

/-- A link takes its next frame: after a TAP CLEAR ALL no second one waits. -/
theorem advanceLink_confined (h : Confined E U s) (l : LinkNo) : Confined E U (advanceLink s l) := by
  have ho := h.links l
  unfold advanceLink
  dsimp only
  split
  · next hup =>
    have hend := endControl_confined h hup.1
    split
    · exact hend
    split
    · next f _ hy =>
      have hc : Frame.tapClearAll ∉ (s.link l).queue := fun hc => by
        obtain ⟨-, -, hn, -⟩ := ho.clearing hc
        rw [hy] at hn
        cases hn
      rw [sendControl_modLink]
      exact h.modLink l ((ho.free hup.1 (List.Sublist.refl _) hc).congr rfl rfl rfl rfl rfl)
    · next f rest _ hq =>
      have hc : Frame.tapClearAll ∉ rest := fun hc => by
        obtain ⟨hhead, -⟩ := ho.clearing (hq ▸ .tail _ hc)
        obtain rfl : f = .tapClearAll := by simpa [hq] using hhead
        have hnd := ho.keyed.1
        rw [hq, List.map_cons, List.nodup_cons] at hnd
        exact hnd.1 (List.mem_map_of_mem hc)
      have hsub : rest.Sublist (s.link l).queue := hq ▸ List.sublist_cons_self f rest
      rw [sendControl_modLink]
      exact frameTaken_confined (h.modLink l ((ho.free hup.1 hsub hc).congr rfl rfl rfl rfl rfl)) f
    · exact hend
  · exact h

/-! ### The start of a scan period -/

theorem missUnsent_confined (h : Confined E U s) (l : LinkNo) : Confined E U (missUnsent s l) :=
  h.foldl (fun _ p hs => missScan_confined hs (lineAt l p)) _

/-- A link on which a TAP CLEAR ALL waits sends it, before it has a SAMPLE to send; any other may have both. -/
theorem startLinkPeriod_confined (h : Confined E U s) (l : LinkNo) : Confined E U (startLinkPeriod s l) := by
  unfold startLinkPeriod
  split
  swap
  · exact h
  next hl =>
  have hup : (s.link l).state = .up := of_decide_eq_true hl
  extract_lets s1 pairs s2
  have h1 : Confined E (fun m => (s.link m).state = .up) s1 := missUnsent_confined (h.ups fun _ hm => hm) l
  have hU : ∀ {u}, Confined E (fun m => (s.link m).state = .up) u → Confined E U u := fun hu =>
    hu.ups fun m hm => (hu.links m).up ((h.links m).up hm)
  have ho := h1.links l
  have hup1 := ho.up hup
  refine hU ?_
  clear_value s1
  by_cases hc : Frame.tapClearAll ∈ (s1.link l).queue
  · obtain ⟨hhead, hx, hy, -⟩ := ho.clearing hc
    obtain ⟨rest, hq⟩ := List.head?_eq_some_iff.mp hhead
    have hrest : Frame.tapClearAll ∉ rest := fun hm => by
      have hnd := ho.keyed.1
      rw [hq, List.map_cons, List.nodup_cons] at hnd
      exact hnd.1 (List.mem_map_of_mem hm)
    have hsub : rest.Sublist (s1.link l).queue := hq ▸ List.sublist_cons_self _ rest
    have hsend : advanceLink s2 l = s1.modLink l fun r =>
        { r with queue := rest, exchange := some .tapClearAll, controlMade := 1, controlOver := false,
                 toSample := pairs } := by
      have hl2 : s2.link l = { s1.link l with controlMade := 0, controlOver := false, toSample := pairs } :=
        State.link_modLink_same s1 l _
      unfold advanceLink
      simp only [hl2, hup1, hx, hy, hq, Config.controlMax]
      simp only [frameTaken, sendControl_modLink, s2, State.modLink_modLink]
      rfl
    rw [hsend]
    exact h1.modLink l ((ho.free hup1 hsub hrest).congr rfl rfl rfl rfl rfl)
  · exact advanceLink_confined
      (h1.modLink l ((ho.free hup1 (List.Sublist.refl _) hc).congr rfl rfl rfl rfl rfl)) l

theorem startPeriod_confined (h : Confined E U s) : Confined E U (startPeriod s) := by
  unfold startPeriod
  split
  · exact Confined.foldl (s := { s with periodCount := _, periodEnd := _ })
      (fun _ l hs => startLinkPeriod_confined hs l) allLinks h
  · exact h

end Sys2Proof.Machine
end

section
/-! SUPPORT. The links kept in order, continued: the loss of a link takes it out of both sets; replies, probes and
recovery. -/

namespace Sys2Proof.Machine

variable {E U : LinkNo → Prop} {s t : State} {n : LineNo} {k : RcvNo} {l : LinkNo}

/-! ### What a turn of each element brings about -/

/-- What the turn of each element brings about, and no other turn undoes, holds of every element at the end. -/
theorem foldl_each {α : Type} {f : State → α → State} {I : State → Prop} {p : α → State → Prop}
    (hI : ∀ s x, I s → I (f s x)) (hset : ∀ s x, I s → p x (f s x)) (hkeep : ∀ s x y, I s → p y s → p y (f s x))
    (L : List α) (hs : I s) : ∀ x ∈ L, p x (L.foldl f s) := by
  have hstay : ∀ (L : List α) (s : State), I s → ∀ y, p y s → p y (L.foldl f s) := fun L => by
    induction L with
    | nil => exact fun _ _ _ hy => hy
    | cons x L ih => exact fun s hs y hy => ih (f s x) (hI s x hs) y (hkeep s x y hs hy)
  induction L generalizing s with
  | nil => exact fun x hx => nomatch hx
  | cons y L ih =>
    intro x hx
    rcases List.mem_cons.mp hx with rfl | hx
    · exact hstay L _ (hI s x hs) x (hset s x hs)
    · exact ih (hI s y hs) x hx

theorem lineAt_linkOf_pairOf (n : LineNo) : lineAt (linkOf n) (pairOf n) = n :=
  eq_of_linkOf_pairOf (linkOf_lineAt _ _) (pairOf_lineAt _ _)

theorem mem_linesOf (n : LineNo) : n ∈ linesOf (linkOf n) :=
  List.mem_map.mpr ⟨pairOf n, List.mem_finRange _, lineAt_linkOf_pairOf n⟩

/-! ### The loss of a link: its lines -/

theorem sup_of_noRcv {a b : LineRec} (h : a.noRcv = b.noRcv) : a.sup = b.sup := (congrArg LineRec.sup h :)

/-- A line of a lost link is in no call, whether it was ACTIVE or not (R45). -/
theorem unsenseLine_out (h : CallsSound True s) (n : LineNo) : isCall ((unsenseLine s n).line n).sup = false := by
  unfold unsenseLine
  split
  · have hrec : ((enterUnsensed s n).line n).noRcv = (s.line n).unsensed.noRcv := by
      unfold enterUnsensed
      refine leaveCall_record ?_ _
      simp only [restoreFault, setFull, State.line_modLine_same]
      rfl
    rw [sup_of_noRcv hrec]
    rfl
  · next hv =>
    exact eq_false_of_ne_true fun hc => hv ((h.services.line n).inCall hc).1

theorem unsenseLine_confined (h : Confined E U s) (n : LineNo) : Confined E U (unsenseLine s n) :=
  (enterUnsensed_confined h n).ite h

theorem unsenseLine_noRcv (s : State) (n : LineNo) {m : LineNo} (h : m ≠ n) :
    ((unsenseLine s n).line m).noRcv = (s.line m).noRcv := by
  unfold unsenseLine
  split
  · exact enterUnsensed_noRcv s n h
  · rfl

/-- No line of a lost link is in a call once each has had its turn. -/
theorem unsensed_out (h : CallsSound True s) (hn : linkOf n = l) :
    isCall ((eachLine unsenseLine (linesOf l) s).line n).sup = false := by
  have hmark (s : State) (n m : LineNo) :
      ((if imageChanged s (unsenseLine s n) n then markImage (unsenseLine s n) n else unsenseLine s n).line m).sup
        = ((unsenseLine s n).line m).sup := by
    split
    · exact (congrArg LineCall.sup (call_of_calls (markImage_calls (unsenseLine s n) n) m) :)
    · rfl
  refine foldl_each (I := CallsSound True) (p := fun n s => isCall (s.line n).sup = false)
    (fun s n hs => ?_) (fun s n hs => ?_) (fun s n m hs hm => ?_) (linesOf l) h n (hn ▸ mem_linesOf n)
  · split
    · exact (unsenseLine_sound hs n).of_calls (markImage_calls _ n)
    · exact unsenseLine_sound hs n
  · rw [hmark]
    exact unsenseLine_out hs n
  · rw [hmark]
    by_cases e : m = n
    · exact e ▸ unsenseLine_out hs n
    · rw [sup_of_noRcv (unsenseLine_noRcv s n e)]
      exact hm

/-! ### The loss of a link: the receivers -/

/-- A receiver that is stranded is tied to no link, and nothing else moves (R80). -/
theorem strandRcv_rcv (l : LinkNo) (s : State) (k j : RcvNo) :
    (strandRcv l s k).rcv j = s.rcv j ∨ ((strandRcv l s k).rcv j).ties = [] := by
  have hset (u : State) (hu : u.rcvs = s.rcvs) (tap : Tap) (out : Bool) :
      (u.setRcv k (.stranded tap out)).rcv j = s.rcv j ∨ ((u.setRcv k (.stranded tap out)).rcv j).ties = [] := by
    rw [State.rcv_setRcv_ite]
    split
    · exact .inr rfl
    · exact .inl (by rw [State.rcv, State.rcv, hu])
  unfold strandRcv
  split
  · split
    · exact hset _ (setReceiver_rcvs _ _ _) _ _
    · exact .inl rfl
  · split
    · exact hset _ (setReceiver_rcvs _ _ _) _ _
    · exact .inl rfl
  · split
    · exact hset _ rfl _ _
    · exact .inl rfl
  · exact .inl rfl

theorem strandRcv_idle (l : LinkNo) (s : State) (k : RcvNo) : busyOn l ((strandRcv l s k).rcv k) = false := by
  have hset (u : State) (tap : Tap) (out : Bool) : busyOn l ((u.setRcv k (.stranded tap out)).rcv k) = false := by
    rw [State.rcv_setRcv_same]
    rfl
  unfold strandRcv
  split
  · next hk =>
    split
    · exact hset _ _ _
    · next hl => rw [hk]; exact decide_eq_false hl
  · next hk =>
    split
    · exact hset _ _ _
    · next hl => rw [hk]; exact decide_eq_false hl
  · next hk =>
    split
    · exact hset _ _ _
    · next hl => rw [hk]; exact decide_eq_false hl
  · next hc hl hr =>
    cases h : s.rcv k with
    | connecting e tap ph => exact absurd h (hc e tap ph)
    | listening e tap => exact absurd h (hl e tap)
    | releasing tap ph out => exact absurd h (hr tap ph out)
    | _ => rfl

theorem busyOn_of_ties {r : RcvState} (h : r.ties = []) : busyOn l r = false := by
  cases r <;> simp [RcvState.ties] at h <;> rfl

/-- The receivers after the loss of a link: none is tied to it, and those tied elsewhere stand. -/
theorem strandAll_rcv (s : State) (l : LinkNo) (k : RcvNo) :
    busyOn l ((strandAll s l).rcv k) = false
      ∧ ((strandAll s l).rcv k = s.rcv k ∨ ((strandAll s l).rcv k).ties = []) := by
  constructor
  · refine foldl_each (I := fun _ => True) (p := fun k s => busyOn l (s.rcv k) = false) (fun _ _ _ => trivial)
      (fun s k _ => strandRcv_idle l s k) (fun s j k _ hk => ?_) allRcvs trivial k (List.mem_finRange k)
    rcases strandRcv_rcv l s j k with h | h
    · exact h ▸ hk
    · exact busyOn_of_ties h
  · refine List.foldlRecOn (motive := fun u => u.rcv k = s.rcv k ∨ (u.rcv k).ties = []) allRcvs (strandRcv l)
      (.inl rfl) fun u hu j _ => ?_
    rcases strandRcv_rcv l u j k with h | h
    · exact h ▸ hu
    · exact .inr h

/-- Stranding moves receivers and marks lines, but no link and no waiting line. -/
theorem strandAll_keeps (s : State) (l : LinkNo) :
    (strandAll s l).links = s.links ∧ (strandAll s l).waiting = s.waiting := by
  refine List.foldlRecOn (motive := fun u => u.links = s.links ∧ u.waiting = s.waiting) allRcvs (strandRcv l)
    ⟨rfl, rfl⟩ fun u hu k _ => ?_
  have hfree (m : LineNo) : (setReceiver u m none).links = s.links ∧ (setReceiver u m none).waiting = s.waiting :=
    ⟨(setReceiver_links u m none).trans hu.1, (setReceiver_waiting u m none).trans hu.2⟩
  unfold strandRcv
  split
  · split
    · exact hfree _
    · exact hu
  · split
    · exact hfree _
    · exact hu
  · split
    · exact hu
    · exact hu
  · exact hu

/-! ### The loss of a link: the link -/

/-- A lost link has nothing under way but a PROBE (R136, R139). -/
theorem lostRecord_ordered (t : Word) (r : LinkRec) (e : Prop) {u : Prop} (hu : ¬u) :
    (lostRecord t r).Ordered e u :=
  ⟨⟨List.nodup_nil, fun _ hf => nomatch hf⟩, fun _ => ⟨rfl, rfl, .inr rfl, rfl⟩, fun hc => (nomatch hc),
    fun _ hc => (nomatch hc), fun hx => absurd hx hu⟩

/-- The links of a set but one. -/
def butLink (E : LinkNo → Prop) (l : LinkNo) (m : LinkNo) : Prop := E m ∧ m ≠ l

/-- Once no line of a link is in a call, and its receivers are stranded or tied elsewhere, neither calls nor receivers
nor waiting lines keep to it. -/
theorem Confined.stranded (h : Confined E (butLink E l) s) (hc : CallsSound True s)
    (hout : ∀ n, linkOf n = l → isCall (s.line n).sup = false) (hsup : ∀ n, (t.line n).sup = (s.line n).sup)
    (hrcv : ∀ k, busyOn l (t.rcv k) = false ∧ (t.rcv k = s.rcv k ∨ (t.rcv k).ties = []))
    (hlinks : t.links = s.links) (hwait : t.waiting = s.waiting) :
    Confined (butLink E l) (butLink E l) t := by
  have hne : ∀ n, isCall (s.line n).sup = true → linkOf n ≠ l := fun n hn hl =>
    absurd (hn.symm.trans (hout n hl)) (by decide)
  have hpool := poolSound_iff.mpr (hc.pool trivial)
  refine ⟨fun n hn => ?_, fun k m hm => ?_, fun e he => ?_, fun m => ?_⟩
  · rw [hsup] at hn
    exact ⟨h.calls hn, hne n hn⟩
  · obtain ⟨hidle, hk | hk⟩ := hrcv k
    · rw [hk] at hm hidle
      refine ⟨h.receivers rfl m hm, ?_⟩
      rcases mem_ties_iff.mp hm with hb | ⟨e, he, rfl⟩
      · rintro rfl
        exact absurd (hb.symm.trans hidle) (by decide)
      · exact hne e.line (hpool.serving k e he).2
    · rw [hk] at hm
      cases hm
  · rw [hwait] at he
    exact ⟨h.waiters e he, hne e.line (hpool.listed e he).2⟩
  · rw [State.link, hlinks]
    exact (h.links m).mono And.left (h.links m).up

theorem strandAll_sup (s : State) (l : LinkNo) (n : LineNo) : ((strandAll s l).line n).sup = (s.line n).sup :=
  sup_of_noRcv (strandAll_noRcv s l n)

/-- The loss of a link takes it out of both sets: its lines leave their calls, with them the pool's list, and its
receivers are stranded before anything else is done (R139). -/
theorem linkLost_confined (h : Confined E E s) (hc : CallsSound True s) (l : LinkNo) :
    Confined (butLink E l) (butLink E l) (linkLost s l) := by
  unfold linkLost
  extract_lets s1 s2 s3 s4 s5 s6 s7
  have h1 : Confined E (butLink E l) s1 := by
    refine (h.ups (V := butLink E l) fun m hm => (h.links m).up hm.1).modLink l ?_
    exact lostRecord_ordered _ _ _ fun hl => hl.2 rfl
  have hc1 : CallsSound True s1 := hc.of_calls (modLink_calls_same s l rfl)
  have h2 : Confined E (butLink E l) s2 :=
    h1.eachLine (fun s n hs => unsenseLine_confined hs n) (linesOf l)
  have hc2 : CallsSound True s2 := hc1.eachLine (fun s n hs => unsenseLine_sound hs n) (linesOf l)
  have h3 : Confined (butLink E l) (butLink E l) s3 := 
    h2.stranded hc2 (fun n hn => unsensed_out hc1 hn) (strandAll_sup s2 l) (strandAll_rcv s2 l)
      (strandAll_keeps s2 l).1 (strandAll_keeps s2 l).2
  have h4 : Confined (butLink E l) (butLink E l) s4 := h3.eachLine (fun s n hs => calLinkLost_confined hs n) (linesOf l)
  have h5 : Confined (butLink E l) (butLink E l) s5 := markChanges_confined (testLinkLost_confined h4 l) s4
  have h6 : Confined (butLink E l) (butLink E l) s6 := markChanges_confined (traceLinkLost_confined h5 l) s5
  have h7 : Confined (butLink E l) (butLink E l) s7 :=
    h6.foldl (fun s n hs => abortSurvey_confined hs n .linkLost) (linesOf l)
  exact h7.foldl (fun s n hs => setFull_confined hs n) (linesOf l)

end Sys2Proof.Machine
end

section
/-! SUPPORT. The links kept in order, continued: timeouts, replies, probes and recovery. -/

namespace Sys2Proof.Machine

variable {E U : LinkNo → Prop} {s t : State} {n : LineNo} {k : RcvNo} {l : LinkNo}

/-! ### Timeouts -/

theorem endExchange_confined (h : Confined E U s) (l : LinkNo) : Confined E U (endExchange s l) :=
  h.modLink l ((h.links l).idle.congr rfl rfl rfl rfl rfl)

theorem replyTaken_confined (h : Confined E U s) (l : LinkNo) : Confined E U (replyTaken s l) :=
  (endExchange_confined h l).modLink l (((endExchange_confined h l).links l).congr rfl rfl rfl rfl rfl)

/-- A control frame that times out is kept for retry: its link is UP, and no TAP CLEAR ALL waits there. -/
theorem keepRetry_confined (h : Confined E U s) {f : Frame} (hup : (s.link l).state = .up)
    (hc : Frame.tapClearAll ∉ (s.link l).queue) :
    Confined E U (s.modLink l fun r => { r with retry := some f, controlOver := true }) :=
  h.modLink l (((h.links l).free hup (List.Sublist.refl _) hc).congr rfl rfl rfl rfl rfl)

theorem frameTimedOut_confined (h : Confined E U s) {f : Frame}
    (hf : f ≠ .probe → (s.link l).state = .up ∧ Frame.tapClearAll ∉ (s.link l).queue) :
    Confined E U (frameTimedOut s l f) := by
  cases f with
  | probe => exact h
  | sample p => exact missScan_confined h (lineAt l p)
  | _ =>
    obtain ⟨hup, hc⟩ := hf (by simp)
    exact keepRetry_confined h hup hc

theorem raiseFailRun_confined (h : Confined E E s) (hc : CallsSound True s) (l : LinkNo) :
    ∃ E', Confined E' E' (raiseFailRun s l) := by
  have h1 : Confined E E (s.modLink l fun r => { r with failRun := r.failRun + 1 }) :=
    h.modLink l ((h.links l).congr rfl rfl rfl rfl rfl)
  have hc1 := hc.of_calls (modLink_calls_same s l (f := fun r => { r with failRun := r.failRun + 1 }) rfl)
  unfold raiseFailRun
  dsimp only
  split
  · exact ⟨_, linkLost_confined h1 hc1 l⟩
  · exact ⟨E, advanceLink_confined h1 l⟩

theorem frameTimedOut_sound {P : Prop} (h : CallsSound P s) (l : LinkNo) (f : Frame) :
    CallsSound P (frameTimedOut s l f) := by
  cases f with
  | sample p => exact missScan_sound h (lineAt l p)
  | probe => exact h
  | _ => exact h.of_calls (modLink_calls_same _ l rfl)

theorem timeOut_confined (h : Confined E E s) (hc : CallsSound True s) (l : LinkNo) :
    ∃ E', Confined E' E' (timeOut s l) := by
  unfold timeOut
  split
  · next f hx =>
    have h1 := endExchange_confined h l
    have hc1 : CallsSound True (endExchange s l) := hc.of_calls (modLink_calls_same s l rfl)
    dsimp only
    split
    · refine raiseFailRun_confined (frameTimedOut_confined h1 fun hf => ?_) (frameTimedOut_sound hc1 l f) l
      rw [endExchange, State.link_modLink_same]
      exact (h.links l).sending hx hf
    · exact ⟨E, h1⟩
  · exact ⟨E, h⟩

/-! ### Replies -/

/-- The links that are UP and have sent their TAP CLEAR ALL lie in E. -/
def Covers (E : LinkNo → Prop) (s : State) : Prop := ∀ l, ¬freshLink s l → E l

/-- A scan that is due comes from a link of E. -/
theorem sampleAnswered_confined (h : Confined E U s) (hE : Covers E s) (l : LinkNo) (p : PairNo) (x : Sample) :
    Confined E U (sampleAnswered s l p x) := by
  unfold sampleAnswered
  split
  · next hx =>
    obtain ⟨hup, hc⟩ := (h.links l).sending hx (by simp)
    have hl : E l := hE l fun hf => hf.elim (fun hd => hd hup) hc
    exact advanceLink_confined (takeSample_confined (replyTaken_confined h l) (by rwa [linkOf_lineAt]) x) l
  · exact h

theorem trimAnswered_confined (h : Confined E U s) (l : LinkNo) (ack : Bool) :
    Confined E U (trimAnswered s l ack) := by
  have h1 := replyTaken_confined h l
  unfold trimAnswered
  split
  · refine advanceLink_confined ?_ l
    unfold trimOwner
    split
    · exact calTrimAnswered_confined h1 _ ack
    · exact recordTrimAnswered_confined h1 _ ack
  · exact h

theorem relayAnswered_confined (h : Confined E U s) (l : LinkNo) (ack : Bool) :
    Confined E U (relayAnswered s l ack) := by
  have h1 (p : PairNo) : Confined E U (setRestored (replyTaken s l) l p) :=
    (replyTaken_confined h l).modLink l (((replyTaken_confined h l).links l).congr rfl rfl rfl rfl rfl)
  unfold relayAnswered
  split
  · refine advanceLink_confined ?_ l
    unfold relayOwner
    split
    · exact h1 _
    · exact calRelayAnswered_confined (h1 _) _ _ ack
    · exact testRelayAnswered_confined (h1 _) _ _ ack
    · exact traceRelayAnswered_confined (h1 _) _ _ ack
  · exact h

theorem connectAnswered_confined (h : Confined E U s) (l : LinkNo) (ack : Bool) :
    Confined E U (connectAnswered s l ack) := by
  unfold connectAnswered
  split
  · exact advanceLink_confined (tapConnectAnswered_confined (replyTaken_confined h l) _ ack) l
  · exact h

theorem disconnectAnswered_confined (h : Confined E U s) (l : LinkNo) (ack : Bool) :
    Confined E U (disconnectAnswered s l ack) := by
  unfold disconnectAnswered
  split
  · exact advanceLink_confined (tapDisconnectAnswered_confined (replyTaken_confined h l) _ ack) l
  · exact h

theorem clearAllAnswered_confined (h : Confined E U s) (l : LinkNo) (ack : Bool) :
    Confined E U (clearAllAnswered s l ack) := by
  unfold clearAllAnswered
  split
  · exact advanceLink_confined (tapClearAnswered_confined (replyTaken_confined h l) l ack) l
  · exact h

/-! ### Probes and recovery -/

/-- The keys of the frames of a recovery, one of each present pair of either kind (R137). -/
theorem recoveryFrames_keys (s : State) (l : LinkNo) (count : Nat) :
    (recoveryFrames s l count).map keyOf
      = some .clearAll :: ((presentPairs count).map fun p => some (FrameKey.relay p))
        ++ (presentPairs count).map fun p => some (FrameKey.trim p) := by
  simp [recoveryFrames, keyOf, Function.comp_def]

/-- A link that comes UP has nothing under way, and its recovery frames wait, TAP CLEAR ALL first (R137). -/
theorem recovering_ordered {r : LinkRec} {e u : Prop} (he : ¬e) (hs : r.state = .up) (hx : r.exchange = none)
    (hy : r.retry = none) (ht : r.toSample = []) {count : Nat}
    (hq : r.queue = recoveryFrames s l count) : r.Ordered e u := by
  have hkeys := recoveryFrames_keys s l count
  rw [← hq] at hkeys
  have hpairs : (presentPairs count).Nodup := (List.nodup_finRange 16).filter _
  have hmem : ∀ f ∈ r.queue, keyOf f = some .clearAll ∨ (∃ p, keyOf f = some (.relay p))
      ∨ ∃ p, keyOf f = some (.trim p) := fun f hf => by
    have := hkeys ▸ List.mem_map_of_mem (f := keyOf) hf
    simp only [List.mem_append, List.mem_cons, List.mem_map] at this
    rcases this with (h | ⟨p, -, h⟩) | ⟨p, -, h⟩
    · exact .inl h
    · exact .inr (.inl ⟨p, h.symm⟩)
    · exact .inr (.inr ⟨p, h.symm⟩)
  refine ⟨⟨?_, fun f hf => ?_⟩, fun hd => absurd hs hd, fun _ => ⟨?_, hx, hy, ht, fun f hf k hk => ?_⟩,
    fun hx => absurd hx he, fun _ => hs⟩
  · rw [hkeys]
    rw [List.cons_append, List.nodup_cons, List.nodup_append]
    refine ⟨by simp, hpairs.map fun a b hab => ?_, hpairs.map fun a b hab => ?_, fun x hx y hy => ?_⟩
    · simpa using hab
    · simpa using hab
    · obtain ⟨a, -, rfl⟩ := List.mem_map.mp hx
      obtain ⟨b, -, rfl⟩ := List.mem_map.mp hy
      simp
  · rcases hmem f hf with h | ⟨p, h⟩ | ⟨p, h⟩ <;> simp [h]
  · rw [hq]
    rfl
  · rcases hmem f hf with h | ⟨p, h⟩ | ⟨p, h⟩ <;> simp [h] at hk

/-- A line parked as absent sends nothing on its link (R136). -/
theorem parkAbsent_exchange (s : State) (n : LineNo) (l : LinkNo) :
    ((parkAbsent s n).link l).exchange = (s.link l).exchange := by
  unfold parkAbsent
  split
  · have hm := (congrArg LinkRec.exchange (link_unqueued (parkLine_move s n).links l) :)
    refine hm.trans ?_
    show ((unschedule s n).link l).exchange = _
    simp only [unschedule, State.link_modLink_ite]
    split
    · next h => rw [h]
    · rfl
  · rfl

theorem eachLine_link {f : State → LineNo → State} {α : Type} {g : LinkRec → α}
    (hf : ∀ s n, g ((f s n).link l) = g (s.link l)) (L : List LineNo) (s : State) :
    g ((eachLine f L s).link l) = g (s.link l) := by
  refine List.foldlRecOn (motive := fun u : State => g (u.link l) = g (s.link l)) L _ rfl fun u hu n _ => ?_
  split
  · rw [markImage_eq]
    exact (hf u n).trans hu
  · exact (hf u n).trans hu

theorem parkAbsent_confined (h : Confined E U s) (n : LineNo) : Confined E U (parkAbsent s n) :=
  (parkLine_confined h n).ite h

theorem settleUnsensed_confined (h : Confined E U s) (n : LineNo) : Confined E U (settleUnsensed s n) :=
  (enterSettling_confined h n).ite h

/-- A link outside E comes UP: it stays outside. -/
theorem recoverLink_confined (h : Confined E U s) (hl : ¬E l) (hx : (s.link l).exchange = none) (count : Nat)
    (rev : Byte) : Confined E U (recoverLink s l count rev) := by
  unfold recoverLink
  extract_lets s1 s2 frames s3
  have h1 : Confined E U s1 := h.modLink l ((h.links l).congr rfl rfl rfl rfl rfl)
  have h2 : Confined E U s2 := h1.eachLine (fun s n hs => parkAbsent_confined hs n) (linesOf l)
  have hx2 : (s2.link l).exchange = none := by
    refine (eachLine_link (g := LinkRec.exchange) (fun s n => parkAbsent_exchange s n l) (linesOf l) s1).trans ?_
    exact (congrArg LinkRec.exchange (State.link_modLink_same s l _)).trans hx
  have hframes : frames = recoveryFrames s2 l count := rfl
  have h3 : Confined E U s3 := by
    clear_value frames s2
    exact h2.modLink l (recovering_ordered hl rfl hx2 rfl rfl hframes)
  exact h3.eachLine (fun s n hs => settleUnsensed_confined hs n) (linesOf l)

theorem probeAnswered_confined (h : Confined E E s) (hc : CallsSound True s) (l : LinkNo) (count : Nat) (rev : Byte) :
    ∃ E', Confined E' E' (probeAnswered s l count rev) := by
  have h1 := replyTaken_confined h l
  have hc1 : CallsSound True (replyTaken s l) := hc.of_calls (replyTaken_calls s l)
  unfold probeAnswered
  split
  · dsimp only
    split
    · unfold probeWhileUp
      split
      · exact ⟨E, advanceLink_confined (h1.modLink l ((h1.links l).congr rfl rfl rfl rfl rfl)) l⟩
      · exact ⟨_, linkLost_confined h1 hc1 l⟩
    · next hup =>
      refine ⟨E, recoverLink_confined h1 (fun hl => hup (decide_eq_true ((h1.links l).up hl))) ?_ count rev⟩
      simp only [replyTaken, endExchange, State.link_modLink_same]
  · exact ⟨E, h⟩

theorem probeTimerEnds_confined (h : Confined E U s) (l : LinkNo) : Confined E U (probeTimerEnds s l) := by
  unfold probeTimerEnds
  dsimp only
  split
  · next hd => exact h.modLink l (((h.links l).probe hd.1).congr rfl rfl rfl rfl rfl)
  · exact h

/-- An idle link has no TAP CLEAR ALL to send. -/
theorem idleEnds_confined (h : Confined E U s) (l : LinkNo) : Confined E U (idleEnds s l) := by
  unfold idleEnds
  dsimp only
  split
  · next hd =>
    obtain ⟨hup, -, hnone, -⟩ := hd
    have hq : (s.link l).queue = [] := by
      simp only [nothingWaiting, Bool.and_eq_true, List.isEmpty_iff] at hnone
      exact hnone.1.1
    have hc : Frame.tapClearAll ∉ (s.link l).queue := by simp [hq]
    exact h.modLink l (((h.links l).free hup (List.Sublist.refl _) hc).congr rfl rfl rfl rfl rfl)
  · exact h

theorem surgeEnds_confined (h : Confined E U s) (l : LinkNo) : Confined E U (surgeEnds s l) :=
  Confined.ite (h.modLink l ((h.links l).congr rfl rfl rfl rfl rfl)) h

end Sys2Proof.Machine
end

section
/-! SUPPORT. The links kept in order, continued: master accesses, images, sweeps, exchange states and register
writes. -/

namespace Sys2Proof.Machine

variable {E U : LinkNo → Prop} {s t : State} {n : LineNo} {k : RcvNo} {l : LinkNo}

/-! ### Series of master accesses -/

theorem busWrite_confined (h : Confined E U s) (bad : Option Word) (off : Nat) (bytes : List Byte) :
    (busWrite bad s off bytes).Reaches (Confined E U) := by
  unfold busWrite
  split
  · exact h
  · exact h

theorem busWriteField_confined (h : Confined E U s) (bad : Option Word) (off n : Nat) (v : Int) :
    (busWriteField bad s off n v).Reaches (Confined E U) :=
  busWrite_confined h bad off _

theorem busRead_confined (h : Confined E U s) {bad : Option Word} {off n : Nat} {k : List Byte → BusRes}
    (hk : ∀ b, (k b).Reaches (Confined E U)) : (busRead bad s off n k).Reaches (Confined E U) := by
  unfold busRead
  split
  · exact h
  · exact hk _

theorem busReadField_confined (h : Confined E U s) {bad : Option Word} {off n : Nat} {k : Nat → BusRes}
    (hk : ∀ v, (k v).Reaches (Confined E U)) : (busReadField bad s off n k).Reaches (Confined E U) :=
  busRead_confined h fun _ => hk _

theorem busWriteFields_confined (h : Confined E U s) (bad : Option Word) (l : List (Nat × Int)) (off : Nat) :
    (busWriteFields bad off l s).Reaches (Confined E U) := by
  induction l generalizing s off with
  | nil => exact h
  | cons x t ih => exact (busWriteField_confined h bad _ _ _).andThen fun s hs => ih hs _

theorem settle_confined {r : BusRes} (h : r.Reaches (Confined E U)) : Confined E U r.settle := by
  cases r with
  | ok s => exact h
  | err s a => exact halt_confined h a

/-- A series that is run only where it is due. -/
theorem reachesIf_confined {r : BusRes} (hr : r.Reaches (Confined E U)) (h : Confined E U s) (c : Prop)
    [Decidable c] : (if c then r else .ok s).Reaches (Confined E U) := by
  split
  · exact hr
  · exact h

/-! ### Images and the header -/

theorem takeTaken_confined (h : Confined E U s) (n : LineNo) (v : Count) : Confined E U (takeTaken s n v) :=
  Confined.ite (h.modLine_same n rfl) h

theorem writeEntries_confined (h : Confined E U s) (bad : Option Word) (n : LineNo) (l : List DigitEntry)
    (w : Count) : (writeEntries bad n w l s).Reaches (Confined E U) := by
  induction l generalizing s w with
  | nil => exact h
  | cons e t ih => exact (busWriteFields_confined h bad _ _).andThen fun s hs => ih hs _

theorem writeItems_confined (h : Confined E U s) (bad : Option Word) (n : LineNo) (l : List ImageItem) :
    (busEach (writeItem bad n) l s).Reaches (Confined E U) :=
  BusRes.reaches_busEach (fun _ _ hs => busWriteField_confined hs bad _ _ _) l h

theorem writeMeasures_confined (h : Confined E U s) (bad : Option Word) (n : LineNo) :
    (writeMeasures bad n s).Reaches (Confined E U) := by
  refine (busWriteFields_confined h bad _ _).andThen fun s hs => ?_
  exact (busWriteField_confined hs bad _ _ _).andThen fun s hs => hs.modLine_same n rfl

theorem rewriteBody_confined (h : Confined E U s) (bad : Option Word) (n : LineNo) (pace : Bool) :
    (rewriteBody bad n pace s).Reaches (Confined E U) := by
  refine (writeEntries_confined h bad n _ _).andThen fun s hs => ?_
  have hwritten (m : Nat) : (writeWritten bad n m s).Reaches (Confined E U) := by
    unfold writeWritten
    split
    · exact hs
    · exact busWriteField_confined hs bad _ _ _
  refine (hwritten _).andThen fun s hs => ?_
  refine (writeItems_confined hs bad n _).andThen fun s hs => ?_
  refine (reachesIf_confined (writeMeasures_confined hs bad n) hs _).andThen fun s hs => ?_
  extract_lets s1
  have h1 : Confined E U s1 := hs.modLine_same n rfl
  exact h1

theorem startRewrite_confined (h : Confined E U s) (bad : Option Word) :
    (startRewrite bad s).Reaches (Confined E U) := by
  unfold startRewrite
  split
  next n rest _ =>
    refine (busWriteField_confined (s := { s with rewriteList := rest }) h bad _ _ _).andThen fun s hs => ?_
    have h1 : Confined E U (s.modLine n fun x => { x with changePending := false, pacePending := false }) :=
      hs.modLine_same n rfl
    have hread : (readIfFull bad (s.modLine n fun x => { x with changePending := false, pacePending := false })
        n).Reaches (Confined E U) := by
      refine reachesIf_confined (busReadField_confined h1 fun v => ?_) h1 _
      exact takeTaken_confined h1 n _
    exact hread.andThen fun s hs => rewriteBody_confined hs bad n _
  · exact h

theorem endRewrite_confined (h : Confined E U s) (bad : Option Word) (w : Rewrite) :
    (endRewrite bad w s).Reaches (Confined E U) := by
  refine (busWriteField_confined h bad _ _ _).andThen fun s hs => ?_
  have h1 : Confined E U (s.modLine w.line (endRewriteLine w.moved)) := hs.modLine_same w.line rfl
  show Confined E U (if w.notable then _ else _)
  split
  · exact h1
  · exact h1

theorem writeHeader_confined (h : Confined E U s) (bad : Option Word) (stopped : Bool) :
    (writeHeader bad stopped s).Reaches (Confined E U) := by
  refine (busWriteField_confined h bad _ _ _).andThen fun s hs => ?_
  have hmark : Confined E U { s with headerPending := false } := hs
  refine (BusRes.reaches_busEach (fun _ _ hs => busWriteField_confined hs bad _ _ _) _ hmark).andThen fun s hs => ?_
  refine (busWrite_confined hs bad _ _).andThen fun s hs => ?_
  exact (busWriteField_confined hs bad _ _ _).andThen fun s hs => hs

/-! ### STARTING -/

theorem adoptSlot_confined (h : Confined E U s) (bad : Option Word) (k : SlotNo) :
    (adoptSlot bad s k).Reaches (Confined E U) := by
  unfold adoptSlot
  refine busReadField_confined h fun issue => busReadField_confined h fun comp => ?_
  extract_lets s1
  have h1 : Confined E U s1 := h
  clear_value s1
  split
  · exact h1
  refine (busWriteField_confined h1 bad _ _ _).andThen fun s hs => ?_
  refine (busWriteField_confined hs bad _ _ _).andThen fun s hs => ?_
  refine (busWrite_confined hs bad _ _).andThen fun s hs => ?_
  refine (busWriteField_confined hs bad _ _ _).andThen fun s hs => ?_
  exact (busWriteField_confined hs bad _ _ _).andThen fun s hs => hs

theorem adoptLine_confined (h : Confined E U s) (bad : Option Word) (n : LineNo) :
    (adoptLine bad s n).Reaches (Confined E U) := by
  refine busReadField_confined h fun v => ?_
  have h1 : Confined E U (adoptCounts s n (BitVec.ofNat 16 v)) := h.modLine_same n rfl
  refine (busWriteField_confined h1 bad _ _ _).andThen fun s hs => ?_
  have hgaps : (busEach (writeGap bad n) imageGaps s).Reaches (Confined E U) :=
    BusRes.reaches_busEach (fun _ _ hs => busWrite_confined hs bad _ _) _ hs
  refine hgaps.andThen fun s hs => ?_
  refine (writeEntries_confined hs bad n _ _).andThen fun s hs => ?_
  refine (busWriteField_confined hs bad _ _ _).andThen fun s hs => ?_
  refine (writeItems_confined hs bad n _).andThen fun s hs => ?_
  refine (writeMeasures_confined hs bad n).andThen fun s hs => ?_
  exact (busWriteField_confined hs bad _ _ _).andThen fun s hs => hs.modLine_same n rfl

theorem enterStarting_confined (h : Confined E U s) (bad : Option Word) :
    (enterStarting bad s).Reaches (Confined E U) := by
  have hlatch : Confined E U (latch s) := h
  refine (BusRes.reaches_busEach (fun s k hs => adoptSlot_confined hs bad k) allSlots hlatch).andThen fun s hs => ?_
  refine (BusRes.reaches_busEach (fun s n hs => adoptLine_confined hs bad n) allLines hs).andThen fun s hs => ?_
  exact writeHeader_confined (s := { s with changeCount := s.changeCount + 1 }) hs bad false

/-! ### Completions, orders and sweeps -/

theorem completeIfDue_confined (h : Confined E U s) (bad : Option Word) (k : SlotNo) :
    (completeIfDue bad k s).Reaches (Confined E U) := by
  unfold completeIfDue
  split
  next c _ =>
    have hresult : (writeResult bad c s).Reaches (Confined E U) := by
      unfold writeResult
      split
      · exact busWriteFields_confined h bad _ _
      · exact h
    refine hresult.andThen fun s hs => ?_
    refine (busWriteField_confined hs bad _ _ _).andThen fun s hs => ?_
    refine (busWriteField_confined hs bad _ _ _).andThen fun s hs => ?_
    refine (busWrite_confined hs bad _ _).andThen fun s hs => ?_
    exact (busWriteField_confined hs bad _ _ _).andThen fun s hs => hs
  · exact h

theorem orderCancel_confined (h : Confined E U s) (bad : Option Word) (k : SlotNo) (o : OrderRead) :
    (orderCancel bad s k o).Reaches (Confined E U) := by
  have hrefuse (r : Reason) (d : List Nat) : Confined E U (refuse s k r d) := refuse_confined h k r d
  unfold orderCancel
  split
  · dsimp only
    split
    · exact hrefuse _ _
    split
    · exact hrefuse _ _
    · exact (completeIfDue_confined (abortSlot_confined h _ _ _) bad _).andThen fun s hs =>
        complete_confined hs k _
  · exact hrefuse _ _

theorem orderLoadProfile_confined (h : Confined E U s) (bad : Option Word) (k : SlotNo) (o : OrderRead) :
    (orderLoadProfile bad s k o).Reaches (Confined E U) := by
  unfold orderLoadProfile
  split
  · exact busRead_confined h fun b => loadProfile_confined h k _ b
  · exact refuse_confined h k _ _

theorem dispatch_confined (h : Confined E U s) (bad : Option Word) (k : SlotNo) (o : OrderRead) :
    (dispatch bad s k o).Reaches (Confined E U) := by
  unfold dispatch
  split
  · exact orderAssign_confined h k o
  · exact orderLoadProfile_confined h bad k o
  · exact orderEconomy_confined h k o
  · exact orderSurvey_confined h k o
  · exact orderCalibrate_confined h k o
  · exact orderSetTrim_confined h k o
  · exact orderInsulationTest_confined h k o
  · exact orderClearFault_confined h k o
  · exact orderListen_confined h k o
  · exact orderReceiverService_confined h k o
  · exact orderReceiverCheck_confined h k o
  · exact orderTrace_confined h k o
  · exact orderCancel_confined h bad k o
  · exact refuse_confined h k _ _

theorem takeSlot_confined (h : Confined E U s) (bad : Option Word) (k : SlotNo) :
    (takeSlot bad s k).Reaches (Confined E U) := by
  unfold takeSlot
  refine busRead_confined h fun b => ?_
  refine (busWriteField_confined h bad _ _ _).andThen fun s hs => ?_
  exact (dispatch_confined (s := s.modSlot k _) hs bad k _).andThen fun s hs => completeIfDue_confined hs bad k

theorem sweepSlot_confined (h : Confined E U s) (bad : Option Word) (k : SlotNo) :
    (sweepSlot bad s k).Reaches (Confined E U) := by
  refine busReadField_confined h fun issue => reachesIf_confined ?_ h _
  exact (takeSlot_confined h bad k).andThen fun t ht => markChanges_confined ht s

theorem sweepLine_confined (h : Confined E U s) (bad : Option Word) (n : LineNo) :
    (sweepLine bad s n).Reaches (Confined E U) := by
  unfold sweepLine
  split
  · exact h
  refine busReadField_confined h fun v => ?_
  show Confined E U (markRoom s n _)
  have h1 : Confined E U (takeTaken s n (BitVec.ofNat 16 v)) := takeTaken_confined h n _
  exact (markImage_confined h1 n).ite h1

theorem sweepBody_confined (h : Confined E U s) (bad : Option Word) : (sweepBody bad s).Reaches (Confined E U) := by
  have h1 : Confined E U { s with sweeping := true } := h
  exact (BusRes.reaches_busEach (fun s k hs => sweepSlot_confined hs bad k) allSlots h1).andThen fun s hs =>
    BusRes.reaches_busEach (fun s n hs => sweepLine_confined hs bad n) allLines hs

theorem callSweep_confined (h : Confined E U s) (bad : Option Word) : (callSweep bad s).Reaches (Confined E U) := by
  refine reachesIf_confined ?_ h _
  split
  · exact h
  · exact sweepBody_confined h bad

theorem endSweep_confined (h : Confined E U s) (bad : Option Word) : (endSweep bad s).Reaches (Confined E U) := by
  refine reachesIf_confined ?_ h _
  split
  · exact sweepBody_confined (s := { s with sweepAgain := false }) h bad
  · exact h

/-! ### Exchange states, register writes and resets -/

theorem beginStopping_confined (h : Confined E U s) : Confined E U (beginStopping s) := by
  refine abortAll_confined ?_ .stopped .stopped
  exact h

theorem endStarting_confined (h : Confined E U s) (bad : Option Word) :
    (endStarting bad s).Reaches (Confined E U) := by
  refine reachesIf_confined ?_ h _
  dsimp only
  split
  · refine sweepBody_confined ?_ bad
    exact h
  · refine beginStopping_confined ?_
    exact h

theorem endStopping_confined (h : Confined E U s) (bad : Option Word) :
    (endStopping bad s).Reaches (Confined E U) := by
  refine reachesIf_confined ((writeHeader_confined h bad true).andThen fun s hs => ?_) h _
  split
  · exact enterStarting_confined hs bad
  · exact markChanges_confined (t := { s with exch := .stopped }) hs s

theorem runChanged_confined (h : Confined E U s) (bad : Option Word) (old : Bool) :
    (runChanged bad old s).Reaches (Confined E U) := by
  have hdecide : Confined E U (markChanges s (periodDecision s)) :=
    markChanges_confined (periodDecision_confined h) s
  unfold runChanged
  split
  · exact reachesIf_confined (enterStarting_confined hdecide bad) h _
  · exact hdecide.ite h
  · exact (markChanges_confined (beginStopping_confined h) s).ite h
  · exact h.ite (markChanges_confined (t := { s with exch := .stopped }) h s)
  · exact h

/-- A reset leaves every line outside a call, every receiver FREE and every link DOWN (R68, R135, R172). -/
theorem reset_confined (hl : ∀ n, (s.line n).sup = .none) (hk : s.links = Vector.replicate 4 LinkRec.reset)
    (hr : s.rcvs = Vector.replicate 8 RcvState.free) (hw : s.waiting = []) :
    Confined (fun _ => False) (fun _ => False) s := by
  refine ⟨fun n hn => ?_, fun k l hl => ?_, fun e he => ?_, fun l => ?_⟩
  · rw [hl] at hn
    cases hn
  · rw [State.rcv, hr, Vector.getElem_replicate] at hl
    cases hl
  · rw [hw] at he
    cases he
  · rw [State.link, hk, Vector.getElem_replicate]
    exact ⟨⟨List.nodup_nil, fun _ hf => nomatch hf⟩, fun _ => ⟨rfl, rfl, .inr rfl, rfl⟩, fun hc => (nomatch hc),
      fun _ hc => (nomatch hc), False.elim⟩

theorem pinReset_confined (s : State) : Confined (fun _ => False) (fun _ => False) (pinReset s) :=
  reset_confined (fun n => by simp [pinReset, State.reset, State.line, LineRec.reset]) rfl rfl rfl

theorem softReset_confined (s : State) : Confined (fun _ => False) (fun _ => False) (softReset s) :=
  reset_confined (fun n => by simp [softReset, State.line, LineRec.reset]) rfl rfl rfl

theorem writeCtrl_confined (h : Confined E E s) (bad : Option Word) (v : Word) :
    ∃ E', Confined E' E' (writeCtrl bad v s).settle := by
  unfold writeCtrl
  split
  · exact ⟨_, softReset_confined s⟩
  · exact ⟨E, settle_confined (runChanged_confined (s := { s with ctrl := v &&& Config.ctrlMask }) h bad _)⟩

theorem writeReg_confined (h : Confined E E s) (bad : Option Word) (r : Reg) (v : Word) :
    ∃ E', Confined E' E' (writeReg bad r v s) := by
  cases r with
  | id => exact ⟨E, h⟩
  | ctrl => exact writeCtrl_confined h bad v
  | stat => exact ⟨E, h⟩
  | abase => exact ⟨E, h.ite (s := { s with abase := v }) h⟩
  | awin => exact ⟨E, h.ite (s := { s with awin := v.setWidth 3 }) h⟩
  | attn => exact ⟨E, markChanges_confined (settle_confined (callSweep_confined h bad)) s⟩
  | faddr => exact ⟨E, h⟩

end Sys2Proof.Machine
end

section
/-! O59: every command keeps the links in order. -/

namespace Sys2Proof.Machine

variable {E U : LinkNo → Prop} {s t : State} {n : LineNo} {k : RcvNo} {l : LinkNo}

/-! ### The shapes of the commands -/

/-- Some set of UP links has all the calls, receivers and waiting lines. -/
def InOrder (s : State) : Prop := ∃ E, Confined E E s

theorem next_inOrder {u : State} (h : InOrder u) (e : (.next u : Host.Outcome State Fault Refusal) = .next t) :
    InOrder t :=
  Host.Outcome.next.inj e ▸ h

theorem marked_inOrder {u : State} (h : InOrder u)
    (e : (.next (markChanges s u) : Host.Outcome State Fault Refusal) = .next t) : InOrder t := by
  obtain ⟨F, hF⟩ := h
  exact next_inOrder ⟨F, markChanges_confined hF s⟩ e

theorem onBus_inOrder {b : Bus} {f : State → State} (h : Confined E E s)
    (hf : ∀ s, Confined E E s → InOrder (f s)) (e : onBus b f s = .next t) : InOrder t := by
  unfold onBus at e
  split at e
  · exact next_inOrder (hf (withCtl b s) h) e
  · cases e

theorem onBusMarked_inOrder {b : Bus} {f : State → BusRes} (h : Confined E E s)
    (hf : ∀ s, Confined E E s → (f s).Reaches (Confined E E)) (e : onBusMarked b f s = .next t) : InOrder t :=
  onBus_inOrder h (fun s hs => ⟨E, markChanges_confined (settle_confined (hf s hs)) s⟩) e

/-! ### Every command, every step -/

theorem execRewriteEnd_inOrder {b : Bus} (h : Confined E E s) (e : execRewriteEnd b s = .next t) : InOrder t := by
  refine onBusMarked_inOrder h (fun s hs => ?_) e
  split
  · exact reachesIf_confined (endRewrite_confined hs b.bad _) hs _
  · exact hs

theorem execPaceTick_inOrder {q : Pace} (h : Confined E E s) (e : execPaceTick q s = .next t) : InOrder t :=
  next_inOrder
    ⟨E, (h.foldl (fun _ n hs => (markPace_confined hs n).ite hs) allLines).ite h⟩ e

theorem exec_inOrder {c : Instr} (hc : CallsSound True s) (h : Confined E E s) (hE : Covers E s)
    (e : exec c s = .next t) : InOrder t := by
  have hscan (l : LinkNo) (p : PairNo) (x : Sample) : Confined E E (sampleAnswered s l p x) :=
    sampleAnswered_confined h hE l p x
  have hcase (due : Bool) (l : LinkNo) (p : PairNo) (x : Sample) : Confined E E (caseStep due s l p x) :=
    (hscan l p x).ite h
  have hblock (k : RcvNo) (v : BlockLevels) : Confined E E (blockEnds s k v) := blockEnds_confined h k v
  cases c with
  | pinReset => exact next_inOrder ⟨_, pinReset_confined s⟩ e
  | softReset v => exact next_inOrder ⟨_, softReset_confined s⟩ e
  | runSet v b => exact onBus_inOrder h (fun s hs => writeCtrl_confined hs b.bad _) e
  | startingEnd b => exact onBusMarked_inOrder h (fun s hs => endStarting_confined hs b.bad) e
  | runClear v => exact next_inOrder (writeCtrl_confined h none _) e
  | stoppingEnd b => exact onBus_inOrder h (fun s hs => ⟨E, settle_confined (endStopping_confined hs b.bad)⟩) e
  | haltClear v => exact next_inOrder (writeCtrl_confined h none _) e
  | statClear v => exact next_inOrder (u := writeStat v s) ⟨E, h⟩ e
  | registerWrite r v b => exact onBus_inOrder h (fun s hs => writeReg_confined hs b.bad r v) e
  | attnWrite b => exact onBusMarked_inOrder h (fun s hs => callSweep_confined hs b.bad) e
  | pollTick b =>
    exact onBusMarked_inOrder h
      (fun s hs => reachesIf_confined (callSweep_confined (s := pollTicked s) hs b.bad) hs _) e
  | sweepEnd b => exact onBusMarked_inOrder h (fun s hs => endSweep_confined hs b.bad) e
  | completion k b =>
    exact onBusMarked_inOrder h (fun s hs => reachesIf_confined (completeIfDue_confined hs b.bad k) hs _) e
  | imageRewrite b =>
    exact onBusMarked_inOrder h (fun s hs => reachesIf_confined (startRewrite_confined hs b.bad) hs _) e
  | rewriteEnd b => exact execRewriteEnd_inOrder h e
  | headerRewrite b =>
    exact onBusMarked_inOrder h (fun s hs => reachesIf_confined (writeHeader_confined hs b.bad false) hs _) e
  | masterAccessFailure w => exact next_inOrder ⟨E, (halt_confined h w).ite h⟩ e
  | paceTick q => exact execPaceTick_inOrder h e
  | scanPeriodStart => exact marked_inOrder ⟨E, startPeriod_confined h⟩ e
  | sampleReply l p x => exact marked_inOrder ⟨E, hscan l p x⟩ e
  | interdigitCompletion l p x => exact marked_inOrder ⟨E, hcase _ l p x⟩ e
  | longBreakCompletion l p x => exact marked_inOrder ⟨E, hcase _ l p x⟩ e
  | clear l p x => exact marked_inOrder ⟨E, hcase _ l p x⟩ e
  | lockoutClear l p x => exact marked_inOrder ⟨E, hcase _ l p x⟩ e
  | firstDigitTimeout l p x => exact marked_inOrder ⟨E, hcase _ l p x⟩ e
  | dialEndTimeout l p x => exact marked_inOrder ⟨E, hcase _ l p x⟩ e
  | surveyCompletion l p x => exact marked_inOrder ⟨E, hcase _ l p x⟩ e
  | quietDelay l p x => exact marked_inOrder ⟨E, hcase _ l p x⟩ e
  | decisionEnd l p x => exact marked_inOrder ⟨E, hcase _ l p x⟩ e
  | phaseComplete l p x => exact marked_inOrder ⟨E, hcase _ l p x⟩ e
  | exchangeTimeout l => exact marked_inOrder (timeOut_confined h hc l) e
  | linkLoss l =>
    refine marked_inOrder (u := if lossDue s l = true then timeOut s l else s) ?_ e
    split
    · exact timeOut_confined h hc l
    · exact ⟨E, h⟩
  | unmatchedReply l r => exact next_inOrder ⟨E, h⟩ e
  | probeTimer l => exact marked_inOrder ⟨E, probeTimerEnds_confined h l⟩ e
  | idleProbe l => exact marked_inOrder ⟨E, idleEnds_confined h l⟩ e
  | probeReply l c r => exact marked_inOrder (probeAnswered_confined h hc l c r) e
  | surgeHoldExpiry l => exact marked_inOrder ⟨E, surgeEnds_confined h l⟩ e
  | trimReply l a => exact marked_inOrder ⟨E, trimAnswered_confined h l a⟩ e
  | relayReply l a => exact marked_inOrder ⟨E, relayAnswered_confined h l a⟩ e
  | tapConnectReply l a => exact marked_inOrder ⟨E, connectAnswered_confined h l a⟩ e
  | tapDisconnectReply l a => exact marked_inOrder ⟨E, disconnectAnswered_confined h l a⟩ e
  | tapClearAllReply l a => exact marked_inOrder ⟨E, clearAllAnswered_confined h l a⟩ e
  | guardEnd k => exact marked_inOrder ⟨E, guardEnds_confined h k⟩ e
  | blockEnd k v => exact marked_inOrder ⟨E, hblock k _⟩ e
  | toneAcceptance k v => exact marked_inOrder ⟨E, (hblock k _).ite h⟩ e
  | gapEnd k v => exact marked_inOrder ⟨E, (hblock k _).ite h⟩ e
  | checkEnd k => exact marked_inOrder ⟨E, (hblock k _).ite h⟩ e
  | listenExpiry k => exact marked_inOrder ⟨E, (expireListen_confined h k).ite h⟩ e
  | traceExpiry => exact marked_inOrder ⟨E, traceExpires_confined h⟩ e
  | warbleHalf => exact marked_inOrder ⟨E, warble_confined h⟩ e

/-- Poll ticks and surge holds that end in a millisecond place no frame. -/
theorem idle_confined (h : Confined E U s) : Confined E U (idle s) := by
  have hpoll : Confined E U (pollPast s) := by
    rw [pollPast_eq]
    exact h
  have hsurge : Confined E U (surgesPast (pollPast s)) :=
    hpoll.foldl (fun s l hs => surgeEnds_confined hs l) allLinks
  unfold idle
  generalize surgesPast (pollPast s) = u at hsurge
  exact hsurge

/-! ### The invariant of the links -/

/-- The links that are UP and have sent their TAP CLEAR ALL have all the calls, receivers and waiting lines. -/
theorem LinksSound.confined (h : LinksSound s) (hc : CallsSound True s) :
    Confined (fun l => ¬freshLink s l) (fun l => ¬freshLink s l) s := by
  have hpool := poolSound_iff.mpr (hc.pool trivial)
  have hcall : ∀ n, isCall (s.line n).sup = true → ¬freshLink s (linkOf n) := fun n hn hf => by
    have hout := (h.fresh _ hf).2.1 (pairOf n)
    rw [lineAt_linkOf_pairOf] at hout
    exact absurd (hn.symm.trans hout) (by decide)
  have hidle (k : RcvNo) (l : LinkNo) (hb : busyOn l (s.rcv k) = true) : ¬freshLink s l := fun hf =>
    absurd (hb.symm.trans ((h.fresh l hf).2.2 k)) (by decide)
  refine ⟨hcall, fun k l hl => ?_, fun e he => hcall _ (hpool.listed e he).2, fun l => ?_⟩
  · rcases mem_ties_iff.mp hl with hb | ⟨e, he, rfl⟩
    · exact hidle k l hb
    · exact hcall _ (hpool.serving k e he).2
  · refine ⟨h.keyed l, fun hd => ?_, fun hq => ?_, fun hf hq => hf (.inr hq), fun hf => ?_⟩
    · obtain ⟨hq, hy, hx⟩ := h.down l hd
      exact ⟨hq, hy, hx, (h.fresh l (.inl hd)).1⟩
    · obtain ⟨hh, hx, hy, ht⟩ := h.clearing l hq
      exact ⟨hh, hx, hy, (h.fresh l (.inr hq)).1, ht⟩
    · exact not_not.mp fun hd => hf (.inl hd)

theorem keyed_length {r : LinkRec} (h : queueKeyed r) {keys : List FrameKey}
    (hk : ∀ f ∈ r.queue, ∀ x, keyOf f = some x → x ∈ keys) : r.queue.length ≤ keys.length := by
  have hsub : r.queue.map keyOf ⊆ keys.map some := fun y hy => by
    obtain ⟨f, hf, rfl⟩ := List.mem_map.mp hy
    obtain ⟨x, hx⟩ := Option.ne_none_iff_exists'.mp (h.2 f hf)
    exact hx ▸ List.mem_map_of_mem (hk f hf x hx)
  simpa using (h.1.subperm hsub).length_le

/-- A queue of one frame of each key holds at most 40: without TAP CLEAR ALL 16 TRIM, 16 RELAY and 8 TAP frames, with
it no TAP frame (R140). -/
theorem LinkRec.Ordered.length_le {e u : Prop} {r : LinkRec} (h : r.Ordered e u) : r.queue.length ≤ 40 := by
  by_cases hc : Frame.tapClearAll ∈ r.queue
  · obtain ⟨-, -, -, -, ht⟩ := h.clearing hc
    have hle := keyed_length h.keyed (keys := .clearAll :: allPairs.map .trim ++ allPairs.map .relay)
      fun f hf x hx => by
        cases x with
        | tap k => exact absurd hx (ht f hf k)
        | _ => simp [allPairs, List.mem_finRange]
    exact hle.trans (by decide)
  · have hle := keyed_length h.keyed (keys := allPairs.map .trim ++ allPairs.map .relay ++ allRcvs.map .tap)
      fun f hf x hx => by
        cases x with
        | clearAll => exact absurd (keyOf_eq_clearAll.mp hx ▸ hf) hc
        | _ => simp [allPairs, allRcvs, List.mem_finRange]
    exact hle.trans (by decide)

theorem InOrder.linksSound (h : InOrder s) : LinksSound s := by
  obtain ⟨E, h⟩ := h
  have hfresh (l : LinkNo) (hf : freshLink s l) : ¬E l := fun hl =>
    hf.elim (fun hd => hd ((h.links l).up hl)) ((h.links l).cleared hl)
  refine ⟨fun l => (h.links l).keyed, fun l => (h.links l).length_le, fun l hd => ?_, fun l hc => ?_,
    fun l hf => ⟨?_, fun p => ?_, fun k => ?_⟩⟩
  · obtain ⟨hq, hy, hx, -⟩ := (h.links l).down hd
    exact ⟨hq, hy, hx⟩
  · obtain ⟨hh, hx, hy, -, ht⟩ := (h.links l).clearing hc
    exact ⟨hh, hx, hy, ht⟩
  · rcases hf with hd | hc
    · exact ((h.links l).down hd).2.2.2
    · exact ((h.links l).clearing hc).2.2.2.1
  · exact eq_false_of_ne_true fun hn => hfresh l hf (linkOf_lineAt l p ▸ h.calls hn)
  · exact eq_false_of_ne_true fun hb => hfresh l hf (h.receivers (k := k) rfl l (mem_ties_iff.mpr (.inl hb)))

/-- Settles O59: calls, receivers and waiting lines keep to the links that are UP and have sent their TAP CLEAR ALL, and
every command and every millisecond that passes keeps some such set of links. -/
theorem stepsKeepTheLinksSound : Obligations.StepsKeepTheLinksSound := by
  intro s t hs hp hl e
  have hc : CallsSound True s := ⟨servicesSound_iff.mp hs, fun _ => poolSound_iff.mp hp⟩
  have h := hl.confined hc
  refine InOrder.linksSound ?_
  unfold step at e
  split at e
  · exact next_inOrder ⟨_, idle_confined h⟩ e
  · next c rest _ =>
    exact exec_inOrder (s := { s with pending := rest }) (hc.of_calls rfl) h (fun l hf => hf) e

end Sys2Proof.Machine
end

section
/-! O41: replies that match no exchange, and the timers of the links. -/

namespace Sys2Proof.Machine

variable {s : State} {l : LinkNo}

/-- A link's state, report and test are all that images and header show of it (R165, R180). -/
theorem markChanges_modLink (s : State) (l : LinkNo) {f : LinkRec → LinkRec} (hs : (f (s.link l)).state = (s.link l).state)
    (hc : (f (s.link l)).pairCount = (s.link l).pairCount) (hr : (f (s.link l)).revision = (s.link l).revision)
    (ht : (f (s.link l)).test = (s.link l).test) : markChanges s (s.modLink l f) = s.modLink l f := by
  have hlink {α : Type} (g : LinkRec → α) (hg : g (f (s.link l)) = g (s.link l)) (m : LinkNo) :
      g ((s.modLink l f).link m) = g (s.link m) := by
    rw [State.link_modLink_ite]
    split
    · next h => rw [hg, h]
    · rfl
  refine markChanges_unseen (fun n => imageChanged_of_line rfl (hlink LinkRec.test ht)) ?_ rfl
  have hlinks : ∀ m, ((s.modLink l f).link m).state = (s.link m).state
      ∧ ((s.modLink l f).link m).pairCount = (s.link m).pairCount
      ∧ ((s.modLink l f).link m).revision = (s.link m).revision :=
    fun m => ⟨hlink _ hs m, hlink _ hc m, hlink _ hr m⟩
  simp only [headerItems, headerHigh, hlinks]
  rfl

/-- A step that does nothing. -/
theorem stepMarked_idle {f : State → State} (h : f s = s) : stepMarked f s = .next s := by
  rw [stepMarked, h, markChanges_self]

/-! ### Replies that match no exchange (R134) -/

theorem trimAnswered_stray (h : ∀ p r c o, (s.link l).exchange ≠ some (.trim p r c o)) (ack : Bool) :
    trimAnswered s l ack = s := by
  unfold trimAnswered
  split
  · next hx => exact absurd hx (h _ _ _ _)
  · rfl

theorem relayAnswered_stray (h : ∀ p c o, (s.link l).exchange ≠ some (.relay p c o)) (ack : Bool) :
    relayAnswered s l ack = s := by
  unfold relayAnswered
  split
  · next hx => exact absurd hx (h _ _ _)
  · rfl

theorem connectAnswered_stray (h : ∀ p k, (s.link l).exchange ≠ some (.tapConnect p k)) (ack : Bool) :
    connectAnswered s l ack = s := by
  unfold connectAnswered
  split
  · next hx => exact absurd hx (h _ _)
  · rfl

theorem disconnectAnswered_stray (h : ∀ k, (s.link l).exchange ≠ some (.tapDisconnect k)) (ack : Bool) :
    disconnectAnswered s l ack = s := by
  unfold disconnectAnswered
  split
  · next hx => exact absurd hx (h _)
  · rfl

theorem clearAllAnswered_stray (h : (s.link l).exchange ≠ some .tapClearAll) (ack : Bool) :
    clearAllAnswered s l ack = s := by
  unfold clearAllAnswered
  split
  · next hx => exact absurd hx h
  · rfl

/-- Settles O41: every reply and every timer by what it looks for on its link. -/
theorem strayRepliesAndTimersOfLinks : Obligations.StrayRepliesAndTimersOfLinks := by
  refine ⟨fun l s => ⟨fun r => rfl, fun p x hx => ?_, fun count rev hx => ?_, fun ack hx => ?_, fun ack hx => ?_,
    fun ack hx => ?_, fun ack hx => ?_, fun ack hx => ?_⟩, fun l s => ?_⟩
  · exact stepMarked_idle (if_neg hx)
  · refine stepMarked_idle (if_neg fun h => ?_)
    obtain ⟨hp, hn⟩ := h
    rcases hx with hx | ⟨h8, h16⟩
    · exact hx hp
    · exact hn.elim h8 h16
  · exact stepMarked_idle (f := fun s => trimAnswered s l ack) (trimAnswered_stray hx ack)
  · exact stepMarked_idle (f := fun s => relayAnswered s l ack) (relayAnswered_stray hx ack)
  · exact stepMarked_idle (f := fun s => connectAnswered s l ack) (connectAnswered_stray hx ack)
  · exact stepMarked_idle (f := fun s => disconnectAnswered s l ack) (disconnectAnswered_stray hx ack)
  · exact stepMarked_idle (f := fun s => clearAllAnswered s l ack) (clearAllAnswered_stray hx ack)
  · refine ⟨⟨fun hd hx ht => ⟨_, ?_, rfl⟩, fun hup hx hq hy hp ht => ⟨_, ?_, rfl⟩⟩, fun hon ht => ⟨_, ?_, rfl⟩⟩
    · show stepMarked (fun s => probeTimerEnds s l) s = _
      have hstep : probeTimerEnds s l = sendProbe s l := if_pos ⟨hd, hx, ht⟩
      rw [stepMarked, hstep]
      exact congrArg _ (markChanges_modLink s l rfl rfl rfl rfl)
    · show stepMarked (fun s => idleEnds s l) s = _
      have hnone : nothingWaiting s l = true := by
        simpa [nothingWaiting, hq, hy] using hp
      have hstep : idleEnds s l = sendProbe s l := if_pos ⟨hup, hx, hnone, ht⟩
      rw [stepMarked, hstep]
      exact congrArg _ (markChanges_modLink s l rfl rfl rfl rfl)
    · show stepMarked (fun s => surgeEnds s l) s = _
      have hstep : surgeEnds s l = s.modLink l fun r => { r with surgeOn := false } := if_pos ⟨hon, ht⟩
      rw [stepMarked, hstep]
      exact congrArg _ (markChanges_modLink s l rfl rfl rfl rfl)

end Sys2Proof.Machine
end

section
/-! O42: a matching PROBE-REPLY brings a link UP, keeps it UP or loses it (R136 to R138). -/

namespace Sys2Proof.Machine

variable {s t : State} {l : LinkNo} {n : LineNo} {count : Nat} {rev : Byte}

/-! ### Lines taken in turn -/

theorem linesOf_nodup (l : LinkNo) : (linesOf l).Nodup := by
  refine (List.nodup_finRange 16).map fun p q h => ?_
  simpa using congrArg pairOf h

theorem markImage_noRcv (s : State) (n m : LineNo) : ((markImage s n).line m).noRcv = (s.line m).noRcv := by
  rw [markImage_eq]
  show ((s.modLine n fun r => { r with changePending := true }).line m).noRcv = _
  rw [State.line_modLine_ite]
  split
  · next h => rw [h]; rfl
  · rfl

theorem markImage_links (s : State) (n : LineNo) : (markImage s n).links = s.links := by
  rw [markImage_eq]
  rfl

/-- Lines whose turn moves their own record by g, and others at most in receiver and mark, while the links have what
the turns rest on. -/
theorem eachLine_record {f : State → LineNo → State} {g : LineNo → LineRec → LineRec} {I : Vector LinkRec 4 → Prop}
    (hI : ∀ s n, I s.links → I (f s n).links)
    {L : List LineNo} (hown : ∀ s, ∀ n ∈ L, I s.links → ((f s n).line n).noRcv = (g n (s.line n)).noRcv)
    (hother : ∀ s n m, m ≠ n → ((f s n).line m).noRcv = (s.line m).noRcv)
    (hg : ∀ n a b, a.noRcv = b.noRcv → (g n a).noRcv = (g n b).noRcv)
    (hL : L.Nodup) (h : I s.links) (m : LineNo) :
    ((eachLine f L s).line m).noRcv = (if m ∈ L then g m (s.line m) else s.line m).noRcv := by
  induction L generalizing s with
  | nil => rfl
  | cons n L ih =>
    obtain ⟨hn, hL⟩ := List.nodup_cons.mp hL
    obtain ⟨u, hu, hline, hlinks⟩ : ∃ u, eachLine f (n :: L) s = eachLine f L u
        ∧ (∀ m, (u.line m).noRcv = ((f s n).line m).noRcv) ∧ I u.links := by
      refine ⟨_, rfl, fun m => ?_, ?_⟩ <;> dsimp only
      · split
        · exact markImage_noRcv _ n m
        · rfl
      · split
        · rw [markImage_links]
          exact hI s n h
        · exact hI s n h
    rw [hu, ih (fun s m hm => hown s m (.tail _ hm)) hL hlinks]
    by_cases hm : m = n
    · subst hm
      rw [if_neg hn, if_pos List.mem_cons_self, hline, hown s m (.head _) h]
    · have hsame : (u.line m).noRcv = (s.line m).noRcv := (hline m).trans (hother s n m hm)
      simp only [List.mem_cons, hm, false_or]
      split
      · exact hg m _ _ hsame
      · exact hsame

/-! ### Lines found absent, and lines that settle -/

/-- A line's record where a recovery finds its pair absent: an ACTIVE one is parked (R136). -/
def LineRec.absented (count : Nat) (n : LineNo) (r : LineRec) : LineRec :=
  if (count = 8 ∧ 8 ≤ (pairOf n).1) ∧ r.service = .active then r.parked else r

/-- A line's record where its link has come UP: an ACTIVE, UNSENSED one settles (R46). -/
def LineRec.sensed (r : LineRec) : LineRec :=
  if r.service = .active ∧ r.sup = .unsensed then r.settled else r

theorem LineRec.absented_congr {a b : LineRec} (h : a.noRcv = b.noRcv) :
    (a.absented count n).noRcv = (b.absented count n).noRcv := by
  rw [eq_of_noRcv h]
  unfold absented
  split <;> rfl

theorem cal_of_noRcv {a b : LineRec} (h : a.noRcv = b.noRcv) : a.cal = b.cal := (congrArg LineRec.cal h :)

theorem LineRec.absented_cal (count : Nat) (n : LineNo) (r : LineRec) : (r.absented count n).cal = r.cal := by
  unfold absented
  split <;> rfl

theorem LineRec.sensed_congr {a b : LineRec} (h : a.noRcv = b.noRcv) : a.sensed.noRcv = b.sensed.noRcv := by
  rw [eq_of_noRcv h]
  unfold sensed
  split <;> rfl

theorem parkAbsent_standing (s : State) (n : LineNo) (m : LinkNo) :
    ((parkAbsent s n).link m).standing = (s.link m).standing := by
  unfold parkAbsent
  split
  · have hm := (congrArg LinkRec.standing (link_unqueued (parkLine_move s n).links m) :)
    refine hm.trans ?_
    show ((unschedule s n).link m).standing = _
    exact link_standing (congrArg Prod.snd (modLink_unsupervised s (linkOf n) rfl)) m
  · rfl

theorem parkAbsent_record (h : (s.link (linkOf n)).pairCount = count) :
    ((parkAbsent s n).line n).noRcv = ((s.line n).absented count n).noRcv := by
  unfold parkAbsent LineRec.absented absent
  simp only [h, Bool.and_eq_true, decide_eq_true_eq]
  split
  · exact parkLine_record s n
  · rfl

theorem parkAbsent_noRcv (s : State) (n : LineNo) {m : LineNo} (h : m ≠ n) :
    ((parkAbsent s n).line m).noRcv = (s.line m).noRcv := by
  unfold parkAbsent
  split
  · exact parkLine_noRcv s n h
  · rfl

theorem settleUnsensed_record (h : linkUp s (linkOf n) = true) :
    ((settleUnsensed s n).line n).noRcv = (s.line n).sensed.noRcv := by
  unfold settleUnsensed LineRec.sensed
  split
  · rw [enterSettling_record, h]
    rfl
  · rfl

theorem settleUnsensed_noRcv (s : State) (n : LineNo) {m : LineNo} (h : m ≠ n) :
    ((settleUnsensed s n).line m).noRcv = (s.line m).noRcv := by
  unfold settleUnsensed
  split
  · exact enterSettling_noRcv s n h
  · rfl

/-- An UNSENSED line has no call to leave: no link changes. -/
theorem settleUnsensed_links (s : State) (n : LineNo) : (settleUnsensed s n).links = s.links := by
  unfold settleUnsensed
  split
  · next h =>
    unfold enterSettling enterUnsensed leaveCall
    simp only [h.2, isCall, Bool.false_eq_true, if_false]
    split <;> rfl
  · rfl

/-! ### A link comes UP -/

theorem presentPairs_length (h : count = 8 ∨ count = 16) : (presentPairs count).length = count := by
  rcases h with rfl | rfl <;> decide

theorem recoveryFrames_length (s : State) (l : LinkNo) (h : count = 8 ∨ count = 16) :
    (recoveryFrames s l count).length = 2 * count + 1 := by
  simp only [recoveryFrames, List.length_append, List.length_cons, List.length_map, presentPairs_length h]
  omega

/-- The recovery frames carry the calibration records' trims and nothing else of the lines. -/
theorem recoveryFrames_congr (h : ∀ n, (t.line n).cal = (s.line n).cal) :
    recoveryFrames t l count = recoveryFrames s l count := by
  simp only [recoveryFrames, h]

/-- The link's record once it has come UP (R136, R137). -/
def LinkRec.recovered (frames : List Frame) (count : Nat) (rev : Byte) (r : LinkRec) : LinkRec :=
  { r with pairCount := count, revision := rev, failRun := 0, restored := Vector.replicate 16 false, state := .up,
           queue := frames, retry := none, controlMade := 0, controlOver := true, toSample := [] }

theorem linkOf_of_mem (h : n ∈ linesOf l) : linkOf n = l := by
  obtain ⟨p, -, rfl⟩ := List.mem_map.mp h
  exact linkOf_lineAt l p

/-- A link that comes UP takes the recovery record, and each of its lines its place by what it was (R136, R46). -/
theorem recoverLink_spec (hx : (s.link l).exchange = none) :
    (∃ r : LinkRec, r.exchange = none
      ∧ (recoverLink s l count rev).link l = r.recovered (recoveryFrames s l count) count rev)
    ∧ ∀ m ∈ linesOf l, ((recoverLink s l count rev).line m).noRcv = ((s.line m).absented count m).sensed.noRcv := by
  unfold recoverLink
  extract_lets s1 s2 frames s3
  have h1 : s1.link l = { s.link l with pairCount := count, revision := rev } := State.link_modLink_same s l _
  have hstand : (s2.link l).standing = (s1.link l).standing :=
    eachLine_link (g := LinkRec.standing) (fun s n => parkAbsent_standing s n l) (linesOf l) s1
  have hexch : (s2.link l).exchange = none :=
    (eachLine_link (g := LinkRec.exchange) (fun s n => parkAbsent_exchange s n l) (linesOf l) s1).trans
      ((congrArg LinkRec.exchange h1).trans hx)
  have hline2 (m : LineNo) : (s2.line m).noRcv
      = (if m ∈ linesOf l then (s.line m).absented count m else s.line m).noRcv :=
    eachLine_record (I := fun v => (v[l.1]'l.2).pairCount = count) (g := fun n r => r.absented count n)
      (fun s n h => (congrArg LinkRec.pairCount (parkAbsent_standing s n l) :).trans h)
      (fun s n hn h => parkAbsent_record (by rw [linkOf_of_mem hn]; exact h))
      (fun s n m h => parkAbsent_noRcv s n h) (fun n a b h => LineRec.absented_congr h) (linesOf_nodup l)
      (congrArg LinkRec.pairCount h1) m
  have hcal (m : LineNo) : (s2.line m).cal = (s.line m).cal := by
    rw [cal_of_noRcv (hline2 m)]
    split
    · exact LineRec.absented_cal _ _ _
    · rfl
  have hframes : frames = recoveryFrames s l count := recoveryFrames_congr hcal
  clear_value s2 frames
  have hline3 (m : LineNo) : ((eachLine settleUnsensed (linesOf l) s3).line m).noRcv
      = (if m ∈ linesOf l then (s2.line m).sensed else s2.line m).noRcv :=
    eachLine_record (I := fun v => v = s3.links) (g := fun _ r => r.sensed)
      (fun s n h => (settleUnsensed_links s n).trans h)
      (fun s n hn h => settleUnsensed_record (by
        rw [linkOf_of_mem hn, linkUp, State.link, h]
        exact decide_eq_true (congrArg LinkRec.state (State.link_modLink_same s2 l _))))
      (fun s n m h => settleUnsensed_noRcv s n h) (fun n a b h => LineRec.sensed_congr h) (linesOf_nodup l) rfl m
  refine ⟨⟨s2.link l, hexch, ?_⟩, fun m hm => ?_⟩
  · have hkeep : (eachLine settleUnsensed (linesOf l) s3).link l = s3.link l :=
      eachLine_link (g := id) (fun s n => by rw [id, id, State.link, State.link, settleUnsensed_links]) (linesOf l) s3
    have hcount : (s2.link l).pairCount = count :=
      (congrArg LinkRec.pairCount hstand :).trans (congrArg LinkRec.pairCount h1)
    have hrev : (s2.link l).revision = rev :=
      (congrArg LinkRec.revision hstand :).trans (congrArg LinkRec.revision h1)
    rw [hkeep, State.link_modLink_same, hframes, LinkRec.recovered, ← hcount, ← hrev]
  · rw [hline3, if_pos hm]
    refine LineRec.sensed_congr ?_
    rw [hline2, if_pos hm]

/-! ### A link is lost -/

/-- What a link has sent, and its state: its record without what it still has to send and without its test. -/
def LinkRec.sent (r : LinkRec) : LinkRec := { r with queue := [], toSample := [], test := none }

theorem sent_of_unqueued (h : t.unqueued = s.unqueued) (l : LinkNo) : (t.link l).sent = (s.link l).sent :=
  (congrArg LinkRec.sent (link_unqueued h l) :)

theorem sent_of_links (h : t.links = s.links) (l : LinkNo) : (t.link l).sent = (s.link l).sent := by
  rw [State.link, State.link, h]

/-- An update that leaves what the link has sent. -/
theorem modLink_sent (s : State) (m : LinkNo) {f : LinkRec → LinkRec} (hf : (f (s.link m)).sent = (s.link m).sent)
    (l : LinkNo) : ((s.modLink m f).link l).sent = (s.link l).sent := by
  rw [State.link_modLink_ite]
  split
  · next h => rw [hf, h]
  · rfl

theorem unsenseLine_sent (s : State) (n : LineNo) (l : LinkNo) :
    ((unsenseLine s n).link l).sent = (s.link l).sent := by
  unfold unsenseLine
  split
  · exact sent_of_unqueued (leaveCall_move_of_eq rfl rfl rfl n _).links l
  · rfl

theorem releaseLine_sent (s : State) (n : LineNo) (toActive : Bool) (l : LinkNo) :
    ((releaseLine s n toActive).link l).sent = (s.link l).sent := by
  unfold releaseLine
  split
  · exact sent_of_unqueued (enterSettling_move (s.modLine n _) n).links l
  · exact modLink_sent _ (linkOf n) rfl l

theorem lineFinished_links (s : State) (k : SlotNo) (f : Tally → Tally) (o : OrderOutcome) (r : Reason) :
    (lineFinished s k f o r).links = s.links :=
  (congrArg State.links (lineFinished_frame s k f o r) :)

theorem calLinkLost_sent (s : State) (n : LineNo) (l : LinkNo) :
    ((calLinkLost s n).link l).sent = (s.link l).sent := by
  unfold calLinkLost
  split
  · refine (releaseLine_sent _ n _ l).trans (sent_of_links ?_ l)
    dsimp only [State.modLine]
    split
    · rfl
    · exact lineFinished_links _ _ _ _ _
  · rfl

theorem testLinkLost_sent (s : State) (l m : LinkNo) : ((testLinkLost s l).link m).sent = (s.link m).sent := by
  unfold testLinkLost
  split
  · refine ((releaseLine_sent _ _ _ m).trans (modLink_sent _ l rfl m)).trans (sent_of_links ?_ m)
    split
    · rfl
    · exact (congrArg State.links (endOrder_frame s _ _) :)
  · rfl

theorem traceLinkLost_links (s : State) (l : LinkNo) : (traceLinkLost s l).links = s.links := by
  unfold traceLinkLost
  split
  · split
    · show State.links (if _ then _ else _) = _
      split
      · rfl
      · exact (congrArg State.links (endOrder_frame s _ _) :)
    · rfl
  · rfl

theorem abortSurvey_links (s : State) (n : LineNo) (r : Reason) : (abortSurvey s n r).links = s.links := by
  unfold abortSurvey
  split
  · exact (congrArg State.links (endOrder_frame s _ _) :)
  · rfl

theorem setFull_links (s : State) (n : LineNo) : (setFull s n).links = s.links := rfl

theorem foldl_link {α β : Type} {f : State → α → State} {g : LinkRec → β}
    (hf : ∀ s x, g ((f s x).link l) = g (s.link l)) (L : List α) (s : State) : g ((L.foldl f s).link l) = g (s.link l) :=
  List.foldlRecOn (motive := fun u : State => g (u.link l) = g (s.link l)) L f rfl fun u hu x _ => (hf u x).trans hu

/-- A lost link is LOST with a PROBE sent, whatever ends with it (R139, R136). -/
theorem linkLost_sent (s : State) (l : LinkNo) :
    ((linkLost s l).link l).sent = (lostRecord s.time (s.link l)).sent := by
  unfold linkLost
  extract_lets s1 s2 s3 s4 s5 s6 s7
  have h1 : (s1.link l).sent = (lostRecord s.time (s.link l)).sent :=
    congrArg LinkRec.sent (State.link_modLink_same s l _)
  have h2 : (s2.link l).sent = (s1.link l).sent :=
    eachLine_link (g := LinkRec.sent) (fun s n => unsenseLine_sent s n l) (linesOf l) s1
  have h3 : (s3.link l).sent = (s2.link l).sent := sent_of_links (strandAll_keeps s2 l).1 l
  have h4 : (s4.link l).sent = (s3.link l).sent :=
    eachLine_link (g := LinkRec.sent) (fun s n => calLinkLost_sent s n l) (linesOf l) s3
  have h5 : (s5.link l).sent = (s4.link l).sent :=
    (sent_of_links (markChanges_links s4 _) l).trans (testLinkLost_sent s4 l l)
  have h6 : (s6.link l).sent = (s5.link l).sent :=
    sent_of_links ((markChanges_links s5 _).trans (traceLinkLost_links s5 l)) l
  have h7 : (s7.link l).sent = (s6.link l).sent :=
    foldl_link (g := LinkRec.sent) (fun s n => sent_of_links (abortSurvey_links s n .linkLost) l) (linesOf l) s6
  have h8 : (((linesOf l).foldl setFull s7).link l).sent = (s7.link l).sent :=
    foldl_link (g := LinkRec.sent) (fun s n => sent_of_links (setFull_links s n) l) (linesOf l) s7
  exact h8.trans (h7.trans (h6.trans (h5.trans (h4.trans (h3.trans (h2.trans h1))))))

theorem sent_lost {r q : LinkRec} {w : Word} (h : r.sent = (lostRecord w q).sent) :
    r.state = .lost ∧ r.exchange = some .probe :=
  ⟨(congrArg LinkRec.state h :), (congrArg LinkRec.exchange h :)⟩

/-! ### The PROBE-REPLY -/

theorem exec_probeReply (hx : (s.link l).exchange = some .probe) (hc : count = 8 ∨ count = 16) :
    exec (.probeReply l count rev) s = .next (markChanges s
      (if linkUp s l then probeWhileUp (replyTaken s l) l count rev else recoverLink (replyTaken s l) l count rev)) := by
  show stepMarked (fun s => probeAnswered s l count rev) s = _
  have hup : linkUp (replyTaken s l) l = linkUp s l := by rw [linkUp, linkUp, replyTaken_link_state]
  rw [stepMarked, probeAnswered, if_pos ⟨hx, hc⟩]
  dsimp only
  rw [hup]

theorem replyTaken_link (s : State) (l : LinkNo) :
    (replyTaken s l).link l = { s.link l with exchange := none, idleTime := s.time, failRun := 0 } := by
  rw [replyTaken, State.link_modLink_same, endExchange, State.link_modLink_same]

/-- The reply that finds an UP link as it was leaves its lines as they are (R138). -/
theorem probeWhileUp_kept (h : count = (s.link l).pairCount) :
    let t := markChanges s (probeWhileUp (replyTaken s l) l count rev)
    (t.link l).state = (s.link l).state ∧ (t.link l).revision = rev ∧ (t.link l).failRun = 0
      ∧ ∀ n, t.line n = s.line n := by
  have hstep : probeWhileUp (replyTaken s l) l count rev
      = advanceLink (recordProbe (replyTaken s l) l count rev) l := by
    rw [probeWhileUp, if_pos]
    rw [replyTaken_link, h]
  have hrec : (recordProbe (replyTaken s l) l count rev).link l
      = { s.link l with exchange := none, idleTime := s.time, failRun := 0, pairCount := count, revision := rev } := by
    rw [recordProbe, State.link_modLink_same, replyTaken_link]
  have hstand := advanceLink_standing (recordProbe (replyTaken s l) l count rev) l l
  rw [hrec] at hstand
  have htest (m : LinkNo) :
      ((advanceLink (recordProbe (replyTaken s l) l count rev) l).link m).test = (s.link m).test := by
    refine (congrArg LinkRec.test (advanceLink_standing (recordProbe (replyTaken s l) l count rev) l m) :).trans ?_
    by_cases hm : m = l
    · subst hm
      rw [LinkRec.standing, hrec]
    · rw [LinkRec.standing, recordProbe, State.link_modLink_other _ hm, replyTaken, State.link_modLink_other _ hm,
        endExchange, State.link_modLink_other _ hm]
  have hlines := markChanges_lines_same (a := s) (b := advanceLink (recordProbe (replyTaken s l) l count rev) l)
    fun n => imageChanged_of_line (advanceLink_line _ l n) htest
  intro t
  simp only [t, hstep, markChanges_link]
  refine ⟨(congrArg LinkRec.state hstand :), (congrArg LinkRec.revision hstand :), (congrArg LinkRec.failRun hstand :),
    fun n => ?_⟩
  rw [State.line, hlines]
  exact advanceLink_line _ l n

/-- Settles O42: a link that is not UP recovers; an UP link goes on, or is lost, by the pair count reported. -/
theorem probeRepliesBringLinksUp : Obligations.ProbeRepliesBringLinksUp := by
  intro l count rev s hx hc
  refine ⟨_, exec_probeReply hx hc, fun hdown => ?_, fun hup hcount => ?_, fun hup hcount => ?_, ?_⟩
  · rw [if_neg (show ¬linkUp s l = true from fun h => hdown (of_decide_eq_true h))]
    have hx0 : ((replyTaken s l).link l).exchange = none := by rw [replyTaken_link]
    obtain ⟨⟨r, hr, hlink⟩, hline⟩ := recoverLink_spec (count := count) (rev := rev) hx0
    have hframes : recoveryFrames (replyTaken s l) l count = recoveryFrames s l count := rfl
    rw [hframes] at hlink
    rw [markChanges_link, hlink]
    have hrec (p : PairNo) := (markChanges_line_noRcv s (recoverLink (replyTaken s l) l count rev) (lineAt l p)).trans
      (hline (lineAt l p) (List.mem_map_of_mem (List.mem_finRange p)))
    refine ⟨rfl, rfl, rfl, rfl, hr, rfl, rfl, recoveryFrames_length s l hc, rfl, fun i => by simp [LinkRec.recovered],
      fun p hp hv hs => ?_, fun p hp hv => ?_⟩
    · have hsettled : ((s.line (lineAt l p)).absented count (lineAt l p)).sensed = (s.line (lineAt l p)).settled := by
        have hpresent : ¬((count = 8 ∧ 8 ≤ (pairOf (lineAt l p)).1) ∧ (s.line (lineAt l p)).service = .active) := by
          rw [pairOf_lineAt]
          omega
        rw [LineRec.absented, if_neg hpresent, LineRec.sensed, if_pos ⟨hv, hs⟩]
      have h := (hrec p).trans (congrArg LineRec.noRcv hsettled)
      exact ⟨(congrArg LineRec.sup h :), (congrArg LineRec.seedPending h :)⟩
    · have hparked : ((s.line (lineAt l p)).absented count (lineAt l p)).sensed = (s.line (lineAt l p)).parked := by
        have habsent : (count = 8 ∧ 8 ≤ (pairOf (lineAt l p)).1) ∧ (s.line (lineAt l p)).service = .active := by
          rw [pairOf_lineAt]
          exact ⟨by omega, hv⟩
        rw [LineRec.absented, if_pos habsent, LineRec.sensed, if_neg]
        exact fun h => nomatch h.1
      have h := (hrec p).trans (congrArg LineRec.noRcv hparked)
      exact ⟨(congrArg LineRec.service h :), (congrArg LineRec.sup h :)⟩
  · rw [if_pos (show linkUp s l = true from decide_eq_true hup)]
    obtain ⟨hstate, hrest⟩ := probeWhileUp_kept (rev := rev) hcount
    exact ⟨hstate.trans hup, hrest⟩
  · rw [if_pos (show linkUp s l = true from decide_eq_true hup), probeWhileUp, if_neg, markChanges_link]
    · have h := linkLost_sent (replyTaken s l) l
      exact sent_lost h
    · rw [replyTaken_link]
      exact hcount
  · rw [markChanges_engine]
    unfold probeWhileUp
    split
    · split
      · simp
      · simp
    · simp

end Sys2Proof.Machine
end

section
/-! O35: the scan that brings the quiet counter of a line to its delay (R144, R147). -/

namespace Sys2Proof.Machine

variable {s t : State} {n : LineNo} {l : LinkNo} {p : PairNo} {x : Sample}

/-! ### The measurement -/

/-- What a quiet ON_HOOK line keeps while it is scanned. -/
def LineRec.resting (r : LineRec) : Sup × Rate × Nat × List DigitEntry := (r.sup, r.rate, r.quiet, r.queue)

theorem resting_iff {a b : LineRec} :
    a.resting = b.resting ↔ a.sup = b.sup ∧ a.rate = b.rate ∧ a.quiet = b.quiet ∧ a.queue = b.queue := by
  simp only [LineRec.resting, Prod.mk.injEq]

theorem resting_of_plain {a b : LineRec} (h : a.plain = b.plain) : a.resting = b.resting :=
  (congrArg LineRec.resting h :)

/-- A scan's measurement of a line, before the scheduler takes its raw class (R8 to R15, R91). -/
def measured (s : State) (n : LineNo) (x : Sample) : State :=
  let f := filterStep (s.conv n).shift s.time x (s.line n)
  updatePeak ((s.modLine n (filterStep (s.conv n).shift s.time x)).modLine n
    (updateCandidate (rawClass (s.conv n).thr f))) n

theorem scanMeasure_eq (s : State) (n : LineNo) (x : Sample) :
    scanMeasure s n x = quietScan (measured s n x) n
      (rawClass (s.conv n).thr (filterStep (s.conv n).shift s.time x (s.line n))) := by
  unfold scanMeasure measured
  simp only [State.line_modLine_same]

theorem updateCandidate_resting (raw : Cls) (r : LineRec) : (updateCandidate raw r).resting = r.resting :=
  (congrArg LineRec.resting (updateCandidate_unclassified raw r) :)

theorem updateCandidate_candidate {raw c : Cls} {r : LineRec} (h : (updateCandidate raw r).candidate = some c) :
    c = raw := by
  by_cases hr : raw = r.accepted
  · rw [updateCandidate_same hr] at h
    cases h
  · rw [updateCandidate_new hr] at h
    exact (Option.some.inj h).symm

/-- Only the class scanned can be the candidate after a scan (R15). -/
theorem scanMeasure_candidate {c : Cls} (h : ((scanMeasure s n x).line n).candidate = some c) :
    c = rawClass (s.conv n).thr (filterStep (s.conv n).shift s.time x (s.line n)) :=
  updateCandidate_candidate ((congrArg LineRec.candidate (scanMeasure_line s n x) :).symm.trans h)

theorem measured_line (s : State) (n : LineNo) (x : Sample) :
    ((measured s n x).line n).resting = (s.line n).resting := by
  have hline : { (measured s n x).line n with fault := none }
      = { updateCandidate (rawClass (s.conv n).thr (filterStep (s.conv n).shift s.time x (s.line n)))
            (filterStep (s.conv n).shift s.time x (s.line n)) with fault := none } := by
    simp only [measured, updatePeak, State.line_modLine_same]
  exact (congrArg LineRec.resting hline :).trans (updateCandidate_resting _ _)

theorem measured_engine (s : State) (n : LineNo) (x : Sample) : (measured s n x).engine = s.engine := by
  simp [measured]

theorem measured_conv (s : State) (n : LineNo) (x : Sample) : (measured s n x).conv n = s.conv n := by
  refine conv_congr (measured_engine s n x) ?_
  simp only [measured, updatePeak, State.line_modLine_same]
  exact (congrArg LineRec.profile (updateCandidate_unclassified _ _) :)

/-! ### The scheduler's step -/

/-- A scan that makes a FULL-rate line QUIET raises the quiet counter of an ON_HOOK line to its delay (R144,
R147). -/
theorem quietScan_reached {raw : Cls} (hfull : (s.line n).rate = .full)
    (h : ((quietScan s n raw).line n).rate = .quiet) :
    isOpenCls raw = true ∧ (s.line n).sup = .onHook
    ∧ ((quietScan s n raw).line n).resting
        = (.onHook, .quiet, satInc Config.quietMax (s.line n).quiet, (s.line n).queue)
    ∧ delayReached (quietDelay s n) (satInc Config.quietMax (s.line n).quiet) = true := by
  unfold quietScan at h ⊢
  split at h
  · rw [setFull, State.line_modLine_same] at h
    cases h
  next hraw =>
    have hopen : isOpenCls raw = true := by simpa using hraw
    split at h
    · next hraised =>
      rw [if_neg hraw, if_pos hraised]
      have hsup : (s.line n).sup = .onHook := by
        simp only [quietRaised, Bool.and_eq_true, decide_eq_true_eq] at hraised
        exact hraised.1.1.1
      have hdelay : delayReached (quietDelay s n) (satInc Config.quietMax (s.line n).quiet) = true := by
        by_contra hno
        rw [State.line_modLine_same] at h
        simp only [hno, Bool.false_eq_true, if_false] at h
        cases h
      refine ⟨hopen, hsup, ?_, hdelay⟩
      simp only [State.line_modLine_same, LineRec.resting, hsup, hdelay, if_true]
    · rw [hfull] at h
      cases h

/-! ### Supervision of a line that stays ON_HOOK -/

theorem advanceCounters_resting {r : LineRec} (h : r.sup = .onHook) (acc : Cls) : advanceCounters acc r = r := by
  unfold advanceCounters
  rw [h]

theorem openCls_opn_or_leak {c : Cls} (h : isOpenCls c = true) : c = .opn ∨ c = .leak := by
  cases c <;> simp [isOpenCls] at h ⊢

/-- OPEN or LEAK accepted ON_HOOK touches the fault record alone (R27, R90, R92). -/
theorem takeAcceptance_resting {c : Cls} (h : (s.line n).sup = .onHook) (hc : isOpenCls c = true) (old : Cls)
    (a : Nat) : ((takeAcceptance s n old c a).line n).resting = (s.line n).resting := by
  rcases openCls_opn_or_leak hc with rfl | rfl
  · have hsup : ((restoreMinor s n).line n).sup = .onHook := by rw [restoreMinor, State.line_modLine_same]; exact h
    have htake : takeAcceptance s n old .opn a = restoreMinor s n := by
      simp [takeAcceptance, transition, hsup, isFaultCls]
    rw [htake, restoreMinor, State.line_modLine_same]
    rfl
  · have htake : takeAcceptance s n old .leak a = faultEvent s n .leak := by
      simp [takeAcceptance, transition, h]
    rw [htake, faultEvent, State.line_modLine_same]
    rfl

/-- The first two stages of supervision leave an ON_HOOK line quiet whose candidate can only be OPEN or LEAK. -/
theorem scanAccept_resting (h : (s.line n).sup = .onHook)
    (hc : ∀ c, (s.line n).candidate = some c → isOpenCls c = true) :
    ((scanAccept s n).line n).resting = (s.line n).resting := by
  cases hacc : acceptedNow (s.conv n) (s.line n) with
  | none => rw [scanAccept_none hacc, State.line_modLine_same, advanceCounters_resting h]
  | some c =>
    have hopen : isOpenCls c = true := by
      unfold acceptedNow at hacc
      split at hacc
      · next c' hcand =>
        split at hacc
        · exact Option.some.inj hacc ▸ hc c' hcand
        · cases hacc
      · cases hacc
    have hloop : isLoopCls c = false := by rcases openCls_opn_or_leak hopen with rfl | rfl <;> rfl
    have hline : ((acceptState s n c).line n).resting = (s.line n).resting := by
      simp only [acceptState, hloop, Bool.false_eq_true, if_false, State.line_modLine_same,
        advanceCounters_resting h]
      rfl
    obtain ⟨a, ha⟩ := scanAccept_some hacc
    rw [ha, takeAcceptance_resting ((congrArg Prod.fst hline).trans h) hopen, hline]

/-! ### The case -/

/-- The scan that reaches the quiet delay is an ACCEPTED one of an ACTIVE line. -/
theorem quietReached_accepted (h : replyCase quietReached .active s l p x = true) :
    replyCase (atLimits fun _ _ => true) .active s l p x = true
    ∧ (s.line (lineAt l p)).rate = .full
    ∧ ∃ y, replyOutcome (atReply s l x) (lineAt l p) x = .accepted y
        ∧ ((scanMeasure (atReply s l x) (lineAt l p) y).line (lineAt l p)).rate = .quiet := by
  simp only [replyCase, Bool.and_eq_true, decide_eq_true_eq, atReply_line] at h ⊢
  obtain ⟨hcase, hdue⟩ := h
  unfold quietReached at hdue
  split at hdue
  · next y hout =>
    simp only [Bool.and_eq_true, decide_eq_true_eq, atReply_line] at hdue
    exact ⟨⟨hcase, by rw [hout, atLimits]⟩, hdue.1, y, hout, hdue.2⟩
  · cases hdue
  · cases hdue

/-- What the three stages leave of a line that the scan makes QUIET. -/
theorem testLimits_quiet (hfull : (s.line n).rate = .full)
    (hquiet : ((scanMeasure s n x).line n).rate = .quiet) :
    (s.line n).sup = .onHook
    ∧ ((testLimits (scanFront s n x) n).line n).resting
        = (.onHook, .quiet, satInc Config.quietMax (s.line n).quiet, (s.line n).queue)
    ∧ delayReached (quietDelay s n) (satInc Config.quietMax (s.line n).quiet) = true := by
  obtain ⟨hsup, hrate, hq, hqueue⟩ := resting_iff.mp (measured_line s n x)
  have heconomy : (measured s n x).economy = s.economy := (congrArg Engine.economy (measured_engine s n x) :)
  have hdelay : quietDelay (measured s n x) n = quietDelay s n := by
    simp only [quietDelay, measured_conv, heconomy]
  rw [scanMeasure_eq] at hquiet
  obtain ⟨hopen, hon, hscan, hreached⟩ := quietScan_reached (hrate.trans hfull) hquiet
  rw [hq, hqueue] at hscan
  rw [hdelay, hq] at hreached
  rw [← scanMeasure_eq] at hscan
  have hcand' : ∀ c, ((scanMeasure s n x).line n).candidate = some c → isOpenCls c = true := by
    intro c hc
    rw [scanMeasure_candidate hc]
    exact hopen
  have hfront : ((scanFront s n x).line n).resting = _ := (scanAccept_resting (congrArg Prod.fst hscan) hcand').trans hscan
  rw [testLimits_onHook (congrArg Prod.fst hfront)]
  exact ⟨hsup.symm.trans hon, hfront, hreached⟩

/-- Settles O35: the scan that brings an ON_HOOK line's quiet counter to its delay makes the line QUIET. -/
theorem quietDelaysMakeLinesQuiet : Obligations.QuietDelaysMakeLinesQuiet := by
  intro l p x s n h
  obtain ⟨hcase, hfull, y, hout, hquiet⟩ := quietReached_accepted h
  rw [← replyOutcome_sample hout] at hquiet
  obtain ⟨t, hexec, hstep⟩ := limitCase_step hcase
  obtain ⟨hsup, hrest, hreached⟩ := testLimits_quiet ((congrArg LineRec.rate (atReply_line s l x n)).trans hfull) hquiet
  rw [atReply_line] at hsup hrest hreached
  have hconv : quietDelay (atReply s l x) n = quietDelay s n := by
    have hprofile := congrArg LineRec.profile (atReply_line s l x n)
    have heconomy : (atReply s l x).economy = s.economy := (congrArg Engine.economy (atReply_engine s l x) :)
    simp only [quietDelay, conv_congr (atReply_engine s l x) hprofile, heconomy]
  have hline : (t.line n).resting = _ := (resting_of_plain hstep.line).trans hrest
  obtain ⟨htsup, htrate, htquiet, htqueue⟩ : _ ∧ _ ∧ _ ∧ _ := by simpa only [LineRec.resting, Prod.mk.injEq] using hline
  refine ⟨t, (stepMarked_replyCase h).trans hexec, hfull, htrate, hsup, htsup, htquiet, fun he => ?_, htqueue,
    hstep.others, hstep.engine⟩
  rw [hconv, quietDelay, he, if_neg Bool.false_ne_true, ← htquiet] at hreached
  unfold delayReached at hreached
  split at hreached
  · next q hq => exact ⟨q, hq, of_decide_eq_true hreached⟩
  · cases hreached

end Sys2Proof.Machine
end

section
/-! SUPPORT. The step of a reply to a RELAY (R137, R141), and what its owners leave of the links and the lines. -/

namespace Sys2Proof.Machine

variable {s t : State} {n : LineNo} {l : LinkNo} {p : PairNo} {cfg : RelayCfg} {o : RelayOwner} {ack : Bool}

/-! ### The reply is taken -/

/-- The state in which the owner of a RELAY takes its reply (R134, R137). -/
def relayTaken (s : State) (l : LinkNo) (p : PairNo) : State := setRestored (replyTaken s l) l p

/-- What a reply to a RELAY leaves before its owner takes it: the link's record alone has changed (R134, R137). -/
structure RelayTaken (s : State) (l : LinkNo) (p : PairNo) (u : State) : Prop where
  lines : u.lines = s.lines
  slots : u.slots = s.slots
  gen : u.gen = s.gen
  engine : u.engine = s.engine
  link : u.link l = { s.link l with
    exchange := none, idleTime := s.time, failRun := 0, restored := (s.link l).restored.set p.1 true p.2 }

theorem relayTaken_spec (s : State) (l : LinkNo) (p : PairNo) : RelayTaken s l p (relayTaken s l p) := by
  have hengine : (relayTaken s l p).engine = s.engine := (setRestored_engine _ l p).trans (replyTaken_engine s l)
  refine ⟨rfl, rfl, rfl, hengine, ?_⟩
  rw [relayTaken, setRestored, State.link_modLink_same, replyTaken_link]

section Taken
variable {u : State}

theorem RelayTaken.line (h : RelayTaken s l p u) (m : LineNo) : u.line m = s.line m := by
  rw [State.line, h.lines, State.line]

theorem RelayTaken.slot (h : RelayTaken s l p u) (k : SlotNo) : u.slot k = s.slot k := by
  rw [State.slot, h.slots, State.slot]

theorem RelayTaken.up (h : RelayTaken s l p u) : linkUp u l = linkUp s l := by
  rw [linkUp, h.link, linkUp]

theorem RelayTaken.exch (h : RelayTaken s l p u) : u.exch = s.exch := congrArg Engine.exch h.engine

theorem RelayTaken.time (h : RelayTaken s l p u) : u.time = s.time := congrArg Engine.time h.engine

end Taken

/-! ### What the owners leave of the links -/

theorem placeRelay_sent (s : State) (n : LineNo) (cfg : RelayCfg) (o : RelayOwner) (l : LinkNo) :
    ((placeRelay s n cfg o).link l).sent = (s.link l).sent :=
  sent_of_unqueued (placeFrame_unqueued s _ _) l

theorem failLine_sent (s : State) (n : LineNo) (c : CalCtx) (cause : FailCause) (l : LinkNo) :
    ((failLine s n c cause).link l).sent = (s.link l).sent := by
  rw [failLine_eq, lineFinished_link, toRestoring, modCal, State.link_modLine, placeRelay_sent]
  exact sent_of_unqueued (placeFrame_unqueued _ _ _) l

theorem calRelayAnswered_sent (s : State) (n : LineNo) (cfg : RelayCfg) (ack : Bool) (l : LinkNo) :
    ((calRelayAnswered s n cfg ack).link l).sent = (s.link l).sent := by
  unfold calRelayAnswered
  split
  · split
    · split
      · rfl
      split
      · rfl
      · exact failLine_sent s n _ _ l
    · rfl
    · rfl
    · rfl
    · rfl
    · split
      · exact releaseLine_sent (s.modLine n _) n _ l
      · rfl
  · rfl

theorem completeTest_links (s : State) (c : TestCtx) (v : Verdict) (o : OrderOutcome) (r : Reason) :
    (completeTest s c v o r).links = s.links :=
  (congrArg State.links (endOrder_frame s _ _) :)

theorem endTest_sent (s : State) (c : TestCtx) (v : Verdict) (o : OrderOutcome) (r : Reason) (l : LinkNo) :
    ((endTest s c v o r).link l).sent = (s.link l).sent :=
  (modLink_sent _ _ rfl l).trans ((placeRelay_sent _ _ _ _ l).trans (sent_of_links (completeTest_links s c v o r) l))

theorem testRelayAnswered_sent (s : State) (n : LineNo) (cfg : RelayCfg) (ack : Bool) (l : LinkNo) :
    ((testRelayAnswered s n cfg ack).link l).sent = (s.link l).sent := by
  unfold testRelayAnswered
  split
  · split
    · rfl
    split
    · split
      · rfl
      split
      · exact modLink_sent s _ rfl l
      · exact endTest_sent s _ _ _ _ l
    · rfl
    · rfl
    · split
      · exact (releaseLine_sent _ _ _ l).trans (modLink_sent s _ rfl l)
      · rfl
  · rfl

/-- The end of a trace but for its context, the generator being silent (R154). -/
def traceEnded (s : State) (c : TraceCtx) (o : OrderOutcome) (r : Reason) (endCode : Nat) : State :=
  placeRelay (finishTrace (silence s) c o r endCode) c.line .normal .trace

theorem endTrace_eq {c : TraceCtx} (hc : s.gen.ctx = .trace c) (hs : c.step ≠ .restoring) (o : OrderOutcome)
    (r : Reason) (endCode : Nat) :
    endTrace s o r endCode = { traceEnded s c o r endCode with
      gen := { (traceEnded s c o r endCode).gen with ctx := .trace { c with step := .restoring } } } := by
  unfold endTrace
  rw [hc]
  exact if_neg hs

theorem finishTrace_frame (s : State) (c : TraceCtx) (o : OrderOutcome) (r : Reason) (endCode : Nat) :
    { finishTrace s c o r endCode with slots := s.slots } = s := endOrder_frame s _ _

theorem traceEnded_sent (s : State) (c : TraceCtx) (o : OrderOutcome) (r : Reason) (endCode : Nat) (l : LinkNo) :
    ((traceEnded s c o r endCode).link l).sent = (s.link l).sent :=
  (placeRelay_sent _ _ _ _ l).trans (sent_of_links (congrArg State.links (finishTrace_frame (silence s) c o r endCode) :) l)

theorem traceRelayAnswered_sent (s : State) (n : LineNo) (cfg : RelayCfg) (ack : Bool) (l : LinkNo) :
    ((traceRelayAnswered s n cfg ack).link l).sent = (s.link l).sent := by
  unfold traceRelayAnswered
  split
  · next c hc =>
    split
    · rfl
    split
    · next hs =>
      split
      · rfl
      split
      · rfl
      · rw [endTrace_eq hc (by rw [hs]; decide)]
        exact traceEnded_sent s c _ _ _ l
    · rfl
    · split <;> rfl
  · rfl

theorem relayOwner_sent (s : State) (n : LineNo) (cfg : RelayCfg) (o : RelayOwner) (ack : Bool) (l : LinkNo) :
    ((relayOwner s n cfg o ack).link l).sent = (s.link l).sent := by
  cases o with
  | recovery => rfl
  | calibration => exact calRelayAnswered_sent s n cfg ack l
  | test => exact testRelayAnswered_sent s n cfg ack l
  | trace => exact traceRelayAnswered_sent s n cfg ack l

/-! ### The step -/

/-- The state `t` in which the step of a RELAY's reply ends, its owner leaving `v`: marks apart, the link of the pair
alone goes on to its next exchange (R137, R141). -/
structure RelayStep (s : State) (l : LinkNo) (p : PairNo) (v t : State) : Prop where
  line : ∀ m, (t.line m).bare = (v.line m).bare
  slots : t.slots = v.slots
  gen : t.gen = v.gen
  engine : t.engine = s.engine
  test : (t.link l).test = (v.link l).test
  queued : ∀ f ∈ (v.link l).queue, f ∈ (t.link l).queue ∨ (t.link l).exchange = some f
  restored : (t.link l).restored[p.1] = true
  failRun : (t.link l).failRun = 0

/-- The owner of the RELAY takes its reply, once the pair's restored mark is set and the failure run over (R137,
R138). -/
theorem relayReply_step (h : (s.link l).exchange = some (.relay p cfg o)) (ack : Bool) :
    ∃ u t, RelayTaken s l p u ∧ exec (.relayReply l ack) s = .next t
      ∧ RelayStep s l p (relayOwner u (lineAt l p) cfg o ack) t := by
  have htaken := relayTaken_spec s l p
  have hexec : exec (.relayReply l ack) s
      = .next (markChanges s (advanceLink (relayOwner (relayTaken s l p) (lineAt l p) cfg o ack) l)) := by
    show Host.Outcome.next (markChanges s (relayAnswered s l ack)) = _
    rw [relayAnswered, h]
    rfl
  generalize relayTaken s l p = u at htaken hexec
  refine ⟨u, _, htaken, hexec, ?_⟩
  have hsent := relayOwner_sent u (lineAt l p) cfg o ack l
  have hengine : (relayOwner u (lineAt l p) cfg o ack).engine = s.engine :=
    (relayOwner_engine _ _ _ _ _).trans htaken.engine
  rw [htaken.link] at hsent
  generalize relayOwner u (lineAt l p) cfg o ack = v at hsent hengine ⊢
  have hstand := advanceLink_standing v l l
  have hqueued : ∀ f ∈ (v.link l).queue, _ := fun f hf => advanceLink_queued l hf
  have hgen : (advanceLink v l).gen = v.gen := (congrArg State.gen (advanceLink_frame v l) :)
  refine ⟨fun m => ?_, ?_, ?_, ?_, ?_, ?_, ?_, ?_⟩
  · rw [markChanges_line_bare, advanceLink_line]
  · rw [markChanges_slots, advanceLink_slots]
  · rw [markChanges_gen, hgen]
  · rw [markChanges_engine, advanceLink_engine, hengine]
  · rw [markChanges_link]
    exact (congrArg LinkRec.test hstand :)
  · rw [markChanges_link]
    exact hqueued
  · have hrestored : ((advanceLink v l).link l).restored = (s.link l).restored.set p.1 true p.2 :=
      (congrArg LinkRec.restored hstand :).trans (congrArg LinkRec.restored hsent :)
    rw [markChanges_link, hrestored]
    exact Vector.getElem_set_self p.2
  · rw [markChanges_link]
    exact (congrArg LinkRec.failRun hstand :).trans (congrArg LinkRec.failRun hsent :)

section Step
variable {v : State}

/-- An owner that leaves the lines as they are. -/
theorem RelayStep.lines_same (h : RelayStep s l p v t) (hv : v.lines = s.lines) (m : LineNo) :
    (t.line m).bare = (s.line m).bare := by
  rw [h.line, State.line, hv, State.line]

/-- An owner that updates one line. -/
theorem RelayStep.lines_mod (h : RelayStep s l p v t) {u : State} (hu : RelayTaken s l p u) {g : LineRec → LineRec}
    (hv : ∀ m, v.line m = (u.modLine n g).line m) :
    (t.line n).bare = (g (s.line n)).bare ∧ ∀ m, m ≠ n → (t.line m).bare = (s.line m).bare := by
  refine ⟨?_, fun m hm => ?_⟩
  · rw [h.line, hv, State.line_modLine_same, hu.line]
  · rw [h.line, hv, State.line_modLine_other u hm, hu.line]

theorem RelayStep.slot (h : RelayStep s l p v t) (k : SlotNo) : t.slot k = v.slot k := by
  rw [State.slot, h.slots, State.slot]

end Step

/-! ### The release of a line -/

/-- A line's record as it is released to its return service (R102, R117; log 35). -/
def LineRec.released (up toActive : Bool) (r : LineRec) : LineRec :=
  if toActive then ({ r with service := .active }).entered up
  else { r with service := .parked, sup := .none, candidate := none, run := 0, accepted := .none }

theorem enterSettling_line (h : isCall (s.line n).sup = false) (m : LineNo) :
    (enterSettling s n).line m = (s.modLine n (LineRec.entered (linkUp s (linkOf n)))).line m := by
  have hstay : ∀ u : State, leaveCall u n (s.line n).sup = u := fun u => by rw [leaveCall, h]; rfl
  unfold enterSettling
  split
  · next hup =>
    rw [hup]
    dsimp only
    rw [hstay]
    simp only [restoreFault, setFull, State.modLine_modLine]
    rfl
  · next hup =>
    rw [Bool.eq_false_of_not_eq_true hup]
    unfold enterUnsensed
    dsimp only
    rw [hstay]
    simp only [restoreFault, setFull, State.modLine_modLine]
    rfl

/-- The release of a SUSPENDED line changes that line alone: it has no call to leave (R102, R117). -/
theorem releaseLine_line (h : (s.line n).sup = .suspended) (toActive : Bool) (m : LineNo) :
    (releaseLine s n toActive).line m = (s.modLine n (LineRec.released (linkUp s (linkOf n)) toActive)).line m := by
  cases toActive with
  | false => rfl
  | true =>
    refine (enterSettling_line (s := s.modLine n _) ?_ m).trans ?_
    · rw [State.line_modLine_same, h]
      rfl
    · rw [State.modLine_modLine]
      rfl

end Sys2Proof.Machine
end

section
/-! O44: the replies to the RELAYs of a recovery, a trace, a calibration and a test (R96, R102, R103, R112, R116, R117,
R137, R151, R152, R154). -/

namespace Sys2Proof.Machine

variable {s t : State} {n : LineNo} {l : LinkNo} {p : PairNo} {cfg : RelayCfg} {ack : Bool}

/-! ### The trace -/

section Trace
variable {c : TraceCtx}

theorem traceRelayAnswered_ack (hc : s.gen.ctx = .trace c) (hn : c.line = n) (hs : c.step = .relayWait) :
    traceRelayAnswered s n (traceCfg c.longitudinal) true
      = { s with gen := { chA := { n := c.na, level := c.level }, chB := { s.gen.chB with level := 0 },
                          output := .testBus, ctx := .trace { c with step := .tone s.time, halves := 0 } } } := by
  simp [traceRelayAnswered, hc, hn, hs]

theorem traceRelayAnswered_nak (hc : s.gen.ctx = .trace c) (hn : c.line = n) (hs : c.step = .relayWait) :
    traceRelayAnswered s n (traceCfg c.longitudinal) false = endTrace s .failed .none 1 := by
  simp [traceRelayAnswered, hc, hn, hs]

theorem traceRelayAnswered_normal (hc : s.gen.ctx = .trace c) (hn : c.line = n) (hs : c.step = .restoring)
    (ack : Bool) : traceRelayAnswered s n .normal ack = removeTrace s c := by
  simp [traceRelayAnswered, hc, hn, hs]

/-- The tone of a trace on the test tone bus (R148, R151). -/
theorem testToneBus_trace {ch : Channel} (ho : t.gen.output = .testBus) (hA : t.gen.chA = { n := c.na, level := c.level })
    (hB : t.gen.chB = { ch with level := 0 }) (hl : 1 ≤ c.level) (hn : c.na ≤ 3840) :
    testToneBus t = [{ hz := 1024000 / (4096 - (c.na : Rat)), dbm := 2 * (c.level : Int) - 31 }] := by
  rw [testToneBus, ho]
  dsimp only
  rw [genOutput, hA, hB, channelTone_on hn (by omega), channelTone, if_pos rfl]
  rfl

theorem endOrder_slot_ne (s : State) {k j : SlotNo} (h : j ≠ k) (c : Completion) :
    (endOrder s k c).slot j = s.slot j := by
  unfold endOrder
  split <;> exact State.slot_modSlot_other s h _

/-- The end of a trace in RELAY_WAIT by a NAK (R152, R154). -/
structure TraceRefused (s : State) (c : TraceCtx) (v : State) : Prop where
  lines : v.lines = s.lines
  gen : v.gen = { s.gen with chA := { s.gen.chA with level := 0 }, chB := { s.gen.chB with level := 0 },
                             output := .silent, ctx := .trace { c with step := .restoring } }
  others : ∀ k, k ≠ c.slot → v.slot k = s.slot k
  ended : s.exch = .running ∨ s.exch = .stopping →
    v.slot c.slot = { s.slot c.slot with
      flight := none,
      due := some { outcome := .failed, reason := .none, detail := detail [1, 0, 0], result := none } }
  queued : linkUp s (linkOf c.line) = true →
    Frame.relay (pairOf c.line) .normal .trace ∈ (v.link (linkOf c.line)).queue

/-- No second of tone stands in the detail of a trace that ends before its tone (R152). -/
theorem finishTrace_refused (s : State) (hs : c.step = .relayWait) :
    finishTrace s c .failed .none 1
      = endOrder s c.slot { outcome := .failed, reason := .none, detail := detail [1, 0, 0], result := none } := by
  have hdetail : detail (1 :: detail16 s (toneSeconds s c.step)) = detail [1, 0, 0] := by
    rw [hs, toneSeconds, detail16]
    cases s.latchBig <;> rfl
  rw [finishTrace, finish, hdetail]

theorem endTrace_refused (hc : s.gen.ctx = .trace c) (hs : c.step = .relayWait) :
    TraceRefused s c (endTrace s .failed .none 1) := by
  rw [endTrace_eq hc (by rw [hs]; decide), traceEnded, finishTrace_refused _ hs]
  generalize hd : ({ outcome := .failed, reason := .none, detail := detail [1, 0, 0], result := none } : Completion) = d
  have hframe := endOrder_frame (silence s) c.slot d
  have hslot (k : SlotNo) : (placeRelay (endOrder (silence s) c.slot d) c.line .normal .trace).slot k
      = (endOrder (silence s) c.slot d).slot k := placeFrame_slot _ _ _ k
  have hgen : (placeRelay (endOrder (silence s) c.slot d) c.line .normal .trace).gen = (silence s).gen :=
    (placeFrame_gen _ _ _).trans (congrArg State.gen hframe :)
  refine ⟨(placeFrame_lines _ _ _).trans (congrArg State.lines hframe :), ?_, fun k hk => ?_, fun hexch => ?_,
    fun hup => mem_placeFrame ?_ _⟩
  · dsimp only
    rw [hgen]
    rfl
  · exact (hslot k).trans (endOrder_slot_ne (silence s) hk d)
  · exact (hslot c.slot).trans ((endOrder_slot (s := silence s) hexch c.slot d).trans (by rw [hd]; rfl))
  · have hlinks := (congrArg State.links hframe :)
    rw [linkUp, State.link, hlinks]
    exact hup

/-- The ACK to a trace's RELAY (R151). -/
theorem traceReply_ack (hx : (s.link l).exchange = some (.relay p (traceCfg c.longitudinal) .trace))
    (hc : s.gen.ctx = .trace c) (hn : c.line = lineAt l p) (hs : c.step = .relayWait) :
    ∃ t, exec (.relayReply l true) s = .next t
      ∧ t.gen = { chA := { n := c.na, level := c.level }, chB := { s.gen.chB with level := 0 },
                  output := .testBus, ctx := .trace { c with step := .tone s.time, halves := 0 } }
      ∧ (1 ≤ c.level → c.na ≤ 3840 →
          testToneBus t = [{ hz := 1024000 / (4096 - (c.na : Rat)), dbm := 2 * (c.level : Int) - 31 }])
      ∧ (∀ m, (t.line m).bare = (s.line m).bare) ∧ t.slots = s.slots := by
  obtain ⟨u, t, hu, hexec, hstep⟩ := relayReply_step hx true
  rw [relayOwner, traceRelayAnswered_ack (hu.gen ▸ hc) hn hs] at hstep
  have hgen := hstep.gen
  dsimp only at hgen
  rw [hu.gen, hu.time] at hgen
  exact ⟨t, hexec, hgen,
    testToneBus_trace (congrArg GenRec.output hgen) (congrArg GenRec.chA hgen) (congrArg GenRec.chB hgen),
    hstep.lines_same hu.lines, hstep.slots.trans hu.slots⟩

/-- The NAK to a trace's RELAY (R152, R154). -/
theorem traceReply_nak (hx : (s.link l).exchange = some (.relay p (traceCfg c.longitudinal) .trace))
    (hc : s.gen.ctx = .trace c) (hn : c.line = lineAt l p) (hs : c.step = .relayWait)
    (hexch : s.exch = .running ∨ s.exch = .stopping) :
    ∃ t, exec (.relayReply l false) s = .next t
      ∧ t.gen = { (silence s).gen with ctx := .trace { c with step := .restoring } }
      ∧ (t.slot c.slot).flight = none
      ∧ (t.slot c.slot).due = some { outcome := .failed, reason := .none, detail := detail [1, 0, 0], result := none }
      ∧ (∀ k, k ≠ c.slot → t.slot k = s.slot k)
      ∧ ((s.link l).state = .up →
          Frame.relay p .normal .trace ∈ (t.link l).queue ∨ (t.link l).exchange = some (.relay p .normal .trace))
      ∧ (∀ m, (t.line m).bare = (s.line m).bare) ∧ t.engine = s.engine := by
  obtain ⟨u, t, hu, hexec, hstep⟩ := relayReply_step hx false
  rw [relayOwner, traceRelayAnswered_nak (hu.gen ▸ hc) hn hs] at hstep
  obtain ⟨hlines, hgen, hothers, hended, hqueued⟩ := endTrace_refused (hu.gen ▸ hc) hs
  rw [hu.gen] at hgen
  have hdone := (hstep.slot c.slot).trans (hended (hu.exch ▸ hexch))
  rw [hn, linkOf_lineAt, pairOf_lineAt, hu.up] at hqueued
  exact ⟨t, hexec, hstep.gen.trans hgen, (congrArg SlotRec.flight hdone :), (congrArg SlotRec.due hdone :),
    fun k hk => ((hstep.slot k).trans (hothers k hk)).trans (hu.slot k),
    fun hup => hstep.queued _ (hqueued (decide_eq_true hup)), hstep.lines_same (hlines.trans hu.lines), hstep.engine⟩

/-- Any reply to the RELAY NORMAL of a trace in RESTORING (R149, R154). -/
theorem traceReply_normal (hx : (s.link l).exchange = some (.relay p .normal .trace)) (hc : s.gen.ctx = .trace c)
    (hn : c.line = lineAt l p) (hs : c.step = .restoring) (ack : Bool) :
    ∃ t, exec (.relayReply l ack) s = .next t
      ∧ t.gen = { (silence s).gen with ctx := .none } ∧ t.slots = s.slots
      ∧ (t.line (lineAt l p)).bare = { s.line (lineAt l p) with trace := false }.bare
      ∧ (∀ m, m ≠ lineAt l p → (t.line m).bare = (s.line m).bare) ∧ t.engine = s.engine := by
  obtain ⟨u, t, hu, hexec, hstep⟩ := relayReply_step hx ack
  rw [relayOwner, traceRelayAnswered_normal (hu.gen ▸ hc) hn hs] at hstep
  have hgen : t.gen = { (silence u).gen with ctx := .none } := hstep.gen
  rw [silence, hu.gen] at hgen
  obtain ⟨hline, hothers⟩ := hstep.lines_mod hu (n := lineAt l p) (g := fun r => { r with trace := false }) fun m => by
    rw [← hn]
    rfl
  exact ⟨t, hexec, hgen, hstep.slots.trans hu.slots, hline, hothers, hstep.engine⟩

end Trace

/-! ### The release -/

/-- What a line that is released finds. -/
structure Released (up toActive : Bool) (r a : LineRec) : Prop where
  survey : a.survey = r.survey
  queue : a.queue = r.queue
  candidate : a.candidate = none
  run : a.run = 0
  active : toActive = true → a.service = .active ∧ a.sup = (if up then .settling else .unsensed)
    ∧ (up = true → a.seedPending = true ∧ a.accepted = .none)
  parked : toActive = false → a.service = .parked ∧ a.sup = .none ∧ a.accepted = .none

theorem released_spec (up toActive : Bool) (r : LineRec) : Released up toActive r (r.released up toActive) := by
  cases toActive with
  | false => exact ⟨rfl, rfl, rfl, rfl, fun h => (nomatch h), fun _ => ⟨rfl, rfl, rfl⟩⟩
  | true =>
    cases up with
    | false => exact ⟨rfl, rfl, rfl, rfl, fun _ => ⟨rfl, rfl, fun h => (nomatch h)⟩, fun h => (nomatch h)⟩
    | true => exact ⟨rfl, rfl, rfl, rfl, fun _ => ⟨rfl, rfl, fun _ => ⟨rfl, rfl⟩⟩, fun h => (nomatch h)⟩

theorem Released.of_bare {up toActive : Bool} {r a b : LineRec} (h : Released up toActive r b) (hab : a.bare = b.bare) :
    Released up toActive r a := by
  rw [show a = { b with changePending := a.changePending, pacePending := a.pacePending } by
    cases a; cases b; simp_all [LineRec.bare]]
  exact ⟨h.survey, h.queue, h.candidate, h.run, h.active, h.parked⟩

/-- A calibration context is left as it is by a line's release. -/
theorem released_cal (up toActive : Bool) (r : LineRec) :
    (r.released up toActive).cal = r.cal ∧ (r.released up toActive).calCtx = r.calCtx := by
  cases toActive <;> cases up <;> exact ⟨rfl, rfl⟩

/-! ### The calibration -/

section Calibration
variable {c : CalCtx}

theorem calRelayAnswered_ack {trim : Bool} (hc : (s.line n).calCtx = some c) (hs : c.step = .frameWait true trim) :
    calRelayAnswered s n .zero true = s.modLine n fun r => { r with calCtx := r.calCtx.map fun c => frameAcked c false trim } := by
  unfold calRelayAnswered
  rw [hc]
  dsimp only
  rw [hs]
  rfl

theorem calRelayAnswered_nak {trim : Bool} (hc : (s.line n).calCtx = some c) (hs : c.step = .frameWait true trim) :
    calRelayAnswered s n .zero false = failLine s n c .frontEndRefused := by
  unfold calRelayAnswered
  rw [hc]
  dsimp only
  rw [hs]
  rfl

theorem calRelayAnswered_normal (hc : (s.line n).calCtx = some c) (hs : c.step = .restoring) (ack : Bool) :
    calRelayAnswered s n .normal ack = removeCal s n c := by
  unfold calRelayAnswered
  rw [hc]
  dsimp only
  rw [hs]
  rfl

/-- The end of a SUSPENDED line's calibration changes that line alone (R117). -/
theorem removeCal_line (h : (s.line n).sup = .suspended) (c : CalCtx) (m : LineNo) :
    (removeCal s n c).line m
      = (s.modLine n fun r => LineRec.released (linkUp s (linkOf n)) c.toActive { r with calCtx := none }).line m := by
  refine (releaseLine_line (s := s.modLine n _) ?_ c.toActive m).trans ?_
  · rw [State.line_modLine_same]
    exact h
  · rw [State.modLine_modLine]
    rfl

/-- The ACK to a calibration's RELAY ZERO (R112). -/
theorem calReply_ack {trim : Bool} (hx : (s.link l).exchange = some (.relay p .zero .calibration))
    (hc : (s.line (lineAt l p)).calCtx = some c) (hs : c.step = .frameWait true trim) :
    ∃ t, exec (.relayReply l true) s = .next t
      ∧ (t.line (lineAt l p)).bare = { s.line (lineAt l p) with calCtx := some (frameAcked c false trim) }.bare := by
  obtain ⟨u, t, hu, hexec, hstep⟩ := relayReply_step hx true
  rw [relayOwner, calRelayAnswered_ack ((congrArg LineRec.calCtx (hu.line _)).trans hc) hs] at hstep
  obtain ⟨hline, -⟩ := hstep.lines_mod hu fun m => rfl
  rw [hc] at hline
  exact ⟨t, hexec, hline⟩

/-- The NAK to a calibration's RELAY ZERO (R116). -/
theorem calReply_nak {trim : Bool} (hx : (s.link l).exchange = some (.relay p .zero .calibration))
    (hc : (s.line (lineAt l p)).calCtx = some c) (hs : c.step = .frameWait true trim) :
    ∃ t, exec (.relayReply l false) s = .next t
      ∧ (t.line (lineAt l p)).bare = { s.line (lineAt l p) with
          calCtx := some { c with step := .restoring },
          cal := { (s.line (lineAt l p)).cal with
            status := .failed .frontEndRefused, s1 := c.s1.getD (s.line (lineAt l p)).cal.s1, time := s.time } }.bare := by
  obtain ⟨u, t, hu, hexec, hstep⟩ := relayReply_step hx false
  rw [relayOwner, calRelayAnswered_nak ((congrArg LineRec.calCtx (hu.line _)).trans hc) hs] at hstep
  obtain ⟨hline, -⟩ := hstep.lines_mod hu (failLine_line u (lineAt l p) c .frontEndRefused)
  rw [LineRec.calEnded, hc, hu.time] at hline
  exact ⟨t, hexec, hline⟩

/-- Any reply to the RELAY NORMAL of a calibration in RESTORING (R117). -/
theorem calReply_normal (hx : (s.link l).exchange = some (.relay p .normal .calibration))
    (hc : (s.line (lineAt l p)).calCtx = some c) (hs : c.step = .restoring) (hok : ServicesSound s) (ack : Bool) :
    ∃ t, exec (.relayReply l ack) s = .next t
      ∧ (t.line (lineAt l p)).calCtx = none ∧ (t.line (lineAt l p)).cal = (s.line (lineAt l p)).cal
      ∧ Released (linkUp s l) c.toActive (s.line (lineAt l p)) (t.line (lineAt l p))
      ∧ ∀ m, m ≠ lineAt l p → (t.line m).bare = (s.line m).bare := by
  have hsound : CallsSound False s := ⟨servicesSound_iff.mp hok, False.elim⟩
  have hsup : (s.line (lineAt l p)).sup = .suspended :=
    hsound.suspended (.inr ((hsound.services.line _).calibrating (congrArg Option.isSome hc)))
  obtain ⟨u, t, hu, hexec, hstep⟩ := relayReply_step hx ack
  rw [relayOwner, calRelayAnswered_normal ((congrArg LineRec.calCtx (hu.line _)).trans hc) hs] at hstep
  have hremoved := removeCal_line ((congrArg LineRec.sup (hu.line _)).trans hsup) c
  rw [linkOf_lineAt, hu.up] at hremoved
  obtain ⟨hline, hothers⟩ := hstep.lines_mod hu hremoved
  obtain ⟨hcal, hctx⟩ := released_cal (linkUp s l) c.toActive { s.line (lineAt l p) with calCtx := none }
  obtain ⟨hsurvey, hqueue, hcandidate, hrun, hactive, hparked⟩ :=
    (released_spec (linkUp s l) c.toActive { s.line (lineAt l p) with calCtx := none }).of_bare hline
  exact ⟨t, hexec, (congrArg LineRec.calCtx hline :).trans hctx, (congrArg LineRec.cal hline :).trans hcal,
    ⟨hsurvey, hqueue, hcandidate, hrun, hactive, hparked⟩, hothers⟩

end Calibration

/-! ### The test -/

section Test
variable {c : TestCtx}

theorem testRelayAnswered_ack (hc : (s.link (linkOf n)).test = some c) (hn : c.line = n) (hs : c.step = .relayWait) :
    testRelayAnswered s n (phaseCfg c.phase) true
      = modTest s (linkOf n) fun c => { c with step := .settle, settleCount := 0 } := by
  simp [testRelayAnswered, hc, hn, hs]

theorem testRelayAnswered_nak (hc : (s.link (linkOf n)).test = some c) (hn : c.line = n) (hs : c.step = .relayWait) :
    testRelayAnswered s n (phaseCfg c.phase) false = endTest s c .relayRefused .done .none := by
  simp [testRelayAnswered, hc, hn, hs]

theorem testRelayAnswered_normal (hc : (s.link (linkOf n)).test = some c) (hn : c.line = n) (hs : c.step = .restoring)
    (ack : Bool) : testRelayAnswered s n .normal ack = removeTest s (linkOf n) c := by
  simp [testRelayAnswered, hc, hn, hs]

theorem releaseLine_test (s : State) (n : LineNo) (toActive : Bool) (l : LinkNo) :
    ((releaseLine s n toActive).link l).test = (s.link l).test := by
  cases toActive with
  | true => exact (congrArg LinkRec.test (link_unqueued (enterSettling_move (s.modLine n _) n).links l) :)
  | false =>
    rw [releaseLine, if_neg Bool.false_ne_true, unschedule, State.link_modLink_ite]
    split
    · next h => rw [h]; rfl
    · rfl

theorem removeTest_test (s : State) (l : LinkNo) (c : TestCtx) : ((removeTest s l c).link l).test = none := by
  rw [removeTest, releaseLine_test, State.link_modLink_same]

/-- The end of a SUSPENDED line's test changes that line alone (R102). -/
theorem removeTest_line (h : (s.line c.line).sup = .suspended) (m : LineNo) :
    (removeTest s l c).line m
      = (s.modLine c.line (LineRec.released (linkUp s (linkOf c.line)) c.toActive)).line m := by
  have hup : linkUp (s.modLink l fun x => { x with test := none }) (linkOf c.line) = linkUp s (linkOf c.line) := by
    rw [linkUp, linkUp, State.link_modLink_ite]
    split
    · next hl => rw [hl]
    · rfl
  rw [← hup]
  exact releaseLine_line (s := s.modLink l _) h c.toActive m

/-- The test of the link on which a RELAY was answered. -/
theorem RelayTaken.test {u : State} (hu : RelayTaken s l p u) (ht : (s.link l).test = some c) :
    (u.link (linkOf (lineAt l p))).test = some c := by
  rw [linkOf_lineAt, hu.link, ht]

/-- The ACK to a phase's RELAY (R96). -/
theorem testReply_ack (hx : (s.link l).exchange = some (.relay p (phaseCfg c.phase) .test))
    (ht : (s.link l).test = some c) (hn : c.line = lineAt l p) (hs : c.step = .relayWait) :
    ∃ t, exec (.relayReply l true) s = .next t
      ∧ (t.link l).test = some { c with step := .settle, settleCount := 0 }
      ∧ (∀ m, (t.line m).bare = (s.line m).bare) ∧ t.slots = s.slots := by
  obtain ⟨u, t, hu, hexec, hstep⟩ := relayReply_step hx true
  rw [relayOwner, testRelayAnswered_ack (hu.test ht) hn hs, linkOf_lineAt] at hstep
  refine ⟨t, hexec, hstep.test.trans ?_, hstep.lines_same hu.lines, hstep.slots.trans hu.slots⟩
  rw [modTest, State.link_modLink_same, hu.link, ht]
  rfl

/-- The NAK to a phase's RELAY (R103). -/
theorem testReply_nak (hx : (s.link l).exchange = some (.relay p (phaseCfg c.phase) .test))
    (ht : (s.link l).test = some c) (hn : c.line = lineAt l p) (hs : c.step = .relayWait)
    (hexch : s.exch = .running ∨ s.exch = .stopping) :
    ∃ t, exec (.relayReply l false) s = .next t
      ∧ (t.link l).test = some { c with step := .restoring }
      ∧ (t.slot c.slot).flight = none
      ∧ (t.slot c.slot).due.map (fun d => (d.outcome, d.reason, d.detail))
          = some (.done, .none, detail [codeVerdict .relayRefused, c.phasesDone])
      ∧ ∀ m, (t.line m).bare = (s.line m).bare := by
  obtain ⟨u, t, hu, hexec, hstep⟩ := relayReply_step hx false
  rw [relayOwner, testRelayAnswered_nak (hu.test ht) hn hs] at hstep
  have htest := endTest_test u c .relayRefused .done .none
  rw [show linkOf c.line = l by rw [hn, linkOf_lineAt]] at htest
  have hslot := (hstep.slot c.slot).trans (endTest_slot (hu.exch ▸ hexch) .relayRefused .done .none)
  exact ⟨t, hexec, hstep.test.trans htest, (congrArg SlotRec.flight hslot :),
    congrArg (Option.map fun d => (d.outcome, d.reason, d.detail)) (congrArg SlotRec.due hslot),
    hstep.lines_same ((endTest_lines u c _ _ _).trans hu.lines)⟩

/-- Any reply to the RELAY NORMAL of a test in RESTORING (R102). -/
theorem testReply_normal (hx : (s.link l).exchange = some (.relay p .normal .test))
    (ht : (s.link l).test = some c) (hn : c.line = lineAt l p) (hs : c.step = .restoring) (hok : ServicesSound s)
    (ack : Bool) :
    ∃ t, exec (.relayReply l ack) s = .next t
      ∧ (t.link l).test = none
      ∧ Released (linkUp s l) c.toActive (s.line (lineAt l p)) (t.line (lineAt l p))
      ∧ ∀ m, m ≠ lineAt l p → (t.line m).bare = (s.line m).bare := by
  have hsound : CallsSound False s := ⟨servicesSound_iff.mp hok, False.elim⟩
  have hsup : (s.line c.line).sup = .suspended := hsound.suspended (.inl (hsound.testing ht).2)
  obtain ⟨u, t, hu, hexec, hstep⟩ := relayReply_step hx ack
  rw [relayOwner, testRelayAnswered_normal (hu.test ht) hn hs, linkOf_lineAt] at hstep
  have hremoved := removeTest_line (l := l) ((congrArg LineRec.sup (hu.line _)).trans hsup)
  rw [hn, linkOf_lineAt, hu.up] at hremoved
  obtain ⟨hline, hothers⟩ := hstep.lines_mod hu hremoved
  exact ⟨t, hexec, hstep.test.trans (removeTest_test u l c), (released_spec _ _ _).of_bare hline, hothers⟩

end Test

/-! ### O44 -/

/-- Settles O44: a RELAY's reply sets the restored mark, and goes to the recovery, the trace, the calibration or the
test that placed it. -/
theorem relayRepliesRestoreThePair : Obligations.RelayRepliesRestoreThePair := by
  intro l p cfg s n r released
  have hreleased : ∀ t b, Released (linkUp s l) b r (t.line n) → released t b := fun t b h => by
    have hup : linkUp s l = true ↔ (s.link l).state = .up := decide_eq_true_iff
    refine ⟨h.survey, h.queue, h.candidate, h.run, fun hb => ?_, h.parked⟩
    obtain ⟨hservice, hsup, hsettled⟩ := h.active hb
    refine ⟨hservice, hsup.trans ?_, fun hstate => hsettled (hup.mpr hstate)⟩
    simp only [hup]
  refine ⟨fun o ack hx => ?_, fun c hx hc hn hs hcfg => ?_, fun c hx hc hn => ⟨fun hs hcfg hexch => ?_, fun ack hs hcfg => ?_⟩,
    fun c hx hc => ⟨fun trim hcfg hs => ⟨?_, ?_⟩, fun ack hcfg hs hok => ?_⟩,
    fun c hx ht hn => ⟨fun hcfg hs => ⟨?_, fun hexch => ?_⟩, fun ack hcfg hs hok => ?_⟩⟩
  · obtain ⟨u, t, hu, hexec, hstep⟩ := relayReply_step hx ack
    refine ⟨t, hexec, hstep.restored, hstep.failRun, fun ho => ?_, hstep.engine⟩
    subst ho
    exact ⟨hstep.lines_same hu.lines, hstep.gen.trans hu.gen, hstep.slots.trans hu.slots⟩
  · subst hcfg
    exact traceReply_ack hx hc hn hs
  · subst hcfg
    exact traceReply_nak hx hc hn hs hexch
  · subst hcfg
    exact traceReply_normal hx hc hn hs ack
  · subst hcfg
    obtain ⟨t, hexec, hline⟩ := calReply_ack hx hc hs
    refine ⟨t, hexec, fun htrim => ?_, fun htrim => ?_⟩
    · subst htrim
      exact hline
    · subst htrim
      exact hline
  · subst hcfg
    exact calReply_nak hx hc hs
  · subst hcfg
    obtain ⟨t, hexec, hctx, hcal, hrel, hothers⟩ := calReply_normal hx hc hs hok ack
    exact ⟨t, hexec, hctx, hcal, hreleased t _ hrel, hothers⟩
  · subst hcfg
    exact testReply_ack hx ht hn hs
  · subst hcfg
    exact testReply_nak hx ht hn hs hexch
  · subst hcfg
    obtain ⟨t, hexec, htest, hrel, hothers⟩ := testReply_normal hx ht hn hs hok ack
    exact ⟨t, hexec, htest, hreleased t _ hrel, hothers⟩

end Sys2Proof.Machine
end

section
/-! O26: the start of a scan period (R141, R142, R143). -/

namespace Sys2Proof.Machine

variable {s t u : State} {l : LinkNo}

/-! ### What scheduling looks at -/

/-- Two states give every line its scans alike: service, supervision state and rate of the lines, pair count and
restored marks of the links, and the period count agree (R143). -/
structure SameSchedule (s t : State) : Prop where
  line : ∀ n, (t.line n).service = (s.line n).service ∧ (t.line n).sup = (s.line n).sup
    ∧ (t.line n).rate = (s.line n).rate
  link : ∀ l, (t.link l).pairCount = (s.link l).pairCount ∧ (t.link l).restored = (s.link l).restored
  periodCount : t.periodCount = s.periodCount

theorem SameSchedule.refl (s : State) : SameSchedule s s := ⟨fun _ => ⟨rfl, rfl, rfl⟩, fun _ => ⟨rfl, rfl⟩, rfl⟩

theorem SameSchedule.trans (h : SameSchedule s t) (h' : SameSchedule t u) : SameSchedule s u := by
  refine ⟨fun n => ?_, fun l => ?_, h'.periodCount.trans h.periodCount⟩
  · obtain ⟨hv, hs, hr⟩ := h.line n
    obtain ⟨hv', hs', hr'⟩ := h'.line n
    exact ⟨hv'.trans hv, hs'.trans hs, hr'.trans hr⟩
  · obtain ⟨hc, hr⟩ := h.link l
    obtain ⟨hc', hr'⟩ := h'.link l
    exact ⟨hc'.trans hc, hr'.trans hr⟩

theorem SameSchedule.eligible (h : SameSchedule s t) (n : LineNo) : eligible t n = eligible s n := by
  obtain ⟨hv, hs, -⟩ := h.line n
  obtain ⟨hc, hr⟩ := h.link (linkOf n)
  exact eligible_congr hv hs hc hr

theorem SameSchedule.rateDue (h : SameSchedule s t) (n : LineNo) : rateDue t n = rateDue s n := by
  obtain ⟨-, -, hr⟩ := h.line n
  unfold Sys2Proof.Machine.rateDue
  rw [hr, h.periodCount]

/-- What a period's first exchange of a link sends: the retry frame, else the head of the queue, else the SAMPLE of
the first pair that may have a scan and is due by its rate (R141, R143). -/
def periodFrame (s : State) (l : LinkNo) : Option Frame :=
  match (s.link l).retry, (s.link l).queue with
  | some f, _ => some f
  | none, f :: _ => some f
  | none, [] => (allPairs.find? fun p => eligible s (lineAt l p) && rateDue s (lineAt l p)).map Frame.sample

theorem SameSchedule.periodFrame (h : SameSchedule s t) (hretry : (t.link l).retry = (s.link l).retry)
    (hqueue : (t.link l).queue = (s.link l).queue) : periodFrame t l = periodFrame s l := by
  unfold Sys2Proof.Machine.periodFrame
  rw [hretry, hqueue]
  simp only [h.eligible, h.rateDue]

/-! ### The scans not sent -/

/-- MISSING scans of a link's lines leave the schedule, and of the link's record all but its test. -/
theorem missScans_keep (l : LinkNo) (L : List PairNo) (s : State) :
    let t := L.foldl (fun s p => missScan s (lineAt l p)) s
    SameSchedule s t ∧ { t.link l with test := (s.link l).test } = s.link l ∧ ∀ m, m ≠ l → t.link m = s.link m := by
  induction L generalizing s with
  | nil => exact ⟨.refl s, rfl, fun _ _ => rfl⟩
  | cons p L ih =>
    obtain ⟨hsame, hown, hothers⟩ := ih (missScan s (lineAt l p))
    have hone : SameSchedule s (missScan s (lineAt l p)) := by
      refine ⟨fun m => ?_, fun m => ?_, congrArg Engine.periodCount (missScan_engine s (lineAt l p))⟩
      · have hline := (missScan_line s (lineAt l p) m).1
        exact ⟨(congrArg LineRec.service hline :), (congrArg LineRec.sup hline :), (congrArg LineRec.rate hline :)⟩
      · have hlink := (missScan_link s (lineAt l p) m).1
        exact ⟨(congrArg LinkRec.pairCount hlink :), (congrArg LinkRec.restored hlink :)⟩
    refine ⟨hone.trans hsame, ?_, fun m hm => (hothers m hm).trans ((missScan_link s (lineAt l p) m).2 ?_)⟩
    · have hlink := (missScan_link s (lineAt l p) l).1
      exact (congrArg (fun r : LinkRec => { r with test := (s.link l).test }) hown :).trans hlink
    · rwa [linkOf_lineAt]

/-! ### The turn of a link -/

/-- The record of an UP link as its period starts, before it sends (R143). -/
def LinkRec.periodBegun (pairs : List PairNo) (r : LinkRec) : LinkRec :=
  { r with controlMade := 0, controlOver := false, toSample := pairs }

theorem startLinkPeriod_up (h : linkUp s l = true) :
    startLinkPeriod s l
      = advanceLink ((missUnsent s l).modLink l (LinkRec.periodBegun (periodPairs (missUnsent s l) l))) l := by
  rw [startLinkPeriod, if_pos h]
  rfl

theorem startLinkPeriod_notUp (h : (s.link l).state ≠ .up) : startLinkPeriod s l = s :=
  if_neg fun hup => h (of_decide_eq_true hup)

theorem startLinkPeriod_link_other (s : State) {m : LinkNo} (h : m ≠ l) : (startLinkPeriod s l).link m = s.link m := by
  by_cases hup : linkUp s l = true
  · rw [startLinkPeriod_up hup, advanceLink_link_other _ h, State.link_modLink_other _ h]
    exact (missScans_keep l _ s).2.2 m h
  · rw [startLinkPeriod, if_neg hup]

theorem startLinkPeriod_schedule (s : State) (l : LinkNo) : SameSchedule s (startLinkPeriod s l) := by
  by_cases hup : linkUp s l = true
  · have hmiss : SameSchedule s (missUnsent s l) := (missScans_keep l _ s).1
    rw [startLinkPeriod_up hup]
    generalize missUnsent s l = u at hmiss
    refine hmiss.trans ⟨fun n => ?_, fun m => ?_, ?_⟩
    · rw [advanceLink_line, State.line_modLink]
      exact ⟨rfl, rfl, rfl⟩
    · have hstand := advanceLink_standing (u.modLink l (LinkRec.periodBegun (periodPairs u l))) l m
      have hmod := link_standing
        (congrArg Prod.snd (modLink_unsupervised u l (f := LinkRec.periodBegun (periodPairs u l)) rfl)) m
      have hboth := hstand.trans hmod
      exact ⟨(congrArg LinkRec.pairCount hboth :), (congrArg LinkRec.restored hboth :)⟩
    · exact congrArg Engine.periodCount ((advanceLink_engine _ l).trans (modLink_engine _ _ _))
  · rw [startLinkPeriod, if_neg hup]
    exact .refl s

/-- The first pair that passes a test is, of the pairs of the period, the first one due and eligible. -/
theorem find_periodPairs (s : State) (l : LinkNo) :
    (periodPairs s l).find? (fun p => eligible s (lineAt l p))
      = allPairs.find? fun p => eligible s (lineAt l p) && rateDue s (lineAt l p) := by
  rw [periodPairs, List.find?_filter]
  congr 1
  funext p
  unfold eligible
  cases serviced s (lineAt l p) <;> simp [Bool.and_comm]

/-- An UP link without an exchange begins its period with its first frame (R141). -/
theorem advanceLink_begins (hup : (s.link l).state = .up) (hx : (s.link l).exchange = none) :
    ((advanceLink (s.modLink l (LinkRec.periodBegun (periodPairs s l))) l).link l).exchange = periodFrame s l := by
  have hrec : (s.modLink l (LinkRec.periodBegun (periodPairs s l))).link l = (s.link l).periodBegun (periodPairs s l) :=
    State.link_modLink_same s l _
  have heligible : ∀ n, eligible (s.modLink l (LinkRec.periodBegun (periodPairs s l))) n = eligible s n :=
    fun n => eligible_modLink s l rfl n
  unfold advanceLink periodFrame
  dsimp only
  rw [hrec, if_pos ⟨hup, hx⟩, if_neg (by simp [LinkRec.periodBegun, Config.controlMax])]
  rw [show ((s.link l).periodBegun (periodPairs s l)).retry = (s.link l).retry from rfl,
    show ((s.link l).periodBegun (periodPairs s l)).queue = (s.link l).queue from rfl]
  have hend : ((endControl (s.modLink l (LinkRec.periodBegun (periodPairs s l))) l).link l).exchange
      = (allPairs.find? fun p => eligible s (lineAt l p) && rateDue s (lineAt l p)).map Frame.sample := by
    have hnone : ((s.link l).periodBegun (periodPairs s l)).exchange = none := hx
    rw [endControl_eq, State.link_modLink_same, hrec]
    simp only [heligible, LinkRec.nextSample, hnone, Option.or_none]
    rw [← find_periodPairs]
    rfl
  cases (s.link l).retry with
  | some f => exact congrArg LinkRec.exchange (State.link_modLink_same _ l _)
  | none =>
    cases (s.link l).queue with
    | nil => exact hend
    | cons f rest =>
      exact congrArg LinkRec.exchange ((frameTaken_link _ f l).trans (State.link_modLink_same _ l _))

theorem startLinkPeriod_sends (hup : (s.link l).state = .up) (hx : (s.link l).exchange = none) :
    ((startLinkPeriod s l).link l).exchange = periodFrame s l := by
  obtain ⟨hsame, hown, -⟩ : SameSchedule s (missUnsent s l) ∧ _ := missScans_keep l _ s
  have hlink : { (missUnsent s l).link l with test := (s.link l).test } = s.link l := hown
  have hup' : ((missUnsent s l).link l).state = .up := (congrArg LinkRec.state hlink :).trans hup
  have hx' : ((missUnsent s l).link l).exchange = none := (congrArg LinkRec.exchange hlink :).trans hx
  rw [startLinkPeriod_up (decide_eq_true hup), advanceLink_begins hup' hx']
  exact hsame.periodFrame (congrArg LinkRec.retry hlink :) (congrArg LinkRec.queue hlink :)

/-! ### The turns of the links -/

theorem startLinkPeriods_link_other (L : List LinkNo) (s : State) (h : l ∉ L) :
    (L.foldl startLinkPeriod s).link l = s.link l := by
  induction L generalizing s with
  | nil => rfl
  | cons m L ih =>
    obtain ⟨hm, hL⟩ : l ≠ m ∧ l ∉ L := by simpa using h
    exact (ih _ hL).trans (startLinkPeriod_link_other s hm)

theorem startLinkPeriods_notUp (L : List LinkNo) (s : State) (h : (s.link l).state ≠ .up) :
    (L.foldl startLinkPeriod s).link l = s.link l := by
  induction L generalizing s with
  | nil => rfl
  | cons m L ih =>
    have hone : (startLinkPeriod s m).link l = s.link l := by
      by_cases hm : l = m
      · rw [← hm, startLinkPeriod_notUp h]
      · exact startLinkPeriod_link_other s hm
    exact (ih _ (hone ▸ h)).trans hone

theorem startLinkPeriods_sends {L : List LinkNo} (hL : L.Nodup) (s : State) (hl : l ∈ L) (hup : (s.link l).state = .up)
    (hx : (s.link l).exchange = none) : ((L.foldl startLinkPeriod s).link l).exchange = periodFrame s l := by
  induction L generalizing s with
  | nil => cases hl
  | cons m L ih =>
    obtain ⟨hm, hL⟩ := List.nodup_cons.mp hL
    by_cases hlm : l = m
    · subst hlm
      rw [List.foldl_cons, startLinkPeriods_link_other L _ hm, startLinkPeriod_sends hup hx]
    · have hone := startLinkPeriod_link_other s hlm
      have hin : l ∈ L := (List.mem_cons.mp hl).resolve_left hlm
      rw [List.foldl_cons, ih hL _ hin (hone ▸ hup) (hone ▸ hx)]
      exact (startLinkPeriod_schedule s m).periodFrame (by rw [hone]) (by rw [hone])

/-! ### O26 -/

/-- The state at a period's start, before the links send (R142). -/
def periodBegun (s : State) : State :=
  { s with periodCount := s.periodCount + 1, periodEnd := afterMs s.time s.period.ms }

theorem startPeriod_starts (h : periodStarts s = true) :
    startPeriod s = allLinks.foldl startLinkPeriod (periodBegun s) := if_pos h

theorem startPeriod_waits (h : periodStarts s = false) : startPeriod s = s := by
  rw [startPeriod, h]
  rfl

theorem periodStarts_iff (s : State) :
    periodStarts s = true ↔ s.time.toNat % s.period.ms = 0 ∧ (s.time - s.periodEnd).toNat < 2 ^ 31 := by
  simp only [periodStarts, reached, Bool.and_eq_true, decide_eq_true_eq]

/-- A line at FULL rate is due in every period, one at QUIET rate in every sixteenth (R143). -/
theorem rateDue_eq (s : State) (n : LineNo) :
    rateDue s n = (decide ((s.line n).rate = .full) || decide (s.periodCount.toNat % 16 = n.1 % 16)) := by
  unfold rateDue
  cases (s.line n).rate <;> simp

theorem exec_scanPeriodStart (s : State) : exec .scanPeriodStart s = .next (markChanges s (startPeriod s)) := rfl

/-- Settles O26: the period count goes on, and link by link its first frame is sent. -/
theorem periodStartsSendOnEveryLink : Obligations.PeriodStartsSendOnEveryLink := by
  intro s starts
  refine ⟨_, exec_scanPeriodStart s, fun hno => ?_, fun hstarts => ?_⟩
  · have hwaits : periodStarts s = false := Bool.eq_false_of_not_eq_true fun h => hno ((periodStarts_iff s).mp h)
    rw [startPeriod_waits hwaits, markChanges_self]
  rw [startPeriod_starts ((periodStarts_iff s).mpr hstarts)]
  have hengine : (markChanges s (allLinks.foldl startLinkPeriod (periodBegun s))).engine = (periodBegun s).engine := by
    rw [markChanges_engine]
    exact engine_foldl startLinkPeriod_engine allLinks (periodBegun s)
  refine ⟨congrArg Engine.periodCount hengine, fun l hup hx => ?_, fun l hl => ?_, hengine⟩
  · have hsent := startLinkPeriods_sends (L := allLinks) (List.nodup_finRange 4) (periodBegun s) (List.mem_finRange l)
      hup hx
    rw [markChanges_link, hsent]
    unfold periodFrame
    simp only [rateDue_eq]
    rfl
  · rw [markChanges_link]
    exact startLinkPeriods_notUp allLinks (periodBegun s) hl

end Sys2Proof.Machine
end
